-- ==== Sys2Proof/Syntax.lean ====
section
/-! DEFINITION. The commands the block takes: one constructor per row of the opcode table, with the operands that come
from outside the part (a host access, a packet, a pin, what a sensor, a wire or another agent shows). -/

namespace Sys2Proof

/-- A command packet without its opcode, which the row gives (R89); LENGTH is 4 plus the number of parameter words. -/
structure Cmd where
  /-- The pair whose command bobbin carries it. -/
  pair : Fin 4 := 0
  tag : BitVec 16 := 0
  flags : BitVec 16 := 0
  version : BitVec 16 := 0
  /-- Header bits 0x08 [31:16] and 0x0C, reserved. -/
  rsvHi : BitVec 16 := 0
  rsvWord : Word := 0
  words : List Word := []
  deriving DecidableEq, Repr

/-- The PLLs that can lock again after a loss (R586). -/
inductive Pll where
  | dram | sd | pcie
  deriving DecidableEq, Repr

/-- What a host-interface reset is reported as (R84, R88). -/
inductive HostReset where
  | functionLevel | hotReset | linkDown | perstLow | returnToD0
  deriving DecidableEq, Repr

/-- A base address register of the host link (R46). -/
inductive Bar where
  | bar0 | bar2 | bar4
  deriving DecidableEq, Repr

/-- How an access of a bobbin failed on the host link or inside (R80). -/
inductive AccessFailure where
  | unsupportedRequest | completerAbort | timeout | poisoned | sram | dramFrozen | busMasterOff
  deriving DecidableEq, Repr

/-- Which access of a bobbin failed (R81). -/
inductive FailedAccess where
  | data | compareDest | descriptor | status | writeBack
  deriving DecidableEq, Repr

/-- The body of an ACK frame (R336). -/
structure AckMsg where
  nextA : BitVec 16 := 0
  nextB : BitVec 16 := 0
  validA : Bool := false
  validB : Bool := false
  nakA : Bool := false
  nakB : Bool := false
  maskA : Word := 0
  maskB : Word := 0
  deriving DecidableEq, Repr

/-- A frame that no other command carries: one cut off by BTYPE 0x78 before its end (R331), or the bytes of one (R332) whose CRC, form or
sequence number the receiver checks (R333-R335). -/
inductive BadFrame where
  | partial' | bytes (bs : List Byte)
  deriving DecidableEq, Repr

/-- A missed record of a STATUS frame (R354). -/
structure MissRec where
  panel : BitVec 16 := 0
  reason : BitVec 3 := 0
  line : Word := 0
  rows : Word := 0
  deriving DecidableEq, Repr

/-- What a lane in service meets (R312, R328): invalid sync headers within 64 blocks, or the loss of its clock or signal. -/
inductive LaneFault where
  | headers (invalid : Fin 65)
  | lockOrSignal
  deriving DecidableEq, Repr

/-- SEQ and REPLAY of a received frame (R332). -/
structure SeqMark where
  seq : BitVec 16
  replay : Bool := false
  deriving DecidableEq, Repr

/-- The body of a STATUS frame (R354): word 0x00, temperatures in 0.1 degrees, missed records. -/
structure StatusMsg where
  word0 : Word := 0
  temps : List (BitVec 16) := []
  word3 : Word := 0
  misses : List MissRec := []
  deriving DecidableEq, Repr

/-- A MGMT reply (R355). -/
structure MgmtMsg where
  tid : BitVec 8 := 0
  write : Bool := false
  len : BitVec 11 := 0
  addr : BitVec 24 := 0
  hstatus : BitVec 8 := 0
  data : List Byte := []
  deriving DecidableEq, Repr

/-- What the header ECC of a CSI-2 packet shows (R369). -/
inductive CsiEcc where
  | good | corrected | bad
  deriving DecidableEq, Repr

/-- The header of a CSI-2 packet (R368, R369); P0 has none, and there the fields do not count. -/
structure CsiHeader where
  vc : BitVec 4 := 0
  dt : BitVec 6 := 0
  ecc : CsiEcc := .good
  /-- The payload CRC fails. -/
  crcBad : Bool := false
  deriving DecidableEq, Repr

/-- A change on the lanes of a CSI-2 input (R368, R409). -/
inductive CsiChange where
  | ulpsEntered | ulpsLeft | deskewDone
  deriving DecidableEq, Repr

/-- A PTP sourcePortIdentity: clockIdentity and portNumber (R457). -/
structure PtpId where
  clock : BitVec 64 := 0
  port : BitVec 16 := 0
  deriving DecidableEq, Repr

/-- The header of a received PTP message that passed the port's filters of R453, and the timestamp it carries. -/
structure PtpMsg where
  domain : BitVec 8 := 0
  sdo : BitVec 4 := 0
  src : PtpId := {}
  seq : BitVec 16 := 0
  /-- correctionField, in 2^-16 ns. -/
  corr : Int := 0
  twoStep : Bool := false
  /-- The originTimestamp, preciseOriginTimestamp, receiveTimestamp, requestReceiptTimestamp or responseOriginTimestamp, in 1/16 ns. -/
  ts : Nat := 0
  /-- requestingPortIdentity of a response (R460). -/
  req : PtpId := {}
  deriving DecidableEq, Repr

/-- A block that takes schedule or configuration writes from a sequencer (R490). -/
inductive WriteBlock where
  | pdp | fir | nhd | hlk | cam | mot | tim | drc | hkp
  deriving DecidableEq, Repr

/-- Why a sequencer's lock-up signal rises (R485). -/
inductive LockReason where
  | memoryError | doubleFault | fetchError | noRetirement
  deriving DecidableEq, Repr

/-- Who made a DRAM request: the SOURCE codes of DRC_FREEZE_INFO (R520, R532). -/
inductive DramSource where
  | pdp | cam | hlkSpill | bar2 | dma | ebc | nhd | tableLoad | scrubber | sqa | sqb
  deriving DecidableEq, Repr

/-- What the check symbols of a burst show, read from the devices (R517). -/
inductive BurstResult where
  | clean
  | corrected (device : Fin 10)
  | address (synd : List Word)
  | uncorrectable (synd : List Word)
  deriving DecidableEq, Repr

/-- How DRAM training ended (R510). -/
inductive TrainResult where
  | pass
  | fail (step : Fin 7) (sc : Fin 2) (rank : Fin 2)
  deriving DecidableEq, Repr

/-- A write burst whose CRC fails (R518): how often in a row, and whether it is the write-back of a correction. -/
structure WriteTry where
  failures : Fin 5
  back : Bool := false
  deriving DecidableEq, Repr

/-- How far a tracked setting has moved (R511). -/
inductive Drift where
  | within
  | beyondHalf (marginLeft : Nat)
  | outside
  deriving DecidableEq, Repr

/-- What the ADC measures in a slot of the housekeeping round (R534, R535): the input of the slot decides which field counts. -/
structure SlotSample where
  /-- Diode forward voltages at 10 uA and 100 uA, in microvolts. -/
  v1 : Nat := 0
  v2 : Nat := 0
  /-- Thermistor code. -/
  code : BitVec 16 := 0
  /-- Die temperature in 0.1 degrees. -/
  die : Int := 0
  /-- Rail in millivolts. -/
  mv : Nat := 0
  deriving DecidableEq, Repr

/-- What the boot engine's own checks of R571 do not work out: how the flash answers. -/
inductive FlashAnswer where
  | answers | silent
  deriving DecidableEq, Repr

/-- One command or event of the part per row of the opcode table: the rows with operands in the table's order, then those without. The operands are what comes from outside:
what the row's own rules work out from the state is not an operand. -/
inductive Instr where
  /-- RESET_RELEASE (R569): The rising edge of SYS_RST_N latches the straps and starts PLL lock, fuse read and boot. -/
  | resetRelease (bootSrc : BitVec 2) (thmExt : Bool)
  /-- PLL_RELOCK (R586): A PLL's lock bit rises again and its held-lock period starts. -/
  | pllRelock (p : Pll)
  /-- PLL_LOCK_HELD (R586): A PLL has held lock for 1 ms; the PLL cause clears and dependent blocks restart. -/
  | pllLockHeld (p : Pll)
  /-- FLASH_SLOT_VERIFY (R572): Reading and hashing of a flash slot ends and the image is checked; on failure the next slot, host wait or FAILED follows. -/
  | flashSlotVerify (a : FlashAnswer)
  /-- BOOT_DOORBELL (R573): A host write of GLB_BOOT_DB in WAIT_HOST starts verification of the pushed image. -/
  | bootDoorbell (len : BitVec 20)
  /-- SUPPLY_OUT_OF_WINDOW (R584): A rail outside its window for two rounds sets SUPPLY and takes the per-rail action. -/
  | supplyOutOfWindow (m : Fin 16)
  /-- THM_FAULT (R499): The thimble oscillator or VDD_THM fails; the grant latch holds, FAULT_N is asserted, THM_OK cleared. -/
  | thmFault (osc : Bool)
  /-- DEBUG_CHALLENGE (R578): The debugger reads a challenge of random bytes and the serial number. -/
  | debugChallenge (random : List Byte)
  /-- DEBUG_RESPONSE (R578): A signed response is checked; the debug level opens or the response is refused, with lockout after three. -/
  | debugResponse (sigR : List Byte) (sigS : List Byte) (level : Fin 2) (key : List Byte)
  /-- SEQUENCER_HALT (R579): A debug halt of a sequencer stops retirement and leads to lock-up. -/
  | sequencerHalt (q : Fin 2)
  /-- REGISTER_WRITE (R21): A host BAR0 write to a register without its own row takes effect or is ignored. -/
  | registerWrite (off : BitVec 24) (v : Word)
  /-- BAR0_BAD_ACCESS (R42): A BAR0 access other than aligned 32-bit completes with unsupported request and changes nothing. -/
  | bar0BadAccess (isWrite : Bool)
  /-- BAR2_READ (R47): A host read through BAR2 of DRAM, with range, reserved-area and frozen checks. -/
  | bar2Read (off : BitVec 36) (len : Nat)
  /-- BAR2_WRITE (R47): A host write through BAR2 to DRAM, with byte enables, read-modify-write, range and reserved checks. -/
  | bar2Write (off : BitVec 36) (bytes : List (Option Byte))
  /-- BAR4_READ (R528): A host read through BAR4 of the SRAM host window, or the guard pattern outside it. -/
  | bar4Read (off : BitVec 25) (len : Nat)
  /-- BAR4_WRITE (R528): A host write through BAR4 to the SRAM host window, discarded outside it. -/
  | bar4Write (off : BitVec 25) (bytes : List Byte)
  /-- POISONED_WRITE (R49): A poisoned write to any BAR is discarded whole and logged. -/
  | poisonedWrite (bar : Bar) (off : BitVec 36)
  /-- LINK_CHANGE (R45): A PCI Express speed or width change after first training. -/
  | linkChange (speed : Nat) (width : Nat)
  /-- HOST_INTERFACE_RESET (R84): FLR, hot reset, link down, PCIE_PERST_N or return to D0 resets the host interface only. -/
  | hostInterfaceReset (kind : HostReset)
  /-- BME_CLEAR (R87): Clearing Bus Master Enable or entering D3hot stops host-memory accesses at the next burst boundary. -/
  | bmeClear (d3hot : Bool)
  /-- MSIX_UNMASK (R65): Unmasking a vector sends its pending message once. -/
  | msixUnmask (v : Option (Fin 64))
  /-- BOB_ENABLE (R59): A BOB_CFG write setting EN commits the staged addresses, checks them and enables or rejects. -/
  | bobEnable (n : Fin 32) (v : Word)
  /-- BOB_DISABLE (R79): Clearing BOB_CFG.EN stops the bobbin; a DMA descriptor in progress ends ABORTED at the burst boundary. -/
  | bobDisable (n : Fin 32) (v : Word)
  /-- BOB_DOORBELL (R62): A write to BOB_DB moves a tail or head index after checking the value. -/
  | bobDoorbell (n : Fin 32) (v : Word)
  /-- BOB_RESUME (R83): Writing 1 to BOB_STAT.HALTED resumes a halted bobbin at its head. -/
  | bobResume (n : Fin 32)
  /-- CLK_LOST_CLEAR (R35): Writing 1 to a lost bit of GLB_CLK_STAT clears it. -/
  | clkLostClear (v : Word)
  /-- INDEX_WRITE_BACK (R63): The part writes its changed index to the write-back address within 1 µs. -/
  | indexWriteBack (n : Fin 32)
  /-- MOD_TIME_EXPIRY (R64): MOD_TIME passes since the oldest pending signalled entry and one MSI-X message is sent. -/
  | modTimeExpiry (n : Fin 32)
  /-- DMA_COPY (R75): A COPY descriptor is fetched, checked and started. -/
  | dmaCopy (n : Fin 16)
  /-- DMA_FILL (R75): A FILL descriptor is fetched, checked and started. -/
  | dmaFill (n : Fin 16)
  /-- DMA_COMPARE (R75): A COMPARE descriptor is fetched, checked and started. -/
  | dmaCompare (n : Fin 16)
  /-- DMA_EBC_ENCODE (R75): An EBC_ENCODE descriptor is fetched, checked and started. -/
  | dmaEbcEncode (n : Fin 16)
  /-- DMA_EBC_DECODE (R75): An EBC_DECODE descriptor is fetched, checked and started. -/
  | dmaEbcDecode (n : Fin 16)
  /-- DMA_BURST (R77): A channel runs one burst in its round-robin turn while its pacing request is asserted. -/
  | dmaBurst (n : Fin 16)
  /-- EBC_BLOCK_DONE (R213): Engine 2 finishes coding or decoding one block with self-check. -/
  | ebcBlockDone (n : Fin 16)
  /-- DMA_DESCRIPTOR_COMPLETE (R74): The descriptor's status is written after its data and the head advances. -/
  | dmaDescriptorComplete (n : Fin 16)
  /-- BUS_ERROR_HALT (R81): A failed access halts the bobbin, completes or leaves the descriptor and latches the error. -/
  | busErrorHalt (n : Fin 32) (which : FailedAccess) (why : AccessFailure) (isWrite : Bool)
  /-- COMMAND_FETCH (R90): The interpreter fetches a whole packet from a command bobbin once its entries are present and checks it. -/
  | commandFetch (p : Fin 4)
  /-- REPLY_POST (R67): A staged reply is written to its reply bobbin when room exists. -/
  | replyPost (p : Fin 4)
  /-- EVENT_ARRIVAL (R37): An event reaches EVT and is held for the reorder window or delivered LATE. -/
  | eventArrival (i : Nat)
  /-- EVENT_STAGING_WRITE (R121): Staged event records are written to their event bobbin when room returns. -/
  | eventStagingWrite (k : Fin 4)
  /-- SYS_HELLO (R113): Queries or selects the command-set and event-record versions. -/
  | sysHello (c : Cmd)
  /-- SYS_NOP (R95): Does nothing and replies OK. -/
  | sysNop (c : Cmd)
  /-- SYS_CANCEL (R96): Ends an outstanding command of a pair where possible. -/
  | sysCancel (c : Cmd)
  /-- JOB_OPEN_PANEL (R614): Checks and opens a panel as active or queued. -/
  | jobOpenPanel (c : Cmd)
  /-- JOB_READY (R163): Raises the number of ready bands of a panel. -/
  | jobReady (c : Cmd)
  /-- JOB_HEM (R164): Moves the hem of an open panel earlier. -/
  | jobHem (c : Cmd)
  /-- JOB_ABORT (R165): Ends a panel at its first undecided line, optionally with the queued panel. -/
  | jobAbort (c : Cmd)
  /-- JOB_WAIT_HEM (R166): Waits for a panel's report. -/
  | jobWaitHem (c : Cmd)
  /-- PDP_LOAD_CURVES (R167): Loads per-nozzle tone curves from DRAM in a MODE. -/
  | pdpLoadCurves (c : Cmd)
  /-- PDP_LOAD_GLOBAL_CURVE (R167): Loads a plane's global curve. -/
  | pdpLoadGlobalCurve (c : Cmd)
  /-- PDP_LOAD_SCREEN (R167): Loads a plane's threshold array. -/
  | pdpLoadScreen (c : Cmd)
  /-- PDP_LOAD_SEAM_MASK (R167): Loads a seam mask slot. -/
  | pdpLoadSeamMask (c : Cmd)
  /-- PDP_SET_LEVEL_MAP (R170): Sets a port's level map for a plane. -/
  | pdpSetLevelMap (c : Cmd)
  /-- PDP_SET_SELVEDGE (R170): Changes a plane's selvedge in an open panel. -/
  | pdpSetSelvedge (c : Cmd)
  /-- PDP_SET_SEAM (R170): Changes an existing seam entry of an open panel. -/
  | pdpSetSeam (c : Cmd)
  /-- BAND_FETCH (R148): A band's first line enters the compute window; its header and bitmap are checked and blocks fetched. -/
  | bandFetch (queued : Bool) (recompute : Bool) (band : Nat) (plane : Fin 8)
  /-- DECODE_BLOCK (R210): A PDP decoder finishes a coded or raw block into the look-around store. -/
  | decodeBlock (e : Fin 2) (queued : Bool) (recompute : Bool) (band : Nat) (plane : Fin 8) (block : Nat)
  /-- LINE_COMPUTE (R175): PDP computes a pending line through all stages once it lies in the window, its band is ready and tables valid. -/
  | lineCompute (recompute : Bool)
  /-- LINE_SEND (R173): PDP hands a basted line to HLK as data frames once it lies within 32 lines of F[p]. -/
  | lineSend (p : Fin 16)
  /-- SEQUENCER_WRITE_ARRIVAL (R490): A schedule or configuration write reaches a block and is applied, acknowledged or discarded by epoch. -/
  | sequencerWriteArrival (b : WriteBlock) (q : Fin 2) (epoch : Word) (pair : BitVec 8) (tag : BitVec 16) (writes : List (Nat × Word))
  /-- STITCH_SEND (R232): HLK sends a committed stitch frame ahead of other frames, inserting it if needed, before its deadline. -/
  | stitchSend (p : Fin 16)
  /-- LINE_FIRED (R247): Every mapped row of a line on a port reaches its instant; F[p] advances. -/
  | lineFired (p : Fin 16)
  /-- JET_EN_CHANGE (R245): JET_EN changes level after its 50 ns glitch filter. -/
  | jetEnChange (high : Bool)
  /-- FIR_SET_FEED (R251): Sets the feed source and estimator, resetting A, HWM and credit. -/
  | firSetFeed (c : Cmd)
  /-- FIR_SET_ROWS (R251): Sets a port's time trim and row offsets. -/
  | firSetRows (c : Cmd)
  /-- FIR_SET_OVERSPEED (R251): Sets SKIP_FLOOR and CAP_MARGIN. -/
  | firSetOverspeed (c : Cmd)
  /-- FIR_CLEAR_FAULT (R252): Clears the latched feed fault. -/
  | firClearFault (c : Cmd)
  /-- NHD_SET_NOZZLES (R261): Stages nozzle map entries. -/
  | nhdSetNozzles (c : Cmd)
  /-- NHD_SET_RANGE (R261): Stages one entry value for a range of nozzles. -/
  | nhdSetRange (c : Cmd)
  /-- NHD_COMMIT_MAP (R263): Commits the staged list in a MODE. -/
  | nhdCommitMap (c : Cmd)
  /-- NHD_DISCARD_STAGED (R261): Empties the staged list. -/
  | nhdDiscardStaged (c : Cmd)
  /-- NHD_LOAD_MAP (R265): Replaces the whole map from DRAM and commits. -/
  | nhdLoadMap (c : Cmd)
  /-- NHD_READ_MAP (R266): Copies a map range to DRAM with its version. -/
  | nhdReadMap (c : Cmd)
  /-- NHD_SET_KERNEL (R261): Stages a plane's darning kernel. -/
  | nhdSetKernel (c : Cmd)
  /-- NHD_SET_POLICY (R294): Sets NHD_POLICY. -/
  | nhdSetPolicy (c : Cmd)
  /-- NHD_SET_GATE (R294): Configures a gate's sink, threshold and delay. -/
  | nhdSetGate (c : Cmd)
  /-- NHD_GATE_RUN (R283): Starts a gate run on a port after its checks. -/
  | nhdGateRun (c : Cmd)
  /-- NHD_SET_SWATCH (R285): Defines a swatch and commits the context's shadowed set. -/
  | nhdSetSwatch (c : Cmd)
  /-- NHD_PRINT_SWATCH (R292): Places the defined swatch in a panel. -/
  | nhdPrintSwatch (c : Cmd)
  /-- GATE_DROP (R278): The next drop of a gate run fires at its instant, after checking the run's conditions. -/
  | gateDrop (g : Fin 2)
  /-- GATE_CROSSING (R277): The gate signal falls below baseline by THRESH and a stamped crossing is marked. -/
  | gateCrossing (g : Fin 2) (baseline depth : BitVec 12)
  /-- GATE_RUN_END (R279): TOF_HI after the last drop the run ends, classifies nozzles and writes records. -/
  | gateRunEnd (g : Fin 2)
  /-- GATE_RESUME (R284): 250 µs after a calibration pause the run resumes with the next nozzle. -/
  | gateResume (g : Fin 2)
  /-- SIGNAL_DETECT (R308): A lane's receive signal is detected for 1 µs and ACQUIRE starts. -/
  | signalDetect (p : Fin 16) (l : Fin 2)
  /-- SIGNAL_LOSS (R308): Signal detect lost for 1 µs outside service returns the attempt to NO_SIGNAL. -/
  | signalLoss (p : Fin 16) (l : Fin 2) (lockOnly : Bool)
  /-- PRESET_STEP (R304): After 100 µs without block lock the receiver tries the next preset. -/
  | presetStep (p : Fin 16) (l : Fin 2)
  /-- BLOCK_LOCK (R304): The receiver achieves block lock and PRBS31 alignment and moves to SCREEN. -/
  | blockLock (p : Fin 16) (l : Fin 2) (inverted : Bool)
  /-- SCREEN_PRESET_DONE (R305): Error count and eye score of one preset are taken after 2^17 blocks. -/
  | screenPresetDone (p : Fin 16) (l : Fin 2) (errors : Nat) (score : Fin 64)
  /-- CHECK_DONE (R306): The 10^9-bit check of a preset ends in pass (READY) or fail. -/
  | checkDone (p : Fin 16) (l : Fin 2) (errors : Nat)
  /-- ACQUIRE_TIMEOUT (R309): 10 ms after signal detected without block lock the lane parks with ACQ_TIMEOUT. -/
  | acquireTimeout (p : Fin 16) (l : Fin 2)
  /-- READY_TIMEOUT (R309): 1 s in READY without the far end ready parks the lane with PARTNER. -/
  | readyTimeout (p : Fin 16) (l : Fin 2)
  /-- TS_RECEIVE (R302): A training ordered set is received and checked, updating far-end state and triggering GO. -/
  | tsReceive (p : Fin 16) (l : Fin 2) (payload : BitVec 64)
  /-- GO_COMPLETE (R307): After the eighth GO the lane enters service. -/
  | goComplete (p : Fin 16) (l : Fin 2)
  /-- BACKOFF_EXPIRY (R315): The unthreaded wait passes and a rethread attempt starts. -/
  | backoffExpiry (p : Fin 16) (l : Fin 2)
  /-- LANE_LOSS (R312): A lane in service is declared lost; training stream, replay on the survivor and rethread follow. -/
  | laneLoss (p : Fin 16) (l : Fin 2) (why : LaneFault)
  /-- RATE_ACK_RECEIVE (R310): The head's RATE_ACK makes the lane change rate and retrain from NO_SIGNAL. -/
  | rateAckReceive (p : Fin 16) (l : Fin 2)
  /-- SLEEP_TS_RECEIVE (R318): A SLEEP TS puts the receiver into RX sleep. -/
  | sleepTsReceive (p : Fin 16) (l : Fin 2)
  /-- WAKE_REQ_RECEIVE (R320): A WAKE_REQ wakes the named transmitter direction. -/
  | wakeReqReceive (p : Fin 16) (l : Fin 2)
  /-- WAKE_CHECK_DONE (R320): The short check after wake passes into GO or fails into a rethread. -/
  | wakeCheckDone (p : Fin 16) (l : Fin 2) (pass : Bool)
  /-- LOOPBACK_DONE (R321): A loopback test ends with its error counts and the lane retrains. -/
  | loopbackDone (p : Fin 16) (l : Fin 2) (errors : Nat) (first : Word)
  /-- LOOPBACK_TIMEOUT (R323): No aligned check block within 1 ms ends a far-end loopback with NO_LOOP. -/
  | loopbackTimeout (p : Fin 16) (l : Fin 2)
  /-- HLK_SET_PORT (R326): Enables a port and its lanes and sets RAISE. -/
  | hlkSetPort (c : Cmd)
  /-- HLK_RETHREAD (R315): Starts a rethread attempt at once and resets the wait. -/
  | hlkRethread (c : Cmd)
  /-- HLK_SET_SLEEP (R319): Puts named lane directions to sleep. -/
  | hlkSetSleep (c : Cmd)
  /-- HLK_SET_SLEEP_WAKE (R326): With both direction bits 0 wakes the named lanes. -/
  | hlkSetSleepWake (c : Cmd)
  /-- HLK_LOOPBACK (R322): Starts a loopback test on a lane. -/
  | hlkLoopback (c : Cmd)
  /-- HLK_IDENTIFY (R364): Identifies the head again. -/
  | hlkIdentify (c : Cmd)
  /-- HLK_MGMT_READ (R364): Reads head memory into DRAM by MGMT transactions. -/
  | hlkMgmtRead (c : Cmd)
  /-- HLK_MGMT_WRITE (R360): Writes head memory from DRAM by MGMT transactions. -/
  | hlkMgmtWrite (c : Cmd)
  /-- HLK_SET_TIMERS (R363): Sets REPLAY_TIMEOUT, NAK_LIMIT and TIMESYNC_PERIOD. -/
  | hlkSetTimers (c : Cmd)
  /-- ACK_RECEIVE (R338): An ACK frame frees held frames or, with NAK, triggers retransmission. -/
  | ackReceive (p : Fin 16) (l : Fin 2) (m : AckMsg)
  /-- ACK_SEND (R337): The receiver sends an ACK within 2 µs of accepting an unacknowledged frame or after 16. -/
  | ackSend (p : Fin 16) (l : Fin 2)
  /-- BAD_FRAME_RECEIVE (R337): A frame failing CRC, out of sequence or malformed is discarded with NAK or acknowledgement. -/
  | badFrameReceive (p : Fin 16) (l : Fin 2) (why : BadFrame)
  /-- REPLAY_TIMEOUT (R338): No acknowledgement advance for REPLAY_TIMEOUT resends from the oldest held frame. -/
  | replayTimeout (p : Fin 16) (l : Fin 2)
  /-- HELLO_SEND (R341): Every 100 µs until complete each lane in service sends HELLO. -/
  | helloSend (p : Fin 16)
  /-- HELLO_RECEIVE (R341): A HELLO is received; the controller chooses a version or checks the echo. -/
  | helloReceive (p : Fin 16) (l : Fin 2) (versions : List (BitVec 16)) (chosen : BitVec 16)
  /-- HELLO_TIMEOUT (R343): No complete exchange within 10 ms raises EV_HLK_HEAD CODE 2. -/
  | helloTimeout (p : Fin 16)
  /-- HELLO_RETRY (R343): Every 1 s after a failed exchange HLK retries it. -/
  | helloRetry (p : Fin 16)
  /-- HEAD_IDENTIFY (R361): After HELLO completes HLK reads identity and rank record. -/
  | headIdentify (p : Fin 16)
  /-- IDENTIFY_DONE (R361): Identification ends: blocks take rank record values, or the port has no head. -/
  | identifyDone (p : Fin 16) (identity : List Byte) (rank : List Byte)
  /-- TIMESYNC_SEND (R352): Every TIMESYNC_PERIOD a request is sent on each lane in service. -/
  | timesyncSend (p : Fin 16)
  /-- TIMESYNC_REPLY (R352): A reply gives a lane delay and updates delay_p. -/
  | timesyncReply (p : Fin 16) (l : Fin 2) (id : BitVec 8) (t2 : BitVec 64) (t3 : BitVec 64) (t4 : BitVec 64)
  /-- STATUS_RECEIVE (R354): A head STATUS updates temperatures, flags and missed rows. -/
  | statusReceive (p : Fin 16) (l : Fin 2) (f : SeqMark) (m : StatusMsg)
  /-- STATUS_SILENT (R362): No STATUS for 1 ms makes head temperatures invalid. -/
  | statusSilent (p : Fin 16)
  /-- MGMT_REPLY (R356): A MGMT reply completes a transaction or is discarded as malformed. -/
  | mgmtReply (p : Fin 16) (l : Fin 2) (seq : BitVec 16) (m : MgmtMsg)
  /-- MGMT_TIMEOUT (R362): No MGMT reply within 1 ms ends the transaction TIMEOUT. -/
  | mgmtTimeout (p : Fin 16) (tid : BitVec 8)
  /-- FRAME_START (R374): A Frame Start packet or active VSYNC edge opens a frame of a context. -/
  | frameStart (i : Fin 4) (h : CsiHeader) (number : BitVec 16)
  /-- CSI_LANE_STATE (R368): A CSI-2 input enters or leaves ULPS or completes deskew. -/
  | csiLaneState (i : Fin 3) (e : CsiChange)
  /-- LINE_PACKET (R369): A line arrives at an input and is checked and placed in its FIFO. -/
  | linePacket (i : Fin 4) (h : CsiHeader) (px : List (Nat × Nat × Nat))
  /-- CODED_BLOCK_ENCODE (R402): The camera encoder finishes a block of the CODED output. -/
  | codedBlockEncode (k : Fin 8)
  /-- FRAME_END (R403): Frame End closes a frame whole or SHORT and its statistics are written. -/
  | frameEnd (i : Fin 4) (h : CsiHeader)
  /-- FRAME_TIMEOUT (R403): FRAME_TIMEOUT without a line ends the frame SHORT. -/
  | frameTimeout (k : Fin 8)
  /-- CAM_SET_INPUT (R406): Configures an input. -/
  | camSetInput (c : Cmd)
  /-- CAM_SET_MAP (R407): Sets a stream map entry. -/
  | camSetMap (c : Cmd)
  /-- CAM_SET_CONTEXT (R407): Configures and enables or disables a context. -/
  | camSetContext (c : Cmd)
  /-- CAM_SET_SENSOR (R385): Sets pattern, black levels, defect thresholds and IR shares. -/
  | camSetSensor (c : Cmd)
  /-- CAM_SET_MATRIX (R391): Sets the colour matrix. -/
  | camSetMatrix (c : Cmd)
  /-- CAM_LOAD_TONE (R392): Loads tone curves from DRAM. -/
  | camLoadTone (c : Cmd)
  /-- CAM_SET_DEFECTS (R387): Loads the static defect list. -/
  | camSetDefects (c : Cmd)
  /-- CAM_SET_OUTPUT (R396): Enables an output on a bobbin. -/
  | camSetOutput (c : Cmd)
  /-- CAM_SET_GEOMETRY (R376): Stages crop, binning and scaling. -/
  | camSetGeometry (c : Cmd)
  /-- CAM_SET_FLATFIELD (R388): Stages the flat-field table. -/
  | camSetFlatfield (c : Cmd)
  /-- CAM_COMMIT (R377): Commits the context's shadowed set at the next frame boundary. -/
  | camCommit (c : Cmd)
  /-- CAM_SET_STATS (R394): Sets statistics buffers. -/
  | camSetStats (c : Cmd)
  /-- CAM_SET_RATE (R382): Sets CAM_RATE. -/
  | camSetRate (c : Cmd)
  /-- MOT_TICK (R412): Every 10 µs an axis advances its profile, checks encoder deviation and sends its phase-link frame. -/
  | motTick (n : Fin 6)
  /-- MOVE_START (R417): A motion command takes effect at the first tick 50 µs after start or after its tack fire. -/
  | moveStart (n : Fin 6)
  /-- ENCODER_EDGE (R426): A filtered quadrature edge changes the count and is stamped. -/
  | encoderEdge (n : Fin 6) (up : Bool)
  /-- QUADRATURE_ERROR (R427): A and B change in one cycle; the error is counted and a feed axis faults. -/
  | quadratureError (n : Fin 6)
  /-- INPUT_QUALIFIED_EDGE (R431): A limit or home input holds a new level for DEBOUNCE; limits may trip with a quick stop. -/
  | inputQualifiedEdge (n : Fin 6) (i : Fin 2)
  /-- JOG_WRITE (R440): A host write to MOT_JOG sets a jog target velocity or is ignored. -/
  | jogWrite (n : Fin 6) (v : Word)
  /-- JOG_TIMEOUT (R440): 100 ms without a jog write sets vt to 0. -/
  | jogTimeout (n : Fin 6)
  /-- HOLD_DELAY_EXPIRY (R436): An axis at rest for HOLD_DELAY switches to HOLD_I. -/
  | holdDelayExpiry (n : Fin 6)
  /-- MOT_STAT_READ (R444): A host read of MOT_STAT captures an axis snapshot. -/
  | motStatRead (n : Fin 6)
  /-- MOT_SET_AXIS (R441): Configures an axis. -/
  | motSetAxis (c : Cmd)
  /-- MOT_SET_LIMITS (R413): Sets motion limits. -/
  | motSetLimits (c : Cmd)
  /-- MOT_SET_BANDS (R424): Sets speed band thresholds. -/
  | motSetBands (c : Cmd)
  /-- MOT_SET_INPUTS (R431): Sets input roles, polarity and debounce. -/
  | motSetInputs (c : Cmd)
  /-- MOT_ENABLE (R436): Enables or disables an axis. -/
  | motEnable (c : Cmd)
  /-- MOT_MOVE_TO (R415): Starts a position move. -/
  | motMoveTo (c : Cmd)
  /-- MOT_SET_VELOCITY (R414): Starts a velocity target. -/
  | motSetVelocity (c : Cmd)
  /-- MOT_STOP (R419): Brings an axis to rest, optionally quick. -/
  | motStop (c : Cmd)
  /-- MOT_HOME (R434): Runs homing. -/
  | motHome (c : Cmd)
  /-- MOT_SET_POSITION (R441): Sets p of an axis at rest. -/
  | motSetPosition (c : Cmd)
  /-- MOT_CLEAR (R436): Clears FAULT or chatter latches. -/
  | motClear (c : Cmd)
  /-- TACK_FIRE (R465): A tack's target is reached and the fire goes to its consumers. -/
  | tackFire (n : Fin 32)
  /-- TACK_ARM (R467): Writing TIM_TACK_CTRL with ARM set commits the staged set and arms the tack. -/
  | tackArm (n : Fin 32) (v : Word)
  /-- TACK_DISARM (R467): Writing TIM_TACK_CTRL with ARM clear commits the staged set and disarms. -/
  | tackDisarm (n : Fin 32) (v : Word)
  /-- SLEW_COMPLETE (R450): A pending slew's remainder is used up. -/
  | slewComplete (b : Fin 4)
  /-- TIM_SET_TB_SET (R449): Sets a time base. -/
  | timSetTbSet (c : Cmd)
  /-- TIM_SET_TB_STEP (R449): Steps a time base. -/
  | timSetTbStep (c : Cmd)
  /-- TIM_SET_TB_SLEW (R449): Replaces any pending slew. -/
  | timSetTbSlew (c : Cmd)
  /-- TIM_SET_TB_RATE (R449): Sets a time base's RATE. -/
  | timSetTbRate (c : Cmd)
  /-- TIM_SET_PORT (R452): Configures an Ethernet port. -/
  | timSetPort (c : Cmd)
  /-- TIM_SET_PTP (R472): Configures a port's PTP instance. -/
  | timSetPtp (c : Cmd)
  /-- TIM_SEND_MSG (R463): Sends a host PTP message. -/
  | timSendMsg (c : Cmd)
  /-- TIM_RECV_MSG (R464): Takes a queued host message. -/
  | timRecvMsg (c : Cmd)
  /-- ETH_LINK_CHANGE (R452): An Ethernet port's link goes up or down. -/
  | ethLinkChange (e : Fin 2) (up : Bool)
  /-- SYNC_RECEIVE (R460): A SLAVE takes a Sync and runs the servo. -/
  | syncReceive (e : Fin 2) (m : PtpMsg)
  /-- FOLLOW_UP_RECEIVE (R459): A Follow_Up completes a two-step Sync. -/
  | followUpReceive (e : Fin 2) (m : PtpMsg)
  /-- FOLLOW_UP_TIMEOUT (R459): No Follow_Up within one Sync interval discards the Sync. -/
  | followUpTimeout (e : Fin 2)
  /-- DELAY_REQ_SEND (R457): A SLAVE sends Delay_Req at its interval. -/
  | delayReqSend (e : Fin 2) (fwTakes : Bool)
  /-- DELAY_RESP_RECEIVE (R460): A Delay_Resp completes an E2E delay exchange. -/
  | delayRespReceive (e : Fin 2) (m : PtpMsg)
  /-- DELAY_REQ_RECEIVE (R457): A MASTER answers a Delay_Req with Delay_Resp. -/
  | delayReqReceive (e : Fin 2) (m : PtpMsg)
  /-- PDELAY_REQ_SEND (R457): With P2P the instance sends Pdelay_Req at its interval. -/
  | pdelayReqSend (e : Fin 2) (fwTakes : Bool)
  /-- PDELAY_REQ_RECEIVE (R457): The instance answers Pdelay_Req with two-step Pdelay_Resp. -/
  | pdelayReqReceive (e : Fin 2) (m : PtpMsg) (fwTakes : Bool)
  /-- PDELAY_RESP_RECEIVE (R460): A Pdelay_Resp or its Follow_Up updates the link delay. -/
  | pdelayRespReceive (e : Fin 2) (m : PtpMsg) (followUp : Bool)
  /-- SYNC_SEND (R457): A MASTER sends Sync at logSyncInterval, with Follow_Up when two-step. -/
  | syncSend (e : Fin 2) (fwTakes : Bool)
  /-- PTP_HOST_MESSAGE_RECEIVE (R464): An Announce, Signaling or Management message is queued for the host or dropped. -/
  | ptpHostMessageReceive (e : Fin 2) (kind : BitVec 4) (m : PtpMsg) (bytes : List Byte)
  /-- SYNC_LOSS_TIMEOUT (R462): No Sync for SYNC_LOSS intervals puts the SLAVE in holdover. -/
  | syncLossTimeout (e : Fin 2)
  /-- HEARTBEAT (R479): Every 10 µs a sequencer's heartbeat reaches the thimble, which compares digests of the synced standby. -/
  | heartbeat (q : Fin 2) (stray : List (Fin 8192 × Word))
  /-- HEARTBEAT_LOSS (R484): 1200 THM cycles without a heartbeat withdraw the active grant or drop the standby. -/
  | heartbeatLoss (q : Fin 2)
  /-- LOCKUP (R485): A sequencer's lock-up signal reaches the thimble. -/
  | lockup (q : Fin 2) (why : LockReason)
  /-- MIRROR_RECORD_RECEIVE (R481): The standby applies and acknowledges a CRC-checked mirror record. -/
  | mirrorRecordReceive (words : List (Fin 8192 × Word)) (crcOk : Bool)
  /-- SEQ_RESET_RELEASE (R496): After 1 µs in RESET a sequencer is released into SELFTEST. -/
  | seqResetRelease (q : Fin 2)
  /-- SEQ_SELFTEST_DONE (R488): A sequencer's self-test ends in LOADING or FAILED. -/
  | seqSelftestDone (q : Fin 2) (pass : Bool)
  /-- SEQ_LOADING_DONE (R488): Firmware is loaded; the sequencer syncs or takes the first or cold grant. -/
  | seqLoadingDone (q : Fin 2)
  /-- THM_GNT_CHANGE (R500): In external-thimble mode a THM_GNT level change withdraws and regrants. -/
  | thmGntChange (high : Bool)
  /-- SEQ_SET_SWAP (R502): Sets SWAP_INTERVAL. -/
  | seqSetSwap (c : Cmd)
  /-- SEQ_SWAP (R503): Requests a planned swap at once. -/
  | seqSwap (c : Cmd)
  /-- SEQ_REPAIR (R503): Repairs a FAILED sequencer. -/
  | seqRepair (c : Cmd)
  /-- DRAM_BRINGUP_DONE (R510): DRAM training and ECC initialisation end in service or failed. -/
  | dramBringupDone (r : TrainResult)
  /-- DRAM_READ_COMPLETE (R517): A DRAM read burst returns and is classified clean, corrected, address or uncorrectable. -/
  | dramReadComplete (src : DramSource) (unit : Fin 32) (addr : BitVec 36) (r : BurstResult) (drift : Drift) (nbr : Word)
  /-- DRAM_WRITE_CRC_ALERT (R518): ALERT_n signals a write CRC error; the write is retried or the DRC freezes. -/
  | dramWriteCrcAlert (src : DramSource) (unit : Fin 32) (addr : BitVec 36) (w : WriteTry)
  /-- REFRESH_TIMER (R513): A refresh interval passes and refresh is issued or postponed. -/
  | refreshTimer (rank : Fin 2)
  /-- ZQ_CALIBRATION_TIMER (R511): Every 128 ms ZQ calibration runs on each rank. -/
  | zqCalibrationTimer (rank : Fin 2) (sc : Fin 2) (drift : Drift)
  /-- DQS_OSC_READ (R511): Every 64 ms DQS oscillators are read and write timing corrected. -/
  | dqsOscRead (rank : Fin 2) (sc : Fin 2) (drift : Drift)
  /-- DEVICE_TEMP_READ (R513): Every 16 ms device temperatures set the refresh rate. -/
  | deviceTempRead (rank : Fin 2) (code : Nat) (above85 : Bool)
  /-- PATROL_SCRUB (R519): The scrubber reads the next burst. -/
  | patrolScrub (r : BurstResult)
  /-- DRC_PANIC_CHANGE (R523): A real-time port's buffer crosses its threshold and enters or leaves panic. -/
  | drcPanicChange (port : Fin 3) (level : Nat) (zeroNs : Word)
  /-- DRC_RETRAIN_DONE (R512): Retraining ends and requests resume. -/
  | drcRetrainDone (margin : Fin 64)
  /-- SRAM_SCRUB (R529): The SRAM scrubber reads words and corrects or reports errors. -/
  | sramScrub (addr : BitVec 25) (uncorrectable : Bool)
  /-- DRC_RESET (R526): Starts recovery from a freeze. -/
  | drcReset (c : Cmd)
  /-- DRC_RETRAIN (R512): Starts retraining. -/
  | drcRetrain (c : Cmd)
  /-- DRC_SET_REFRESH (R530): Sets refresh mode, NBR_K, scrub and write-back. -/
  | drcSetRefresh (c : Cmd)
  /-- DRC_SET_QOS (R530): Sets panic thresholds and DEV_LIMIT. -/
  | drcSetQos (c : Cmd)
  /-- DRC_INJECT (R531): Marks a burst for an injected error. -/
  | drcInject (c : Cmd)
  /-- HKP_SLOT (R534): Each 250 µs slot samples one input and updates groups, windows and latches. -/
  | hkpSlot (m : SlotSample)
  /-- HKP_SET_CHANNEL (R560): Configures a remote channel. -/
  | hkpSetChannel (c : Cmd)
  /-- HKP_SET_THRESH (R538): Sets a group's thresholds. -/
  | hkpSetThresh (c : Cmd)
  /-- HKP_SET_HEAD (R541): Narrows a head's jetting window. -/
  | hkpSetHead (c : Cmd)
  /-- HKP_SET_THROTTLE (R542): Sets throttle parameters. -/
  | hkpSetThrottle (c : Cmd)
  /-- HKP_CLEAR (R545): Clears SHUTDOWN, sensor and WARN latches as allowed. -/
  | hkpClear (c : Cmd)
  /-- PWM_SWITCH_ON (R547): A sink's switch-on instant applies new duty and factors and turns it on. -/
  | pwmSwitchOn (k : Fin 8)
  /-- LED_DUTY_WRITE (R548): A host write to LGT_DUTY stages the duty for the next switch-on. -/
  | ledDutyWrite (k : Fin 8) (v : Word)
  /-- STROBE_END (R548): STROBE_LEN cycles after its start a strobe pulse ends. -/
  | strobeEnd (k : Fin 8)
  /-- POWER_ESTIMATE (R550): Every 1 ms sink dissipation is estimated and the power scale set. -/
  | powerEstimate (pins : List (BitVec 16))
  /-- SINK_FAULT (R551): Regulation lost for 16 periods or overvoltage switches a sink off. -/
  | sinkFault (k : Fin 8) (tooHigh : Bool) (mv : BitVec 16)
  /-- CHAIN_FIFO_WRITE (R553): A 32-bit write to LGT_CH_FIFO is queued or discarded when full. -/
  | chainFifoWrite (c : Fin 4) (v : Word)
  /-- CHAIN_FRAME_START (R553): A chain port starts a frame once its FIFO holds enough bits. -/
  | chainFrameStart (c : Fin 4)
  /-- CHAIN_LATCH (R552): The wire low for LATCH_GAP makes every device latch its bits. -/
  | chainLatch (c : Fin 4)
  /-- LGT_SET_SINK (R559): Configures a sink and clears its fault latch. -/
  | lgtSetSink (c : Cmd)
  /-- LGT_SET_PWM (R547): Sets PERIOD and PLIMIT. -/
  | lgtSetPwm (c : Cmd)
  /-- LGT_SET_CHAIN (R553): Configures a chain port. -/
  | lgtSetChain (c : Cmd)
  /-- CAL_RUN_DONE (R558): A group's calibration ends and new trims take effect or it is marked FAILED. -/
  | calRunDone (g : Fin 11) (gain offset : BitVec 10) (inRange : Bool)
  /-- CAL_DEFER_TIMEOUT (R557): After 30 s of deferral the group is forced at the next hem. -/
  | calDeferTimeout (g : Fin 11)
  /-- CAL_SET (R559): Sets ΔT, AUTO and gate reference sensors. -/
  | calSet (c : Cmd)
  /-- CAL_RUN (R560): Makes named groups due and waits for them. -/
  | calRun (c : Cmd)
  /-- PLL_LOCK (R580): The SD, PCIe or DRAM PLL first locks after chip reset, starting head-lane training, PCI Express link training or enabling DRAM bring-up. -/
  | pllLock (p : Pll)
  /-- PCIE_LINK_UP (R580): PCI Express link training completes, at first bring-up or after a link-down or PLL-loss host-interface reset, and the host link is usable. -/
  | pcieLinkUp (speed : Nat) (width : Nat)
  /-- RC_REGISTER_READ (R14): A host read of an RC register or field, such as an EPOCH_STALE, error or peak counter, returns the value and clears it. -/
  | rcRegisterRead (off : BitVec 24)
  /-- ETH_FRAME_DISCARD (R453): An Ethernet port receives a frame that is not an accepted PTP message, or has a bad checksum, and discards it with a count in ETH_DROP. -/
  | ethFrameDiscard (e : Fin 2)
  /-- ARM_WIN_LAPSE (R378): ARM_WIN µs after a tack fire with no frame accepted, the fire lapses without report and the context is no longer armed. -/
  | armWinLapse (k : Fin 8)
  /-- PWM_SWITCH_OFF (R547): A sink in PWM mode switches off d FIRE cycles after its switch-on instant, possibly in the next period. -/
  | pwmSwitchOff (k : Fin 8)
  /-- RATE_REQ_UNANSWERED (R324): A lane whose RATE_REQ is not answered by RATE_ACK, or that never sees a far-end TS at the rate it trains at, parks with reason RATE_UNSUPPORTED. -/
  | rateReqUnanswered (p : Fin 16) (l : Fin 2)
  /-- POWER_ON_RESET (R567): A rise of VDD_THM, VDDIO_18 or VDD_CORE through its power-on threshold resets the whole chip, the thimble included. -/
  | powerOnReset
  /-- BROWN_OUT (R567): VDD_CORE, VDD_SRAM or VDDIO_18 below its brown-out threshold for 1 µs causes a chip reset. -/
  | brownOut
  /-- PIN_RESET (R567): SYS_RST_N held low for at least 10 µs causes a chip reset. -/
  | pinReset
  /-- DEBUG_RESET (R567): The reset instruction at debug level 2 causes a chip reset. -/
  | debugReset
  /-- SYS_PLL_LOCK (R446): The system PLL locks; CT starts counting and the housekeeping round and SRAM initialisation begin. -/
  | sysPllLock
  /-- SYS_PLL_LOSS (R35): Loss of lock of the system PLL sets SYS_LOST and resets the chip. -/
  | sysPllLoss
  /-- DRAM_PLL_LOSS (R586): The DRAM PLL loses lock: PLL cause set, DRAM_LOST set, DRC freezes with cause CLOCK, relock starts. -/
  | dramPllLoss
  /-- SD_PLL_LOSS (R586): The SD PLL loses lock: every head lane and Ethernet port goes down and relock starts. -/
  | sdPllLoss
  /-- PCIE_PLL_LOSS (R586): The PCIe PLL loses lock: a host-interface reset reported as link down, and relock starts. -/
  | pciePllLoss
  /-- SRAM_INIT_DONE (R574): SRAM initialisation ends and the host window becomes accessible. -/
  | sramInitDone
  /-- HOST_IMAGE_VERIFY_DONE (R571): Verification of a host-pushed image ends with pass or rejection back to WAIT_HOST. -/
  | hostImageVerifyDone
  /-- SUPPLY_RECOVERED (R584): Every rail back in its window for two rounds clears the SUPPLY cause. -/
  | supplyRecovered
  /-- THM_RESTORE (R585): Oscillator and VDD_THM good for 10 ms: the thimble restarts with the held grant and epoch. -/
  | thmRestore
  /-- BME_SET (R65): Setting Bus Master Enable sends pending MSI-X messages of unmasked vectors. -/
  | bmeSet
  /-- DMA_ERR_LATCH_CLEAR (R82): Writing 1 to BOB_DMA_ERR_INFO.VALID clears the first-error latch and address. -/
  | dmaErrLatchClear
  /-- DMA_ERR_MORE_READ (R82): Reading BOB_DMA_ERR_MORE returns and clears the count of later halts. -/
  | dmaErrMoreRead
  /-- BOB_RESET_REPORT_READ (R86): Reading BOB_RESET_REPORT returns and clears the counts of aborted items and held replies. -/
  | bobResetReportRead
  /-- FREEZE_LATCH_CLEAR (R532): Writing 1 to DRC_FREEZE_INFO.VALID while not frozen clears the freeze latch. -/
  | freezeLatchClear
  /-- EVENT_DELIVER (R38): CT reaches stamp plus 800 and the event is routed and ordered into staging of its bobbin. -/
  | eventDeliver
  /-- TABLE_COPY_DONE (R159): A table copy ends; the table is in force and recomputation of affected lines starts. -/
  | tableCopyDone
  /-- UNPICK_LINE_SEND (R177): A recomputed line not yet guarded is handed to HLK as unpick frames. -/
  | unpickLineSend
  /-- PANEL_HEM (R183): Every line of the active panel has ended; the report is written and the queued panel activates. -/
  | panelHem
  /-- PDP_STAT_READ (R188): A host read of PDP_STAT captures a snapshot of the cursors. -/
  | pdpStatRead
  /-- FIR_UPDATE (R229): Every 1 µs FIR samples inputs, checks reversal, makes reactive commits, bar decisions and predictive commits. -/
  | firUpdate
  /-- FIR_STAT_READ (R255): A host read of FIR_STAT captures position, HWM and velocity. -/
  | firStatRead
  /-- MAP_COPY_DONE (R265): The whole-map copy ends and its commit follows. -/
  | mapCopyDone
  /-- MAP_READ_DONE (R266): The map read copy ends and the command replies. -/
  | mapReadDone
  /-- COMMIT_WRITE_END (R262): A commit's write ends at tc; the version increments and affected ports recompute. -/
  | commitWriteEnd
  /-- SWATCH_ANALYSIS_DONE (R291): The detector finishes a swatch and writes records and proposals. -/
  | swatchAnalysisDone
  /-- SWATCH_TIMEOUT (R293): No bound frame within 1 s after DELAY ends the swatch with TIMEOUT. -/
  | swatchTimeout
  /-- PIPELINE_LINE (R380): The pipeline takes up an eligible line in its turn and writes its outputs. -/
  | pipelineLine
  /-- TIM_CT_LO_READ (R447): A host read of TIM_CT_LO captures CT and all time bases. -/
  | timCtLoRead
  /-- TAKEOVER_DONE (R491): The new active completes takeover: replies posted and outstanding tags resumed or ended. -/
  | takeoverDone
  /-- MIRROR_ACK_TIMEOUT (R481): No acknowledgement within 2 µs drops the standby out of SYNCED. -/
  | mirrorAckTimeout
  /-- PLANNED_SWAP (R495): SWAP_INTERVAL passes and the grant is handed to the synced standby or deferred. -/
  | plannedSwap
  /-- SWAP_DEFER_RETRY (R494): Every 1 s a deferred swap is tried again. -/
  | swapDeferRetry
  /-- DRC_RESET_DONE (R526): DRC.RESET ends the freeze after writing the kept queue and held reports. -/
  | drcResetDone
  /-- THROTTLE_GRACE_EXPIRY (R542): GRACE passes with the request standing and the throttle is enforced. -/
  | throttleGraceExpiry
  /-- THROTTLE_STEP_EXPIRY (R542): STEP passes while still hot and the thermal term falls further. -/
  | throttleStepExpiry
  /-- DERATE_UPDATE (R549): Every 1 ms derating factors are recomputed. -/
  | derateUpdate
  /-- CAL_RUN_START (R556): A due group starts its calibration when not in use or allowed to be interrupted. -/
  | calRunStart
  /-- CAM_BUDGET_REFILL (R382): The CAM write budget refills at CAM_RATE enough for the held pipeline to resume its next write. -/
  | camBudgetRefill
  /-- FIRMWARE_INIT_DONE (R574): Firmware initialisation on the first active sequencer ends, commands are accepted and GLB_READY.SEQ is reported. -/
  | firmwareInitDone
  deriving DecidableEq, Repr

end Sys2Proof
end

