-- ==== Sys2Proof/Config.lean ====
section
/-! DEFINITION. What one part's fuses and the outside fix, and the free values: constants without a body, so that no proof can lean
on a particular value. -/

namespace Sys2Proof

/-- A value the spec leaves open: a fresh word for every number of the model's counter `State.freeCtr` [A 1]. -/
opaque Config.freeWord : Nat → Word

/-- The fused serial number (R43, R587). -/
opaque Config.serial : BitVec 64

/-- Build fuse: true for NPF-8512-B0-X (R587). -/
opaque Config.buildX : Bool

/-- Fuses KEY_SET, LOCKED, SEC_MIN, DEBUG_KEY_SET (R571, R578, R587). -/
opaque Config.keySet : Bool
opaque Config.locked : Bool
opaque Config.secMin : BitVec 6
opaque Config.debugKeySet : Bool

/-- Fuses KEY_HASH and DEBUG_KEY_HASH: SHA-384 digests (R571, R578). -/
opaque Config.keyHash : List Byte
opaque Config.debugKeyHash : List Byte

/-- The latency constants an Ethernet port has until TIM.SET_PORT: they place the stamp at the balls (R454) [A 9]. -/
opaque Config.ethTxLat : Fin 2 → BitVec 20
opaque Config.ethRxLat : Fin 2 → BitVec 20

/-- The part's encoders: level, raw block, reference block, slot size; none is NOFIT (R205-R207). Which valid token sequence they choose is
not part of the format (R206) [A 28]. -/
opaque Config.ebcEncode : Nat → List Byte → Option (List Byte) → Nat → Option (List Byte)

/-- The sequencer's planner: p, v, a, target (as `Axis` holds them), velocity limit, AMAX, DMAX, JMAX; the segments it gives as jerk sign
(1 positive, 2 negative, else none) and ticks. The least-time plan is not worked out here; at most seven segments are taken (R415) [A 48]. -/
opaque Config.planMove : Int × Int × Int × Int → Nat × Nat × Nat × Nat → List (Nat × Nat)

end Sys2Proof
end

