-- ==== Sys2Proof/Machine/State.lean ====
section
/-! DEFINITION. Everything the part holds, as plain data, one structure per block of R18, every field at its reset value;
the reasons a step can stop; the machine right after reset. Field comments name the rule that gives the field;
`[A n]` names the entry of the assumption log that fixes a reset value the spec does not state. -/

namespace Sys2Proof.Machine

open Sys2Proof

/-- No command of this block ends in a fault: every error the spec describes is a reply, a completion code, an event or a
latch in the state (R80, R98, R583), and the block goes on. -/
inductive Fault where
  deriving DecidableEq, Repr

/-- Why a command has no meaning here. -/
inductive Refusal where
  /-- Raised only by an arm of `exec` whose command has no meaning in the model yet; safe: no claim about it can be proved. -/
  | notModelled (mnemonic : String)
  deriving DecidableEq, Repr

/-- Byte memory: address and byte, addresses strictly rising, no entry equal to 0; an address that is not listed reads as 0 [A 3]. -/
abbrev Mem := List Host.Cell

/-- How a host read ended on the link (R42, R47, R48, R510, R525, R529). -/
inductive ReadStatus where
  | success | unsupportedRequest | completerAbort | poisoned
  deriving DecidableEq, Repr

/-! ## GLB: identity, reset, clocks, straps (chapters 1 and 16) -/

/-- STATE of GLB_BOOT_STAT (R587). -/
inductive BootState where
  | booting | waitHost | done | failed
  deriving DecidableEq, Repr

/-- GLB (R34, R587) and the pins of start-up. -/
structure Glb where
  /-- SYS_RST_N as the part sees it (R565, R567); low right after power-on [A 5]. -/
  rstN : Bool := false
  sysLock : Bool := false
  dramLock : Bool := false
  sdLock : Bool := false
  pcieLock : Bool := false
  thmOscOk : Bool := false
  sysLost : Bool := false
  dramLost : Bool := false
  sdLost : Bool := false
  pcieLost : Bool := false
  thmOscLost : Bool := false
  /-- CT at which the lock bits of the DRAM, SD and PCIe PLLs last rose (R586). -/
  dramRise : Nat := 0
  sdRise : Nat := 0
  pcieRise : Nat := 0
  /-- The DRAM, SD and PCIe PLLs that lost lock and have not held it again for 1 ms (R586). -/
  dramUnheld : Bool := false
  sdUnheld : Bool := false
  pcieUnheld : Bool := false
  /-- GLB_RESET_CAUSE: bits 4..0 and COUNT. -/
  causePowerOn : Bool := true
  causePin : Bool := false
  causeSysPll : Bool := false
  causeBrownOut : Bool := false
  causeDebug : Bool := false
  resetCount : Nat := 0
  /-- GLB_STRAP, latched at the rising edge of SYS_RST_N (R569); 0 before it [A 5]. -/
  bootSrc : BitVec 2 := 0
  strapThmExt : Bool := false
  /-- GLB_BOOT_STAT: STATE, SOURCE, the latest REASON, and the images rejected (R571, R587). -/
  bootState : BootState := .booting
  bootSource : Nat := 0
  bootReason : Nat := 0
  bootAttempts : Nat := 0
  /-- The length the accepted doorbell gave, while the pushed image is verified (R573). -/
  pushed : Option Nat := none
  /-- SRAM initialisation has ended (R573, R574). -/
  sramInit : Bool := false
  fwVersion : Word := 0
  /-- Subsystem identifiers of the running image, 0 before boot (R44, R570). -/
  subVid : BitVec 16 := 0
  subId : BitVec 16 := 0
  /-- GLB_READY bits 4..0 and one bit per port. -/
  ready : BitVec 5 := 0
  readyPorts : BitVec 16 := 0
  /-- GLB_FAULT bits 7..0. -/
  fault : BitVec 8 := 1
  dbgLevel : Nat := 0
  dbgRefused : Nat := 0
  dbgLockout : Bool := false
  /-- The challenge read and not yet answered (R578). -/
  challenge : Option (List Byte) := none
  deriving DecidableEq, Repr

/-- What only GLB's firmware hand-over and the identification of panels need. -/
structure Fw where
  /-- Firmware initialisation has ended: commands are accepted (R574). -/
  accepting : Bool := false
  /-- The first grant since chip reset has been given (R576). -/
  granted : Bool := false
  /-- The number the next panel or gate run takes (R20). -/
  nextPanel : BitVec 16 := 1
  deriving DecidableEq, Repr

/-! ## BOB: host link, bobbins and DMA (chapter 2) -/

/-- Operation of a DMA descriptor (R71). -/
inductive DmaOp where
  | copy | fill | compare | ebcEncode | ebcDecode
  deriving DecidableEq, Repr

/-- A descriptor that its channel has started (R70-R75). -/
structure Desc where
  op : DmaOp := .copy
  srcSpace : Nat := 0
  dstSpace : Nat := 0
  irq : Bool := false
  burst : Nat := 0
  periph : Nat := 0
  length : Nat := 0
  src : Nat := 0
  dst : Nat := 0
  operand : Word := 0
  /-- Bytes moved so far, or blocks done of an EBC operation. -/
  moved : Nat := 0
  /-- Completion code and RESULT once every byte is accepted and the status is still to be written (R74). -/
  fin : Option (Nat × Nat) := none
  deriving DecidableEq, Repr

/-- What EBC engine 2 has made of a block: the output, with the raw block it stands for, or the completion code of a failing one (R74, R213). -/
inductive EngOut where
  | bytes (out raw : List Byte) | failed (code : Nat)
  deriving DecidableEq, Repr

/-- The block EBC engine 2 holds: its channel and number, the source block, the reference block, the outcome once it has finished (R213). -/
structure EngBlk where
  chan : Fin 16 := 0
  index : Nat := 0
  src : List Byte := []
  ref : Option (List Byte) := none
  out : Option EngOut := none
  deriving DecidableEq, Repr

/-- One bobbin (R57-R64). -/
structure Bobbin where
  /-- Staged: +0x00 to +0x0C as last written. -/
  baseLo : Word := 0
  baseHi : Word := 0
  wbLo : Word := 0
  wbHi : Word := 0
  /-- In force since the accepting write of BOB_CFG (R59). -/
  base : Nat := 0
  wb : Nat := 0
  space : Nat := 0
  wbEn : Bool := false
  log2n : Nat := 4
  /-- BOB_CFG as written. -/
  en : Bool := false
  spaceW : Nat := 0
  wbEnW : Bool := false
  log2nW : Nat := 4
  vector : Nat := 0
  irqEn : Bool := false
  modCount : Nat := 0
  modTime : Nat := 0
  head : Nat := 0
  tail : Nat := 0
  halted : Bool := false
  dbBad : Bool := false
  cfgRej : Bool := false
  errKind : Nat := 0
  /-- Signalled entries not yet reported and the CT at which the oldest completed (R64). -/
  pend : Nat := 0
  pendAt : Nat := 0
  /-- The part's own index has changed since it was last written back (R63). -/
  wbDue : Bool := false
  /-- DMA channels: the descriptor in progress (R70). -/
  desc : Option Desc := none
  /-- A message that waits for the write-back of the index it reports (R63). -/
  msgDue : Bool := false
  /-- DMA channels: the latch of the housekeeping round end (R77). -/
  roundLatch : Bool := false
  /-- DMA channels: the raw block of the descriptor that engine 2 wrote last, the reference of the next (R202). -/
  ebcRef : List Byte := []
  deriving DecidableEq, Repr

/-- One entry of the MSI-X table: address, data and the vector mask (R57, R65). -/
structure MsixEntry where
  addrLo : Word := 0
  addrHi : Word := 0
  data : Word := 0
  /-- Vector control; bit 0 masks the vector, set after a reset as PCI Express has it [A 6]. -/
  ctrl : Word := 1
  deriving DecidableEq, Repr

/-- Configuration space beside the registers `Bob` holds itself (R43, R44, R46, R49): what the host has set. Reset values the manual does not
give are those PCI Express gives its registers [A 82]. -/
structure PciCfg where
  /-- Base addresses of BAR0/1, BAR2/3 and BAR4/5 (R46). -/
  bars : Vector Nat 3 := Vector.replicate 3 0
  /-- Device Control: maximum payload and read request size in bytes, Relaxed Ordering Enable (R43, R52). -/
  maxPayload : Nat := 128
  maxRead : Nat := 512
  relaxedEn : Bool := true
  /-- Completion timeout in us, and its disable (R43). -/
  timeoutUs : Nat := 10000
  timeoutOff : Bool := false
  aspmL1 : Bool := false
  /-- Advanced Error Reporting: uncorrectable and correctable status, BAR and offset of the first logged write (R43, R49). -/
  aerUncor : Word := 0
  aerCor : Word := 0
  aerLog : Option (Nat × Nat) := none
  deriving DecidableEq, Repr

/-- BOB (R57-R88) and the PCI Express endpoint as far as this manual describes it. -/
structure Bob where
  rings : Vector Bobbin 32 := Vector.ofFn fun i : Fin 32 => { vector := i.val }
  errVector : Nat := 32
  errIrqEn : Bool := false
  /-- BOB_DMA_ERR_INFO, _ADDR and _MORE (R82). -/
  errValid : Bool := false
  errDir : Bool := false
  errSpace : Nat := 0
  errRing : Bool := false
  errBobbin : Nat := 0
  errKind : Nat := 0
  errAddr : Nat := 0
  errMore : Nat := 0
  /-- BOB_RESET_REPORT (R86). -/
  dmaAborted : Nat := 0
  repliesHeld : Nat := 0
  msix : Vector MsixEntry 64 := Vector.replicate 64 {}
  pba : Vector Bool 64 := Vector.replicate 64 false
  fmask : Bool := false
  /-- Bus Master Enable and D3hot (R87). -/
  bme : Bool := false
  d3hot : Bool := false
  /-- The link has trained and is usable; it has trained at least once since chip reset (R45, R580). -/
  linkUp : Bool := false
  trained : Bool := false
  /-- Link speed code 1 (2.5 GT/s) to 5 (32 GT/s) and width in lanes (R43). -/
  speed : Nat := 0
  width : Nat := 0
  /-- PCIE_PERST_N is high (R84, R580); low right after power-on [A 5]. -/
  perstN : Bool := false
  cfg : PciCfg := {}
  /-- The DMA channel that had the latest turn (R70); channel 0 has the first [A 109]. -/
  dmaTurn : Fin 16 := 15
  /-- The block in EBC engine 2 (R213). -/
  eng : Option EngBlk := none
  deriving DecidableEq, Repr

/-! ## CMD and EVT: command protocol and events (chapter 3) -/

/-- A fetched command whose final reply is not produced yet (R100). -/
structure OutCmd where
  op : BitVec 16 := 0
  pkt : Cmd := {}
  started : Bool := false
  /-- Set when it starts: the operation is asynchronous. -/
  async : Bool := false
  deriving DecidableEq, Repr

/-- A SYS.CANCEL whose target ends later, and whose own reply follows that end (R96, R108). -/
structure CancelWait where
  pair : Fin 4 := 0
  tag : BitVec 16 := 0
  target : Fin 4 := 0
  targetTag : BitVec 16 := 0
  deriving DecidableEq, Repr

/-- A reply waiting to be written (R97). -/
structure Reply where
  tag : BitVec 16 := 0
  op : BitVec 16 := 0
  status : Nat := 0
  detail : Nat := 0
  interim : Bool := false
  results : List Word := []
  ctDone : Nat := 0
  deriving DecidableEq, Repr

/-- How a command has ended while no sequencer ran to produce its reply (R108, R492). -/
structure Final where
  pair : Fin 4 := 0
  tag : BitVec 16 := 0
  status : Nat := 0
  detail : Nat := 0
  results : List Word := []
  deriving DecidableEq, Repr

/-- One pair of command and reply bobbins (R100-R102, R116). -/
structure Pair where
  /-- Outstanding commands in fetch order. -/
  outs : List OutCmd := []
  stopped : Bool := false
  /-- Produced replies not yet written, oldest first (R67). -/
  staged : List Reply := []
  /-- A host-interface reset has come and the reply bobbin has not been enabled since (R85, R86). -/
  afterReset : Bool := false
  /-- Staged replies, the oldest ones, that REPLIES_HELD has counted (R86). -/
  counted : Nat := 0
  /-- A reply has found no room: no new command until every staged reply is written (R67). -/
  full : Bool := false
  deriving DecidableEq, Repr

/-- CMD (R116). -/
structure CmdBlk where
  cmdVer : BitVec 16 := 0
  evtVer : BitVec 16 := 0x0100
  pairs : Vector Pair 4 := Vector.replicate 4 {}
  cancels : List CancelWait := []
  /-- Commands that have ended and wait for a sequencer to reply (R492). -/
  ended : List Final := []
  deriving DecidableEq, Repr

/-- An event on its way to its record (R36, R117). -/
structure Ev where
  num : Nat := 0
  inst : Nat := 0
  code : Nat := 0
  stamp : Nat := 0
  d0 : Word := 0
  d1 : Word := 0
  d2 : Word := 0
  d3 : Word := 0
  late : Bool := false
  /-- The event bobbin it goes to whatever its route says (R120). -/
  dest : Option (Fin 4) := none
  deriving DecidableEq, Repr

/-- One event bobbin's side of EVT (R118, R121-R123). -/
structure EvBob where
  staging : List Ev := []
  seq : BitVec 16 := 0
  lost : Nat := 0
  /-- Losses not yet reported, with the stamps of the first and last of them (R122). -/
  pendLost : Nat := 0
  firstLost : Nat := 0
  lastLost : Nat := 0
  deriving DecidableEq, Repr

/-- One entry of EVT_ROUTE (R119). -/
structure Route where
  bobbin : Fin 4 := 0
  en : Bool := true
  deriving DecidableEq, Repr

/-- EVT (R36-R40, R117-R123). -/
structure Evt where
  routes : Vector Route 256 := Vector.ofFn fun i : Fin 256 => { en := i.val != 231 }
  /-- Events on the event network (R37). -/
  net : List Ev := []
  /-- Events held in the reorder window (R38). -/
  win : List Ev := []
  bobs : Vector EvBob 4 := Vector.replicate 4 {}
  /-- Source numbers whose present stall has been reported (R39). -/
  stalled : List Nat := []
  /-- Events whose rules allow one per millisecond: number, instance, CT of the last, count held back since (R428, R509, R525, R528). -/
  limits : List (Nat × Nat × Nat × Nat) := []
  deriving DecidableEq, Repr

/-! ## PDP: panels, tables, cursors (chapter 4) -/

/-- One plane entry of an open panel, with its selvedge as it stands now (R134, R167). -/
structure Plane where
  format : Nat := 0
  levelsM1 : Nat := 1
  left : Nat := 0
  right : Nat := 1
  taperLen : Nat := 0
  taper : List Byte := []
  ovf : Nat := 0
  ovfBlocks : Nat := 0
  deriving DecidableEq, Repr

/-- One row-lane map entry (R141). -/
structure MapEntry where
  rowlane : Fin 512 := 0
  redundant : Bool := false
  down : Bool := false
  plane : Nat := 0
  step : Nat := 1
  x0 : Int := 0
  first : Nat := 0
  count : Nat := 1
  deriving DecidableEq, Repr

/-- One seam table entry (R144). -/
structure Seam where
  plane : Nat := 0
  left : Fin 16 := 0
  right : Fin 16 := 0
  slot : Fin 4 := 0
  start : Nat := 0
  w : Nat := 8
  deriving DecidableEq, Repr

/-- A port's record of a panel (R185). -/
structure PanelPort where
  takes : Bool := false
  wentDown : Bool := false
  fired : Nat := 0
  skipped : Nat := 0
  unfired : Nat := 0
  /-- The lines `fired` counts, as ranges [lo, hi) of line numbers, apart and rising. -/
  hits : List (Nat × Nat) := []
  unpicked : Nat := 0
  stale : Nat := 0
  /-- Lowest slack seen; 255 until a slack has been seen [A 24]. -/
  minSlack : Nat := 255
  deriving DecidableEq, Repr

/-- An open panel (R132-R146, R162, R184, R185, R220). -/
structure Panel where
  num : BitVec 16 := 0
  userId : Word := 0
  lines : Nat := 1
  width : Nat := 1
  nplanes : Nat := 1
  overspeed : Nat := 0
  degraded : Bool := false
  noCal : Bool := false
  gap : Nat := 0
  ready : Nat := 0
  bandTable : Nat := 0
  planes : List Plane := []
  map : List MapEntry := []
  seams : List Seam := []
  report : Nat := 0
  /-- Line 0 of the panel in the lines that run on across hems (R172), and the origin of R220. -/
  base : Nat := 0
  origin : Int := 0
  ports : Vector PanelPort 16 := Vector.replicate 16 {}
  decodeErrors : Nat := 0
  fired : Nat := 0
  skipped : Nat := 0
  /-- Lines unfired on at least one port, and lines that `fired` counts, as ranges [lo, hi) of line numbers, apart and rising. -/
  unf : List (Nat × Nat) := []
  whole : List (Nat × Nat) := []
  endKind : Option Nat := none
  genFirst : Option Nat := none
  /-- Bands and planes, and blocks of them, whose fault has been reported and counted; the band last reported starved (R137, R138, R140,
  R613). -/
  bandsSeen : List (Nat × Nat) := []
  blocksSeen : List (Nat × Nat × Nat) := []
  starvedBand : Option Nat := none
  /-- Firing has stopped: undecided lines become UNFIRED as the feed crosses them, with this end kind (R239, R244). -/
  stopKind : Option Nat := none
  /-- HOLD has stopped firing in it; an interlock or a feed fault has (R255). -/
  hold : Bool := false
  stopped : Bool := false
  /-- Ports on which a reactive commit has been reported (R231), and lines of which a head has missed a row (R247). -/
  late : List (Fin 16) := []
  missed : List (Fin 16 × Nat) := []
  deriving DecidableEq, Repr

/-- A line computed for one port and not ended there (R175-R177). -/
structure PLine where
  abs : Nat := 0
  gen : Nat := 0
  /-- Row number and packed line (R155). -/
  rows : List (Nat × List Byte) := []
  sent : Bool := false
  /-- Queued for unpick. -/
  unpick : Bool := false
  /-- The generation the head holds while an unpick line of generation `gen` waits at HLK (R177). -/
  old : Option Nat := none
  deriving DecidableEq, Repr

/-- A change that affected a port and whose superseded lines have not all ended (R177). -/
structure Change where
  gen : Nat := 0
  stale : Nat := 0
  first : Nat := 0
  last : Nat := 0
  deriving DecidableEq, Repr

/-- PDP's side of a port (R172, R177, R180, R187). -/
structure PdpPort where
  s : Nat := 0
  f : Nat := 0
  /-- One past the highest line ever handed over since the cursors started (R164). -/
  sentTop : Nat := 0
  /-- The port is down (R187). -/
  down : Bool := false
  lines : List PLine := []
  /-- Lines at or beyond `f` that have ended, as ranges [lo, hi). -/
  ended : List (Nat × Nat) := []
  /-- Generation of the latest change that affected the port. -/
  changed : Nat := 0
  changes : List Change := []
  staleCnt : Nat := 0
  deriving DecidableEq, Repr

/-- A band of one plane in the look-around store or in decode staging (R148, R178). -/
structure BandStore where
  panel : BitVec 16 := 0
  band : Nat := 0
  plane : Nat := 0
  /-- Every block is zero ink. -/
  zero : Bool := false
  /-- The band's overflow bitmap, and whether its entries are inconsistent (R137). -/
  bitmap : List Byte := []
  inconsistent : Bool := false
  slot : Nat := 0
  slotKind : Nat := 0
  ovfFirst : Nat := 0
  xref : Bool := false
  /-- Blocks still to be read from DRAM; blocks that wait in EBC decode staging for a decoder (R148, R158). -/
  want : List Nat := []
  coded : List (Nat × List Byte) := []
  /-- Blocks in place: number and raw bytes, none for zero ink (R137, R138, R613). -/
  blocks : List (Nat × Option (List Byte)) := []
  deriving DecidableEq, Repr

/-- A table of PDP (R158, R169). -/
inductive Table where
  | curves | global (plane : Nat) | screen (plane : Nat) | seamMask (slot : Nat)
  deriving DecidableEq, Repr

/-- A table command that copies or waits for its hem (R168, R169). -/
structure TableJob where
  pair : Fin 4 := 0
  tag : BitVec 16 := 0
  op : Nat := 0
  words : List Word := []
  mode : Nat := 0
  copying : Bool := false
  /-- The command has been abandoned: no reply follows (R109). -/
  dead : Bool := false
  deriving DecidableEq, Repr

/-- What is kept of an ended panel (R166). -/
structure EndedPanel where
  num : BitVec 16 := 0
  kind : Nat := 0
  fired : Nat := 0
  skipped : Nat := 0
  unfired : Nat := 0
  deriving DecidableEq, Repr

/-- Threshold array settings of a plane (R152); 1 by 1 at reset [A 24]. -/
structure ScreenCfg where
  w : Nat := 1
  h : Nat := 1
  sx : Nat := 0
  sy : Nat := 0
  deriving DecidableEq, Repr

/-- PDP (R172-R189). Global curves, seam masks and level maps are internal memories (R158), zero at reset [A 24]. -/
structure Pdp where
  active : Option Panel := none
  queued : Option Panel := none
  c : Nat := 0
  /-- Generation; the register shows it modulo 65,536. -/
  gen : Nat := 0
  ports : Vector PdpPort 16 := Vector.replicate 16 {}
  store : List BandStore := []
  /-- Bands fetched again for recomputation (R178). -/
  staging : List BandStore := []
  gcurve : Vector (List Byte) 8 := Vector.replicate 8 []
  screen : Vector ScreenCfg 8 := Vector.replicate 8 {}
  seamMask : Vector (List Byte) 4 := Vector.replicate 4 []
  levelMap : Vector (Vector (BitVec 64) 8) 16 := Vector.replicate 16 (Vector.replicate 8 0)
  job : Option TableJob := none
  invalid : List Table := []
  starved : Bool := false
  /-- Reports held while the DRAM is frozen: panel, address and bytes (R183). -/
  held : List (BitVec 16 × Nat × List Byte) := []
  /-- Panels that have ended, newest first, at most 16 (R166, R183). -/
  past : List EndedPanel := []
  /-- JOB.WAIT_HEM and JOB.ABORT that wait: pair, tag, panel; an abort has the first unfired line as result. -/
  waits : List (Fin 4 × BitVec 16 × BitVec 16 × Option Nat) := []
  /-- The snapshot of R188. -/
  snapC : Word := 0
  snapReleased : Word := 0
  snapS : Vector Word 16 := Vector.replicate 16 0
  snapF : Vector Word 16 := Vector.replicate 16 0
  deriving DecidableEq, Repr

/-- One EBC engine (R214). -/
structure EbcEngine where
  busy : Bool := false
  level : Nat := 0
  blocks : Nat := 0
  short : Nat := 0
  overrun : Nat := 0
  verify : Nat := 0
  noFit : Nat := 0
  deriving DecidableEq, Repr

/-! ## FIR: feed, prediction, decisions, commits (chapter 6) -/

/-- A line decided FIRE that has not ended on every port that takes part (R235, R247). -/
structure Dec where
  abs : Nat := 0
  /-- Ports on which it has not ended. -/
  left : List (Fin 16) := []
  anyFired : Bool := false
  anyUnfired : Bool := false
  /-- Unfired on a port that was up. -/
  upUnfired : Bool := false
  deriving DecidableEq, Repr

/-- A committed row of a line on a port, with its instant (R230). -/
structure Commit where
  abs : Nat := 0
  row : Fin 32 := 0
  at' : Nat := 0
  deriving DecidableEq, Repr

/-- The values of a stitch frame (R233, R347); `rows` lists the rows present with their instants. -/
structure Stitch where
  panel : BitVec 16 := 0
  line : Nat := 0
  flush : Bool := false
  epoch : Word := 0
  rows : List (Fin 32 × Nat) := []
  deriving DecidableEq, Repr

/-- The own axis as MOT gives it at a phase-link frame (R226, R437): address units since FIR.SET_FEED with 32 fraction bits, velocity and
acceleration with 64 fraction bits, jerk. -/
structure AxisSample where
  t : Nat := 0
  p : Int := 0
  v : Int := 0
  a : Int := 0
  j : Int := 0
  deriving DecidableEq, Repr

/-- FIR (R215-R255). Positions have 32 fraction bits; velocity and acceleration are per FIRE cycle with 96 fraction bits [A 25]. -/
structure Fir where
  /-- FIR_FEED_CFG. -/
  src : Nat := 0
  axis : Nat := 0
  dir : Bool := false
  enc : Bool := false
  revWin : Nat := 4
  ashift : Nat := 3
  cshift : Nat := 4
  tb : Fin 4 := 0
  /-- SCALE and ENC_SCALE with 32 fraction bits; 0 at reset [A 26]. -/
  scale : Nat := 0
  encScale : Nat := 0
  /-- FIR_EST_CFG and LEAD. -/
  base : Nat := 8
  extrap : Nat := 20
  stop : Nat := 10
  lead : Nat := 1200
  /-- VRATE with 8 fraction bits; 0 at reset [A 26]. -/
  vrate : Nat := 0
  /-- A and HWM (R216, R221); source counts and their highest value (R222). -/
  a : Int := 0
  hwm : Int := 0
  cnt : Int := 0
  cntMax : Int := 0
  revPending : Bool := false
  revAt : Nat := 0
  /-- Stamped edges of an external encoder, newest first, as far back as the baseline needs (R217, R225). -/
  edges : List (Nat × Int) := []
  /-- HWM as it rose over the last millisecond, newest first (R223, R231). -/
  rise : List (Nat × Int) := []
  vel : Int := 0
  acc : Int := 0
  /-- Last vm, and twice its midpoint. -/
  vmPrev : Option (Int × Nat) := none
  sample : Option AxisSample := none
  /-- Own axis: commanded address units since FIR.SET_FEED with 32 fraction bits, encoder position in lines, the newest edge with the
  commanded address units at its stamp, correction c in lines (R226). -/
  cmdPos : Int := 0
  encPos : Int := 0
  encEdge : Option (Nat × Int) := none
  corr : Int := 0
  /-- Elapsed units of the time base when the virtual feed was set (R226). -/
  vBase : Nat := 0
  feedFault : Bool := false
  feedErr : Nat := 0
  /-- TIME_TRIM and ROW_OFF (R223), zero at reset [A 26]. -/
  trim : Vector Int 16 := Vector.replicate 16 0
  rowOff : Vector Nat 512 := Vector.replicate 512 0
  skipFloor : Nat := 205
  capMargin : Nat := 248
  /-- Filtered JET_EN (R245). -/
  jetEn : Bool := false
  /-- Next line without a bar decision; lines decided FIRE and not ended. -/
  next : Nat := 0
  decs : List Dec := []
  commits : Vector (List Commit) 16 := Vector.replicate 16 []
  /-- Stitch frames handed to HLK and not yet sent (R232). -/
  stitches : Vector (List Stitch) 16 := Vector.replicate 16 []
  /-- credit, t_prev and t_fired (R237); none is minus infinity. -/
  credit : Int := 0
  tPrev : Option Nat := none
  tFired : Option Nat := none
  /-- Over-speed episode: lines skipped and lines fired in a row (R238). -/
  overSpeed : Bool := false
  overSkipped : Nat := 0
  overFired : Nat := 0
  /-- CAP: ceiling in lines per second that f_lim gives, the T_lim decisions use, and the ceiling lowered for lag (R240, R242). -/
  ceiling : Option Nat := none
  tHeld : Option Nat := none
  lagCeil : Option Nat := none
  untrusted : Bool := false
  /-- Ports whose slack has reached 8, and whether they are reported lagging (R241); interlocks reported (R244). -/
  lagging : Vector (Option Bool) 16 := Vector.replicate 16 none
  portLock : Vector (Option Nat) 16 := Vector.replicate 16 none
  jetLock : Bool := false
  skippedCnt : Nat := 0
  reactiveCnt : Nat := 0
  /-- The latest update: its CT, the HWM it gave PDP and HLK (R248), A and the velocity of FIR_VEL (R255). -/
  updAt : Nat := 0
  posU : Int := 0
  updA : Int := 0
  updVel : Int := 0
  /-- Lines fired lately: panel, line and instants of their rows (R362). -/
  recent : Vector (List (BitVec 16 × Nat × List Nat)) 16 := Vector.replicate 16 []
  /-- The snapshot of R255: P and HWM with 16 fraction bits, v with 8. -/
  snapP : Int := 0
  snapHwm : Int := 0
  snapV : Int := 0
  deriving DecidableEq, Repr

/-! ## NHD: nozzle map, gates, swatches (chapter 7) -/

/-- A darning kernel (R272). -/
structure Kernel where
  w1 : Nat := 96
  w2 : Nat := 32
  w3 : Nat := 0
  wr : Nat := 256
  weakGive : Nat := 64
  devMove : Nat := 8
  deriving DecidableEq, Repr

/-- A staged item (R261). -/
inductive Staged where
  | entry (n : Nat) (v : BitVec 16)
  | range (first count : Nat) (v : BitVec 16)
  deriving DecidableEq, Repr

/-- Source of a commit (R297). -/
inductive CommitSource where
  | host | gate | swatch | port | load
  deriving DecidableEq, Repr

/-- A commit whose write is under way or waits for the hem (R262, R263). -/
structure CommitJob where
  source : CommitSource := .host
  mode : Nat := 0
  items : List Staged := []
  kernels : List (Nat × Kernel) := []
  /-- Port entering (true) or leaving the overlay (R260). -/
  overlay : Option (Fin 16 × Bool) := none
  /-- The whole-map image, copied by NHD.LOAD_MAP (R265). -/
  image : Option (List Byte) := none
  cmd : Option (Fin 4 × BitVec 16) := none
  /-- The gate run or swatch whose reply the commit completes. -/
  results : Option (List Word) := none
  deriving DecidableEq, Repr

/-- A measured nozzle of a gate run (R280, R281). -/
structure GateRec where
  nozzle : Nat := 0
  /-- CLASS; 7 NOT_TESTED. -/
  cls : Nat := 7
  changed : Bool := false
  hits : Nat := 0
  tof : Nat := 0
  depth : Nat := 0
  deriving DecidableEq, Repr

/-- A gate run (R278-R284). Times in CT units. -/
structure GateRun where
  pair : Fin 4 := 0
  tag : BitVec 16 := 0
  port : Fin 16 := 0
  panel : BitVec 16 := 0
  code : Nat := 0
  drops : Nat := 1
  hitMin : Nat := 1
  nozzles : List Nat := []
  period : Nat := 0
  tofLo : Nat := 0
  tofHi : Nat := 0
  tofMin : Nat := 0
  tofMax : Nat := 0
  ampWeak : Nat := 0
  buf : Nat := 0
  /-- Drops fired so far in the run; fire instants of the drops of the nozzle in progress; CT before which the next drop does not fire. -/
  fired : Nat := 0
  shots : List Nat := []
  nextAt : Nat := 0
  /-- Drop index within the nozzle, flight time and depth of each hit of the nozzle in progress. -/
  hits : List (Nat × Nat × Nat) := []
  /-- Calibration is due: pause at the nozzle's end; CT at which the run paused (R284). -/
  pauseReq : Bool := false
  pausedAt : Option Nat := none
  /-- A condition was lost and no further drop fires (true), or SYS.CANCEL stops the run at the next nozzle boundary (false). -/
  stop : Option Bool := none
  /-- The command has been abandoned: no reply follows (R109). -/
  dead : Bool := false
  deriving DecidableEq, Repr

/-- One gate (R277, R296); settings zero at reset [A 27]. -/
structure Gate where
  sink : Nat := 0
  thresh : Nat := 0
  delay : Nat := 0
  baseline : Nat := 0
  pos : Nat := 0
  run : Option GateRun := none
  deriving DecidableEq, Repr

/-- A swatch definition (R285, R287, R289, R290). -/
structure SwatchDef where
  stride : Nat := 4
  dash : Nat := 2
  pitch : Nat := 4
  code : Nat := 1
  context : Fin 8 := 0
  /-- Microseconds. -/
  delay : Nat := 0
  u0 : Int := 0
  du : Int := 0
  v0 : Nat := 0
  dv : Nat := 0
  missFrac : Nat := 64
  weakFrac : Nat := 179
  devLimit : Nat := 6
  trimHyst : Nat := 2
  bg : Nat := 0
  pol : Bool := false
  confirmBad : Nat := 2
  confirmGood : Nat := 3
  /-- Row-lane and LAYER. -/
  rows : List (Fin 512 × Nat) := []
  deriving DecidableEq, Repr

/-- A swatch placed in a panel (R292, R293). -/
structure SwatchRun where
  pair : Fin 4 := 0
  tag : BitVec 16 := 0
  panel : BitVec 16 := 0
  /-- The panel's line 0 in the lines that run on across hems, its map and width. -/
  base : Nat := 0
  map : List MapEntry := []
  width : Nat := 0
  start : Nat := 0
  buf : Nat := 0
  /-- Lines of the swatch that have ended on each listed port: port, line and whether it fired. -/
  ended : List (Fin 16 × Nat × Bool) := []
  /-- CT at which the last line ended on every listed port; EV_NHD_SWATCH_FIRED has been raised. -/
  firedAt : Option Nat := none
  /-- A line of the swatch has been computed. -/
  begun : Bool := false
  /-- The bound frame: its number, once it has started; 0 in order, 1 dropped, 2 SHORT, once it has ended. -/
  frame : Option Nat := none
  frameEnd : Option Nat := none
  /-- Rows of the VISION stream of the bound frame so far, 16-bit samples (R288, R400). -/
  image : List (List Nat) := []
  /-- The command has been abandoned: no reply follows (R109). -/
  dead : Bool := false
  deriving DecidableEq, Repr

/-- Evidence of a nozzle (R290). -/
structure Evidence where
  nozzle : Nat := 0
  cls : Nat := 0
  count : Nat := 0
  deriving DecidableEq, Repr

/-- NHD (R257-R296). The map itself lies in the SRAM (R257). -/
structure Nhd where
  version : Word := 0
  commitCt : Nat := 0
  staged : List Staged := []
  stagedKernels : List (Nat × Kernel) := []
  kernels : Vector Kernel 8 := Vector.replicate 8 {}
  autoGate : Bool := true
  autoSwatch : Bool := false
  autoMode : Nat := 0
  portOverlay : Bool := true
  overlay : BitVec 16 := 0
  /-- Commits being written, the first in progress; the one that waits for the hem. -/
  writes : List CommitJob := []
  hem : Option CommitJob := none
  /-- NHD.LOAD_MAP and NHD.READ_MAP under way: the command unless abandoned, its words. -/
  load : Option (Option (Fin 4 × BitVec 16) × List Word) := none
  read : Option (Option (Fin 4 × BitVec 16) × List Word) := none
  gates : Vector Gate 2 := Vector.replicate 2 {}
  swatch : Option SwatchDef := none
  /-- Per camera context: the parameters in force on its shadowed set (R287). -/
  swatchNow : Option SwatchDef := none
  run : Option SwatchRun := none
  evidence : List Evidence := []
  darnLost : Nat := 0
  /-- Per plane the first line and dot that lost ink and that no event has reported yet (R275). -/
  darnFirst : List (Nat × Nat × Nat) := []
  eccCorr : Nat := 0
  eccUnc : Nat := 0
  proposed : Nat := 0
  deriving DecidableEq, Repr

/-! ## HLK: Rolrath Link (chapters 8 and 9) -/

/-- State of a lane (R308, R328). -/
inductive LaneState where
  | disabled | noSignal | acquire | screen | check | ready | go | up | rateSwitch | unthreaded | sleep | loopback
  deriving DecidableEq, Repr

/-- What a frame carries, besides the header (R332, R334). -/
inductive FrameBody where
  | idle
  | hello (chosen : Nat)
  | data (panel : BitVec 16) (line : Nat) (rows : List (Nat × List Byte))
  | unpick (panel : BitVec 16) (line : Nat) (rows : List (Nat × List Byte))
  | stitch (s : Stitch)
  | ack (nextA nextB : Nat) (validA validB nakA nakB : Bool)
  | timesync (id : Nat) (t1 : Nat) (d : Nat)
  | mgmt (tid : Nat) (write : Bool) (addr len : Nat) (data : List Byte)
  deriving DecidableEq, Repr

/-- A frame waiting for transmission; an unpick frame names its line so that it can be withdrawn (R345). -/
structure QFrame where
  body : FrameBody := .idle
  replay : Bool := false
  unpickOf : Option Nat := none
  /-- What PDP labels a line with at the hand-over: its generation and the epoch in force (R182). -/
  gen : Nat := 0
  epoch : Word := 0
  deriving DecidableEq, Repr

/-- A frame kept until it is acknowledged (R338). -/
structure HeldFrame where
  seq : Nat := 0
  body : FrameBody := .idle
  replay : Bool := false
  /-- Its place among all the frames the port has held, and whether it has spilled to DRAM (R339). -/
  age : Nat := 0
  spilled : Bool := false
  deriving DecidableEq, Repr

/-- A loopback test (R321). -/
structure LoopRun where
  pair : Fin 4 := 0
  tag : BitVec 16 := 0
  kind : Nat := 0
  log2n : Nat := 12
  since : Nat := 0
  /-- The command has been abandoned: no reply follows (R109). -/
  dead : Bool := false
  deriving DecidableEq, Repr

/-- One lane (R298-R328, R335-R339, R352). -/
structure Lane where
  state : LaneState := .disabled
  rate : Nat := 0
  txSleep : Bool := false
  rxSleep : Bool := false
  preset : Nat := 0
  farPreset : Nat := 0
  farRates : Nat := 0
  farRx : Nat := 0
  /-- A TS with READY or UP has been received in this attempt (R307). -/
  farReady : Bool := false
  polInv : Bool := false
  lastPark : Nat := 0
  margin : Nat := 0
  checks : Nat := 0
  /-- Checks failed since the latest screen (R306). -/
  failed : Nat := 0
  passMask : Nat := 0
  errBlock : Nat := 0
  errTs : Nat := 0
  attempts : Nat := 0
  /-- The latest wait is 0.1 s doubled this many times; none before the first (R315). -/
  step : Option Nat := none
  losses : Nat := 0
  /-- CT of: signal detected, the preset's start, the start of a screened preset, of a check or of a rate change, READY, the next attempt. -/
  acqAt : Nat := 0
  stepAt : Nat := 0
  stageAt : Nat := 0
  readyAt : Nat := 0
  nextAt : Nat := 0
  /-- TS sent, modulo 128 in COUNT: how many up to the latest record, and since when the training stream runs, in 1/100 CT (R300, R301)
  [A 98]. -/
  tsCount : Nat := 0
  tsSince : Option Nat := none
  /-- The preset being screened, and the passing presets with their scores, highest rank first, not yet checked (R305, R306). -/
  screening : Nat := 0
  ranked : List (Nat × Nat) := []
  /-- CODE of EV_HLK_LANE_UP at the next entry into service. -/
  why : Nat := 0
  /-- RATE_REQ sent and not answered. -/
  rateReq : Option Nat := none
  /-- Waking: the short check of R320 runs instead of a full attempt. -/
  waking : Bool := false
  loop : Option LoopRun := none
  /-- Transmit side: next sequence number, held frames, frames to send again, queue, and when the lane is free, in 1/100 CT. -/
  txSeq : Nat := 0
  held : List HeldFrame := []
  resend : List Nat := []
  queue : List QFrame := []
  free : Nat := 0
  /-- The frame that ends at `free`: its start, whether it is a stitch frame, and the end of the stitch frame inserted last (R331). -/
  curStart : Nat := 0
  curStitch : Bool := false
  insEnd : Nat := 0
  /-- The replay buffer has no room for the next frame (R339). -/
  blocked : Bool := false
  /-- CT from which REPLAY_TIMEOUT runs, and timeouts in a row (R338, R362). -/
  ackAt : Nat := 0
  timeouts : Nat := 0
  /-- Receive side: NEXT, frames accepted and not acknowledged with the CT of the first, the NAK outstanding: NEXT and CT. -/
  rxNext : Nat := 0
  /-- A frame has been received since GO (R307). -/
  rxOn : Bool := false
  unacked : Nat := 0
  unackedAt : Nat := 0
  nakAt : Option (Nat × Nat) := none
  /-- CT of NAKs sent, NAKs received and malformed frames of the last millisecond (R362). -/
  naksTx : List Nat := []
  naksRx : List Nat := []
  malf : List Nat := []
  /-- HELLO with CHOSEN has been echoed on this lane (R341). -/
  hello : Bool := false
  /-- Time exchanges: requests under way with T1 in 1/16 CT; the last four valid delays, newest first; invalid exchanges (R352). -/
  syncs : List (Nat × Nat) := []
  delays : List Nat := []
  badSyncs : Nat := 0
  deriving DecidableEq, Repr

/-- A head's rank record as far as the part uses it (R359). -/
structure Rank where
  nrows : Nat := 1
  cw : Nat := 0
  maxRate : Nat := 1
  jetLo : Int := 0
  jetHi : Int := 0
  dropClass : Nat := 0
  ntemp : Nat := 0
  rates : Nat := 0
  levelMap : BitVec 64 := 0
  /-- NOZZLES and LAG per row. -/
  rows : List (Nat × Nat) := []
  deriving DecidableEq, Repr

/-- A transfer of head memory by a command (R356, R364). -/
structure Mgmt where
  pair : Fin 4 := 0
  tag : BitVec 16 := 0
  write : Bool := false
  addr : Nat := 0
  len : Nat := 0
  dram : Nat := 0
  done : Nat := 0
  /-- The transaction outstanding: TID, bytes, CT of the request. -/
  out : Option (Nat × Nat × Nat) := none
  /-- SYS.CANCEL has come. -/
  cancel : Bool := false
  deriving DecidableEq, Repr

/-- One head port (R310-R317, R328, R341-R366). -/
structure HlkPort where
  en : Bool := true
  laneEn : Vector Bool 2 := Vector.replicate 2 true
  raise' : Bool := false
  target : Nat := 0
  /-- The head's RATES lack what R22 requires. -/
  ratesShort : Bool := false
  lanes : Vector Lane 2 := Vector.replicate 2 {}
  /-- HELLO: version in force once complete, the chosen one, start of the exchange, next HELLO, CT of the failure. -/
  version : Nat := 0
  chosen : Nat := 0
  helloDone : Bool := false
  helloAt : Nat := 0
  helloSent : Nat := 0
  helloFail : Option Nat := none
  /-- Identification (R361): under way; done; MAKER; the rank record in force. -/
  identifying : Bool := false
  identified : Bool := false
  maker : Nat := 0
  rank : Option Rank := none
  /-- Identification is due; the reads it has out: TID, address, length; those it has still to send (R356). -/
  identDue : Bool := false
  identOut : List (Nat × Nat × Nat) := []
  identWait : List (Nat × Nat) := []
  /-- The command that waits for the identification. -/
  identCmd : Option (Fin 4 × BitVec 16) := none
  /-- Held down until a hem (R361). -/
  held : Bool := false
  /-- STATUS: latest word 0x00, TIME_OK and DRIVE_FAULT, arrival, silence, temperatures (R354, R362). -/
  stWord : Word := 0
  timeOk : Bool := false
  statusAt : Nat := 0
  silent : Bool := false
  temps : List Int := []
  missedCnt : Nat := 0
  /-- MGMT: transfers, next TID, faults, counters (R356, R362). -/
  mgmt : List Mgmt := []
  nextTid : Nat := 0
  mgmtFaults : List Nat := []
  /-- TID, OP WRITE and LEN of the last sixteen replies taken: a repeat of one is ignored (R340). -/
  mgmtPast : List (Nat × Bool × Nat) := []
  /-- The last sixteen STATUS frames taken: a repeat with REPLAY is ignored (R340). -/
  statusPast : List StatusMsg := []
  mgmtTimeouts : Nat := 0
  mgmtBad : Nat := 0
  /-- Frames held so far, and where in the port's DRAM area the next spilled frame goes (R339, R509). -/
  heldCtr : Nat := 0
  spillNext : Nat := 0
  /-- Transmit stalls since port up, frame error counters, NAK counters (R339, R366). -/
  stalls : Nat := 0
  errCrc : Nat := 0
  errSeq : Nat := 0
  errMalf : Nat := 0
  errReplay : Nat := 0
  naksSent : Nat := 0
  naksRcvd : Nat := 0
  syncId : Nat := 0
  syncAt : Nat := 0
  /-- HLK.SET_SLEEP under way: pair, tag, lane mask, directions. -/
  sleepCmds : List (Fin 4 × BitVec 16 × Nat × Nat) := []
  /-- Writes discarded for their epoch (R365, R366). -/
  staleWrites : Nat := 0
  /-- Up under R316 as last reported. -/
  up : Bool := false
  deriving DecidableEq, Repr

/-- HLK (R328, R363, R365). -/
structure Hlk where
  ports : Vector HlkPort 16 := Vector.replicate 16 {}
  /-- REPLAY_TIMEOUT and TIMESYNC_PERIOD in us, NAK_LIMIT. -/
  replayUs : Nat := 8
  nakLimit : Nat := 16
  syncUs : Nat := 8
  deriving DecidableEq, Repr

/-! ## CAM: inspection camera pipeline (chapter 10) -/

/-- A line in an input's FIFO (R379): slot, context, frame number, place in the frame, pixels as received. -/
structure FifoLine where
  slot : Nat := 0
  ctx : Fin 8 := 0
  frame : BitVec 16 := 0
  y : Nat := 0
  px : List (Nat × Nat × Nat) := []
  deriving DecidableEq, Repr

/-- One input (R368-R370, R379, R380, R406, R408). -/
structure CamIn where
  en : Bool := false
  lanes : Nat := 0
  weight : Nat := 1
  laneMap : BitVec 8 := 0
  /-- P0: width, edges, polarities, SYNC mode, H_OFF; zero at reset [A 51]. -/
  p0 : Word := 0
  ulps : Bool := false
  deskewed : Bool := false
  /-- CT of the latest unmapped packet. -/
  unmappedAt : Option Nat := none
  /-- A Frame Start has come since the enable. -/
  started : Bool := false
  fifo : List FifoLine := []
  peak : Nat := 0
  eccCorr : Nat := 0
  eccErr : Nat := 0
  crc : Nat := 0
  noFs : Nat := 0
  feMissing : Nat := 0
  timeout : Nat := 0
  longLine : Nat := 0
  shortLine : Nat := 0
  deriving DecidableEq, Repr

/-- A stream map entry (R372). -/
structure CamMap where
  en : Bool := false
  input : Fin 4 := 0
  vc : Nat := 0
  dt : Nat := 0
  ctx : Fin 8 := 0
  deriving DecidableEq, Repr

/-- Settings of an output (R396, R398, R402, R406). -/
structure OutCfg where
  en : Bool := false
  bob : Fin 4 := 0
  src : Nat := 0
  depth8 : Bool := false
  /-- CODED: from tap 0, ratio code, level. -/
  tap : Bool := false
  ratio : Nat := 1
  level : Nat := 0
  deriving DecidableEq, Repr

/-- The parameters of a context outside its shadowed set that act on a line (R375, R385-R392). Unnamed ones are zero at reset [A 51]. -/
structure CamPrm where
  /-- FRAME_TIMEOUT in ms, ARM, ARM_WIN in us. -/
  timeoutMs : Nat := 100
  arm : Nat := 0
  armWin : Nat := 0
  /-- The statistics buffers (R394). -/
  statEn : Bool := false
  statSpace : Nat := 0
  statA : Nat := 0
  statB : Nat := 0
  linear : Bool := false
  pattern : BitVec 64 := 0
  /-- BL of R, G, B, IR, W. -/
  bl : Vector Nat 5 := Vector.replicate 5 0
  dpcHi : Nat := 0
  dpcLo : Nat := 0
  kr : Nat := 0
  kg : Nat := 0
  kb : Nat := 0
  /-- M[c][R, G, B, X] for c = R, G, B. -/
  m : Vector Int 12 := #v[4096, 0, 0, 0, 0, 4096, 0, 0, 0, 0, 4096, 0]
  off : Vector Int 3 := #v[0, 0, 0]
  /-- The four tone curves, 65 knots each, one after another; none loaded is the identity. -/
  tone : List Nat := []
  defects : List (Nat × Nat) := []
  outs : Vector OutCfg 7 := Vector.replicate 7 {}
  deriving DecidableEq, Repr

/-- A shadowed set (R376, R388, R398): VISION and PREVIEW geometry, flat-field table; zero at reset [A 51]. -/
structure CamGeom where
  cx : Nat := 0
  cy : Nat := 0
  cw : Nat := 0
  ch : Nat := 0
  /-- BX, BY, SX, SY as powers of 2. -/
  bx : Nat := 0
  by' : Nat := 0
  sx : Nat := 0
  sy : Nat := 0
  px : Nat := 0
  py : Nat := 0
  pw : Nat := 0
  ph : Nat := 0
  flat : Bool := false
  space : Nat := 0
  table : Nat := 0
  gx : Nat := 0
  gy : Nat := 0
  cs : Nat := 0
  deriving DecidableEq, Repr

/-- The buffer an output holds (R68, R396). -/
structure CamBuf where
  bob : Fin 4 := 0
  /-- Index of its entry. -/
  idx : Nat := 0
  addr : Nat := 0
  cap : Nat := 0
  space : Nat := 0
  used : Nat := 0
  first : Bool := false
  deriving DecidableEq, Repr

/-- An output within a frame. -/
structure OutRun where
  buf : Option CamBuf := none
  /-- Data of the frame has been placed; the rest of the frame is discarded (R397). -/
  begun : Bool := false
  lost : Bool := false
  /-- Rows of the bin or scale box, or of the coded band, in progress. -/
  acc : List (List (Nat × Nat × Nat)) := []
  deriving DecidableEq, Repr

/-- A line the pipeline has taken up, with the parameters it met: 16-bit samples after unpack, values after black level, gains. -/
structure CamLine where
  y : Nat := 0
  prm : CamPrm := {}
  src : List (Nat × Nat × Nat) := []
  black : List Nat := []
  gains : List Nat := []
  deriving DecidableEq, Repr

/-- A block of CODED that waits for the encoder (R401, R402). -/
structure CodedBlk where
  band : Nat := 0
  block : Nat := 0
  raw : List Byte := []
  ref : Option (List Byte) := none
  ratio : Nat := 1
  level : Nat := 0
  tap : Bool := false
  bob : Fin 4 := 0
  deriving DecidableEq, Repr

/-- A frame a context has accepted and that has not ended (R371, R374, R393-R404). -/
structure CamFrame where
  num : BitVec 16 := 0
  /-- Number in Frame Start; start stamp; input; 0 raw, 1 RGB888, 2 YUV422. -/
  sensor : Nat := 0
  stamp : Nat := 0
  input : Fin 4 := 0
  kind : Nat := 0
  /-- Data type and the bits of a raw sample. -/
  rawBits : Nat := 8
  geom : CamGeom := {}
  /-- Lines received within IN_H, beyond it, taken up; the lines still needed; the next row the stages finish. -/
  rcvd : Nat := 0
  discarded : Nat := 0
  taken : Nat := 0
  endCt : Nat := 0
  lines : List CamLine := []
  nextRow : Nat := 0
  closed : Bool := false
  crcErr : Bool := false
  paramChanged : Bool := false
  flatBad : Bool := false
  /-- Histogram counts, zone sums and zone pixels, empty until a row is finished; CLIPPED. -/
  hist : List Nat := []
  zsum : List Nat := []
  zn : List Nat := []
  clipped : Nat := 0
  outs : Vector OutRun 7 := Vector.replicate 7 {}
  /-- CODED: next band, blocks that wait, the band's slots so far, the raw blocks of the band before; header written. -/
  band : Nat := 0
  todo : List CodedBlk := []
  slots : List (List Byte × Option (List Byte)) := []
  prevBand : List (List Byte) := []
  header : Bool := false
  deriving DecidableEq, Repr

/-- A commit of a shadowed set that waits for the frame boundary (R377). -/
structure CamWait where
  pair : Fin 4 := 0
  tag : BitVec 16 := 0
  isSwatch : Bool := false
  /-- The command has been abandoned: no reply follows (R109). -/
  dead : Bool := false
  deriving DecidableEq, Repr

/-- One context (R373-R378, R394, R406, R408). -/
structure CamCtx where
  en : Bool := false
  inW : Nat := 0
  inH : Nat := 0
  prm : CamPrm := {}
  staged : CamGeom := {}
  geom : CamGeom := {}
  /-- The set a commit has named, with the swatch definition it carries, and the commands that wait for it. -/
  next : Option (CamGeom × Option SwatchDef) := none
  waits : List CamWait := []
  /-- The next block goes to buffer B. -/
  statNext : Bool := false
  frame : BitVec 16 := 0
  /-- The stream has a frame open at the input, taken or not; accepted frames not ended, oldest first. -/
  open' : Bool := false
  frames : List CamFrame := []
  /-- CT of the latest line or Frame Start of the open frame. -/
  lineAt : Nat := 0
  /-- CT of the tack fires that wait for a frame (R378). -/
  fires : List Nat := []
  drops : Nat := 0
  lostOuts : Nat := 0
  beyond : Nat := 0
  shorts : Nat := 0
  deriving DecidableEq, Repr

/-- CAM (R368-R409). -/
structure Cam where
  ins : Vector CamIn 4 := Vector.replicate 4 {}
  map : Vector CamMap 16 := Vector.replicate 16 {}
  ctxs : Vector CamCtx 8 := Vector.replicate 8 {}
  /-- The input whose turn it is and the lines it has given in it (R380). -/
  turn : Fin 4 := 0
  given : Nat := 0
  /-- When the pipeline is free, in CORE clocks of half a CT unit. -/
  busyAt : Nat := 0
  /-- CAM_RATE in MB/s; the write budget in 1/400 byte, and the CT it is counted to; the hold in progress; CT units held (R382). -/
  rate : Nat := 2000
  budget : Int := 65536 * 400
  budgetAt : Nat := 0
  heldFrom : Option Nat := none
  heldCt : Nat := 0
  /-- Entries claimed from the head of bobbins 28-31 on, and whether each is complete (R396). -/
  claims : Vector (List Bool) 4 := Vector.replicate 4 []
  deriving DecidableEq, Repr

/-! ## MOT: motion axes (chapter 11) -/

/-- State of an axis (R436, R444). -/
inductive AxisState where
  | disabled | idle | position | velocity | stopping | homing | fault
  deriving DecidableEq, Repr

/-- A motion command that has not taken effect yet (R417). -/
structure MotWait where
  pair : Fin 4 := 0
  tag : BitVec 16 := 0
  isMove : Bool := false
  /-- Target in address units with 32 fraction bits, or target velocity. -/
  goal : Int := 0
  tack : Option (Fin 32) := none
  /-- CT from which it may take effect; CT of its tack's fire. -/
  since : Nat := 0
  fired : Option Nat := none
  deriving DecidableEq, Repr

/-- A reply that comes when the axis is at rest (R418, R419, R433, R435). -/
structure MotEnd where
  pair : Fin 4 := 0
  tag : BitVec 16 := 0
  status : Nat := 0
  detail : Nat := 0
  /-- The reply carries the position at rest. -/
  withPos : Bool := false
  deriving DecidableEq, Repr

/-- A homing run (R434, R435). -/
structure Homing where
  pair : Fin 4 := 0
  tag : BitVec 16 := 0
  src : Nat := 0
  neg : Bool := false
  vel : Nat := 0
  backoff : Nat := 0
  offset : Int := 0
  max : Nat := 0
  /-- Step of R434: 2, 3 or 5. -/
  step : Nat := 2
  /-- p when step 2 began; the reference position; the shift applied. -/
  start : Int := 0
  /-- CT from which the axis moves (R417). -/
  since : Nat := 0
  ref : Int := 0
  shift : Int := 0
  /-- The code of an early end that still stops the axis. -/
  failed : Option Nat := none
  deriving DecidableEq, Repr

/-- A limit or home input (R431, R432). -/
structure MotInput where
  role : Nat := 0
  low : Bool := false
  raw : Bool := false
  qual : Bool := false
  chat : Bool := false
  /-- CT of the qualified edges of the last 50 ms, newest first. -/
  edges : List Nat := []
  deriving DecidableEq, Repr

/-- One axis (R410-R444). Positions are in address units with 32 fraction bits; velocity and acceleration in units/s and units/s^2
with 64 fraction bits [A 41]. -/
structure Axis where
  state : AxisState := .disabled
  configured : Bool := false
  encEn : Bool := false
  dirInv : Bool := false
  rejectRev : Bool := false
  jogEn : Bool := false
  encFilt : Nat := 8
  hyst : Nat := 32
  /-- ENC_RATIO with 16 fraction bits. -/
  ratio : Int := 0
  devWin : Nat := 128
  stallWin : Nat := 512
  runI : Nat := 128
  holdI : Nat := 48
  homeI : Nat := 64
  holdDelay : Nat := 100
  vmax : Nat := 512000
  amax : Nat := 5120000
  dmax : Nat := 5120000
  jmax : Nat := 100000
  qdmax : Nat := 20480000
  qjmax : Nat := 400000
  /-- UP[1] to UP[8]. -/
  up : Vector Nat 8 := Vector.ofFn fun b : Fin 8 => 2 ^ (b.val + 1) * 100000
  inputs : Vector MotInput 2 := Vector.replicate 2 {}
  debounce : Nat := 100
  p : Int := 0
  v : Int := 0
  a : Int := 0
  /-- Jerk of the latest tick in units/s^3. -/
  jk : Int := 0
  /-- CT of the next tick (R411); CT from which frames are sent after an enable. -/
  tickAt : Nat := 512
  framesAt : Nat := 0
  /-- The segments of the plan in force: jerk sign and ticks left; whether a plan runs, and its target. -/
  plan : List (Int × Nat) := []
  planned : Bool := false
  target : Int := 0
  /-- The move is to be planned again from the next tick (R437, R442). -/
  replan : Bool := false
  /-- The axis stops because its target is behind it (R416). -/
  reverse : Bool := false
  /-- Velocity mode: target velocity in units/s, and whether a quick stop runs. -/
  vt : Int := 0
  quick : Bool := false
  /-- A limit trip or thermal shutdown caused the stop in progress (R418). -/
  limitStop : Bool := false
  /-- The states of the ticks of the last 10 ms, newest first: edges are placed on them (R431). -/
  past : List AxisSample := []
  /-- Commands that wait to take effect; the one in effect; replies due at rest. -/
  waits : List MotWait := []
  cmd : Option (Fin 4 × BitVec 16) := none
  /-- Tag of the latest motion command in effect, which EV_MOT_MOVE_DONE names when no command replies at rest. -/
  lastTag : BitVec 16 := 0
  ends : List MotEnd := []
  homing : Option Homing := none
  homed : Bool := false
  /-- Current: 0 HOLD_I, 1 RUN_I, 2 HOME_I; CT since which the axis is at rest with RUN_I. -/
  current : Nat := 0
  restAt : Option Nat := none
  jog : Bool := false
  jogAt : Nat := 0
  /-- Band in force, address and frame count of the last frame, and the frame itself (R420-R425). -/
  band : Nat := 0
  /-- Position sent in the last frame, rounded to its band's increment. -/
  sent : Int := 0
  frameSeq : Nat := 0
  plk : Word := 0
  plkEn : Bool := false
  /-- Encoder count, stamp of its newest edge and p at that stamp; ENC_OFF with 32 fraction bits (R426-R428). -/
  count : Int := 0
  encAt : Nat := 0
  encP : Int := 0
  encOff : Int := 0
  /-- e in address units, its peak, LOST, error counts. -/
  dev : Int := 0
  devPeak : Nat := 0
  lost : Bool := false
  errQuad : Nat := 0
  errDev : Nat := 0
  /-- Ceiling FIR has set, in units/s (R437). -/
  ceil : Option Nat := none
  underCeil : Bool := false
  /-- The snapshot of R444. -/
  snapPos : Int := 0
  snapVel : Int := 0
  snapEnc : Int := 0
  snapDev : Int := 0
  deriving DecidableEq, Repr

/-- MOT: six axes, their ticks staggered by 640 FIRE cycles (R411). -/
structure Mot where
  axes : Vector Axis 6 := Vector.ofFn fun n : Fin 6 => { tickAt := 640 * n.val + 512 }
  deriving DecidableEq, Repr

/-! ## TIM and ETH: time bases, PTP and tacks (chapter 12) -/

/-- One time base (R448-R450). Time is counted in units of 2^-48 / 25 ns, in which one nanosecond is 25 * 2^48, the increment
of a FIRE cycle is a whole number and the slew part of R450 is 2^43. -/
structure TimeBase where
  /-- Total time: seconds, nanoseconds and fraction together. -/
  t : Nat := 0
  /-- RATE in 2^-16 ppm, signed. -/
  rate : Int := 0
  /-- Slew still to be added, signed, in the same units. -/
  slew : Int := 0
  /-- Time elapsed as inc x cycles only, which the virtual feed counts (R451). -/
  elapsed : Nat := 0
  steps : BitVec 16 := 0
  /-- CT of the FIRE cycle of the latest step or SET (R469). -/
  stepAt : Option Nat := none
  deriving DecidableEq, Repr

/-- One tack (R465-R469, R473). -/
structure Tack where
  /-- TARGET and PERIOD as they read back, and CTRL as last written (R16, R467, R468). -/
  targetS : Word := 0
  periodS : Word := 0
  ctrlW : BitVec 5 := 0
  /-- TARGET has been written since the last commit (R16). -/
  staged : Bool := false
  /-- In force. -/
  target : Word := 0
  period : Nat := 0
  periodic : Bool := false
  tb : Fin 4 := 0
  evtEn : Bool := false
  armed : Bool := false
  /-- CT of the arming write; the tack compares from the next FIRE cycle. -/
  armAt : Nat := 0
  /-- The target was not ahead of the time base when armed (R466). -/
  behind : Bool := false
  late : Bool := false
  stepped : Bool := false
  rejected : Bool := false
  missed : Nat := 0
  fires : BitVec 16 := 0
  /-- CT of the latest fire: at most one fire per FIRE cycle (R468). -/
  lastFire : Option Nat := none
  /-- Fires that no DMA burst has served yet, and those counted as lost (R77). -/
  dmaReq : Nat := 0
  ovf : Nat := 0
  deriving DecidableEq, Repr

/-- TIM (R446-R451, R465-R473). -/
structure Tim where
  tbs : Vector TimeBase 4 := Vector.replicate 4 {}
  /-- The snapshot of R447: CT and the four total times. -/
  ctSnap : Nat := 0
  tbSnap : Vector Nat 4 := Vector.replicate 4 0
  tacks : Vector Tack 32 := Vector.replicate 32 {}
  deriving DecidableEq, Repr

/-- Role of a PTP instance (R457). -/
inductive PtpRole where
  | disabled | slave | master | passive
  deriving DecidableEq, Repr

/-- State of a servo (R461). -/
inductive Servo where
  | free | acquiring | locked | holdover
  deriving DecidableEq, Repr

/-- What a queued transmit stamp belongs to (R456). -/
inductive TxUse where
  | sync (seq : Nat) | delayReq (seq : Nat) | pdelayReq (seq : Nat) | pdelayResp (req : PtpId) (seq : Nat) | host
  deriving DecidableEq, Repr

/-- An entry of the transmit stamp queue: stamp in 1/16 ns, identifier and what waits for it (R456). -/
structure TxStamp where
  stamp : Nat := 0
  ident : Word := 0
  use : TxUse := .host
  deriving DecidableEq, Repr

/-- A two-step Sync that waits for its Follow_Up (R459). -/
structure SyncWait where
  seq : Nat := 0
  t2 : Nat := 0
  corr : Int := 0
  since : Nat := 0
  deriving DecidableEq, Repr

/-- A message that waits for the host (R464). -/
structure HostMsg where
  /-- CT at which it came. -/
  came : Nat := 0
  stamp : Option Nat := none
  bytes : List Byte := []
  deriving DecidableEq, Repr

/-- Settings of a port, TIM.SET_PORT (R452, R454, R455, R471). -/
structure EthCfg where
  mode : Nat := 0
  an : Bool := false
  mac : BitVec 48 := 0
  /-- Whether TIM.SET_PORT has given the latencies yet; until then they are the constants of R454. -/
  latSet : Bool := false
  txLat : Nat := 0
  rxLat : Nat := 0
  asym : Int := 0
  vlan : BitVec 12 := 0
  pcp : BitVec 3 := 0
  tagVlan : Bool := false
  ipv4 : Word := 0
  ipv6 : BitVec 128 := 0
  deriving DecidableEq, Repr

/-- Settings of a PTP instance, TIM.SET_PTP (R457, R460, R471). -/
structure PtpCfg where
  role : PtpRole := .disabled
  p2p : Bool := false
  transport : Nat := 0
  oneStep : Bool := false
  tb : Fin 4 := 0
  avg : Nat := 0
  domain : BitVec 8 := 0
  sdo : BitVec 4 := 0
  clockId : BitVec 64 := 0
  portNumber : BitVec 16 := 0
  logSync : Int := 0
  logDelay : Int := 0
  logPdelay : Int := 0
  syncLoss : Nat := 3
  /-- STEP_LIMIT in ns. -/
  stepLimit : Nat := 20000
  kp : Nat := 0x0100
  ki : Nat := 0x0010
  deriving DecidableEq, Repr

/-- One Ethernet port with its PTP instance (R452-R464, R474). -/
structure EthPort where
  cfg : EthCfg := {}
  ptp : PtpCfg := {}
  link : Bool := false
  servo : Servo := .free
  /-- sourcePortIdentity required of a Sync (R457). -/
  parent : Option PtpId := none
  integral : Int := 0
  baseRate : Int := 0
  good : Nat := 0
  bad : Nat := 0
  /-- CT of the latest accepted Sync, or of the start of the count of R462. -/
  lastSync : Nat := 0
  syncWait : Option SyncWait := none
  /-- Delay_Req sent and not answered: sequenceId and t3 once known; the newest pair's t4 - t3 - c_r (R460). -/
  delayOut : Option (Nat × Option Nat) := none
  delayPair : Option Int := none
  /-- Latest values of d and of the link delay, newest first, at most eight (R460). -/
  dHist : List Int := []
  /-- The delay of the newest Delay_Req/Delay_Resp pair with the newest Sync, once a Sync has used the pair (R460). -/
  dCur : Option Int := none
  linkHist : List Int := []
  /-- Pdelay_Req sent and not answered: sequenceId and t1 once known. -/
  pdelayOut : Option (Nat × Option Nat) := none
  /-- Pdelay_Resp that waits for its Follow_Up: sequenceId, t1, t2 with correction, t4. -/
  pdelayWait : Option (Nat × Nat × Int × Nat) := none
  seqSync : Nat := 0
  seqDelay : Nat := 0
  seqPdelay : Nat := 0
  /-- CT before which the next message of each kind is not due (R457). -/
  nextSync : Nat := 0
  nextDelay : Nat := 0
  nextPdelay : Nat := 0
  deriving DecidableEq, Repr

/-- The queues and counters of one Ethernet port (R456, R464, R474). -/
structure EthQ where
  txq : List TxStamp := []
  txOvf : Nat := 0
  rxq : List HostMsg := []
  dropFrames : Nat := 0
  dropMsgs : Nat := 0
  /-- Exchanges abandoned for a lost stamp or a switch-over (R456, R470). -/
  abandoned : Nat := 0
  servoOfs : Int := 0
  servoDly : Int := 0
  deriving DecidableEq, Repr

/-! ## SEQ: sequencers and the thimble (chapter 13) -/

/-- State of a sequencer (R488). -/
inductive SeqState where
  | reset | selftest | loading | syncing | standby | active | failed
  deriving DecidableEq, Repr

/-- One sequencer as the thimble and the mirror channel see it (R476-R488, R496, R497, R504). -/
structure Sq where
  state : SeqState := .reset
  /-- CT at which the state was entered. -/
  since : Nat := 0
  /-- Mirror region: word index and word, indices rising, no word equal to 0 (R476, R480); zero at reset [A 8]. -/
  region : List (Nat × Word) := []
  /-- Highest MSN applied in full, and its digest as the heartbeat reports it (R479). -/
  msn : BitVec 16 := 0
  dig : BitVec 64 := 0
  /-- Latest heartbeat: CT, MSN, digest, SYNCED flag and claimed role (R504). -/
  hbAt : Nat := 0
  hbMsn : BitVec 16 := 0
  hbDig : BitVec 64 := 0
  hbActive : Bool := false
  /-- A record of the mirror channel was not applied: the standby's MSN stands still until resynchronisation (R481). -/
  stuck : Bool := false
  /-- Digest matches in a row while SYNCING (R488). -/
  matched : Nat := 0
  /-- Halted by the debugger (R579); lock-up code, 0 none (R485). -/
  halted : Bool := false
  lockup : Nat := 0
  /-- The thimble has missed its heartbeats in external-thimble mode (R500). -/
  hbLost : Bool := false
  /-- CT of the revocations and drops since chip reset, newest first (R497). -/
  drops : List Nat := []
  testFails : Nat := 0
  /-- The SEQ.REPAIR that waits for this sequencer: pair and tag (R503). -/
  repair : Option (Fin 4 × BitVec 16) := none
  /-- Level of THM_HB_A or THM_HB_B in external-thimble mode (R500). -/
  hbPin : Bool := false
  /-- The active sequencer of a digest mismatch, in external-thimble mode, until its digest agrees again or the grant moves (R500). -/
  mismatch : Bool := false
  deriving DecidableEq, Repr

/-- SEQ and the thimble (R477-R504). -/
structure Seq where
  sqs : Vector Sq 2 := Vector.replicate 2 {}
  active : Fin 2 := 0
  granted : Bool := false
  ext : Bool := false
  headless : Bool := false
  thmOk : Bool := false
  /-- VDD_THM and the oscillator as their monitors last reported them (R499). -/
  vddThmBad : Bool := false
  oscBad : Bool := false
  /-- CT of the latest fault of either (R585). -/
  thmFaultAt : Nat := 0
  epoch : Word := 0
  swapInterval : Nat := 600
  /-- CT from which the interval runs; CT from which a deferred swap is tried again; the SEQ.SWAP outstanding (R494). -/
  swapFrom : Nat := 0
  swapRetry : Option Nat := none
  swapCmd : Option (Fin 4 × BitVec 16) := none
  /-- A swap has been granted and its takeover answers SEQ.SWAP. -/
  swapRan : Bool := false
  swaps : Nat := 0
  revocations : Nat := 0
  discards : Nat := 0
  lastSeq : Fin 2 := 0
  lastCause : Nat := 0
  lastLockup : Nat := 0
  lastEpoch : BitVec 16 := 0
  lastCt : Nat := 0
  /-- The active's MSN and digest of its last four MSNs, newest first (R486). -/
  digests : List (BitVec 16 × BitVec 64) := []
  /-- A grant whose takeover is not complete: CT of the grant, and whether it is a cold start (R491, R498). -/
  takeover : Option (Nat × Bool) := none
  /-- THM_GNT level, and a selection that waits for its sequencer (R500). -/
  gnt : Bool := false
  gntWait : Bool := false
  deriving DecidableEq, Repr

/-- What a block keeps for the newest-epoch rule (R181, R490). -/
structure EpochReg where
  epoch : Word := 0
  stale : Nat := 0
  /-- Writes applied: epoch, pair, 0xFF of an automatic commit (R267), tag and content, which a later epoch may repeat without effect (R490). -/
  applied : List (Word × BitVec 8 × BitVec 16 × List (Nat × Word)) := []
  deriving DecidableEq, Repr

/-! ## DRC: DRAM controller and on-chip SRAM (chapter 14) -/

/-- A real-time port of the DRC: PDP fetch, CAM write or HLK spill (R26, R523). -/
structure RtPort where
  /-- Threshold in KiB. -/
  thresh : Nat := 16
  panic : Bool := false
  /-- CT at which it entered panic (R522). -/
  since : Nat := 0
  deriving DecidableEq, Repr

/-- An error DRC.INJECT has stored, waiting for the next write or already in the burst (R531). -/
structure Inject where
  addr : Nat := 0
  dev : Nat := 0
  dev2 : Option Nat := none
  addrKind : Bool := false
  /-- The burst has been written since: the next read shows the error. -/
  stored : Bool := false
  deriving DecidableEq, Repr

/-- The first-failure latch (R524, R532). -/
structure FreezeInfo where
  valid : Bool := false
  cause : Nat := 0
  source : Nat := 0
  unit : Nat := 0
  command : Nat := 0
  sc : Nat := 0
  rank : Nat := 0
  addr : Nat := 0
  synd : Vector Word 4 := Vector.replicate 4 0
  deriving DecidableEq, Repr

/-- DRC and the SRAM's error logic (R506-R532). -/
structure Drc where
  ready : Bool := false
  frozen : Bool := false
  training : Bool := false
  trainFail : Bool := false
  failStep : Nat := 0
  failSc : Nat := 0
  failRank : Nat := 0
  scrubbing : Bool := false
  /-- DRC_CFG, from the boot image (R506, R570). -/
  density : Nat := 0
  ranks : Nat := 0
  rate : Nat := 0
  capGib : Nat := 0
  /-- Bring-up under way since this CT (R510). -/
  bringUp : Option Nat := none
  /-- DRC_REFRESH. -/
  mode : Nat := 2
  doubled : Bool := false
  nbrK : Nat := 11
  scrubHours : Nat := 24
  corrWb : Bool := true
  /-- DRC_QOS: PDP fetch, CAM write, HLK spill. -/
  ports : Vector RtPort 3 := #v[{ thresh := 128 }, {}, {}]
  devLimit : Nat := 256
  /-- Refresh commands postponed, per rank (R514). -/
  postponed : Vector Nat 2 := Vector.replicate 2 0
  eccCorr : Nat := 0
  wcrc : Nat := 0
  freeze : FreezeInfo := {}
  /-- Bursts that read uncorrectable until rewritten (R526). -/
  badBursts : List Nat := []
  devErr : Vector Nat 40 := Vector.replicate 40 0
  /-- CT of the corrections of the last second per device, and of the last EV_DRC_DEVICE_SUSPECT (R517). -/
  devTimes : Vector (List Nat) 40 := Vector.replicate 40 []
  devSuspect : Vector (Option Nat) 40 := Vector.replicate 40 none
  injects : List Inject := []
  /-- Next burst of the patrol scrub (R519). -/
  scrubPos : Nat := 0
  deriving DecidableEq, Repr

/-- A request that waits for the DRC while it is out of service and not frozen (R510, R512, R520, R522). -/
inductive DramReq where
  /-- A DMA channel reads a descriptor, moves a burst or a coded block, writes a status. -/
  | descriptor (n : Fin 16) | burst (n : Fin 16) | status (n : Fin 16)
  /-- BAR2, and the doorbells that wait behind its writes (R50). -/
  | bar2Read (off len : Nat) | bar2Write (off : Nat) (bytes : List (Option Byte)) | doorbell (n : Fin 32) (v : Word)
  /-- A command packet read, a reply, an event record, an index written back, bytes to be written, for a real-time port or not. -/
  | command (p : Fin 4) | reply (p : Fin 4) | event (k : Fin 4) | writeBack (n : Fin 32) | put (port : Option (Fin 3)) (a : Nat) (bytes : List Byte)
  /-- A table of PDP, the nozzle map in or out; commands that read DRAM as they start; a port's head-memory transfers that read it. -/
  | table | mapLoad | mapRead | openPanel (c : Cmd) | loadTone (c : Cmd) | setDefects (c : Cmd) | mgmt (p : Fin 16)
  /-- The patrol scrubber's next burst, with what it shows. -/
  | scrub (r : BurstResult)
  /-- The camera pipeline's next line; a spilled frame read back to be sent again on a port's lane (R339). -/
  | camLine | spill (p : Fin 16) (l : Fin 2)
  deriving DecidableEq, Repr

/-- What is left of the DRC: its commands, timers and the SRAM counters (R511-R513, R529-R532). -/
structure DrcX where
  /-- Requests held, oldest first (R520); the best-effort class whose turn it is and the requests it has had in it (R522). -/
  waiting : List DramReq := []
  turn : Fin 4 := 0
  given : Nat := 0
  /-- DRC.RESET under way: the command unless abandoned, CLEAR_BAD, FULL and the cause it clears. -/
  resetCmd : Option (Option (Fin 4 × BitVec 16) × Bool × Bool × Nat) := none
  /-- DRC.RETRAIN under way, with its command unless abandoned. -/
  retrainCmd : Option (Option (Fin 4 × BitVec 16)) := none
  /-- CT of the latest ZQ calibration and oscillator reading of rank r and sub-channel c at 2r + c, and of each rank's temperature reading. -/
  zqAt : Vector Nat 4 := Vector.replicate 4 0
  dqsAt : Vector Nat 4 := Vector.replicate 4 0
  tempAt : Vector Nat 2 := Vector.replicate 2 0
  /-- Ranks with a device above 85 degrees (R513). -/
  hot : Vector Bool 2 := Vector.replicate 2 false
  /-- Refresh commands, ZQ calibrations and refresh-management commands issued. -/
  refreshes : Nat := 0
  rfms : Nat := 0
  /-- SRAM_ECC, SRAM_ERR_ADDR, SRAM_GUARD. -/
  sramCorr : Nat := 0
  sramUnc : Nat := 0
  sramErrAddr : Nat := 0
  sramGuard : Nat := 0
  /-- Words of the SRAM (8-byte aligned addresses) that read uncorrectable until rewritten (R529). -/
  sramBad : List Nat := []
  deriving DecidableEq, Repr

/-! ## HKP, LGT and CAL (chapter 15) -/

/-- A temperature channel: remote channels 0-39, die sensors 40-45 (R534-R537). Temperatures in 0.1 degrees. -/
structure HkpCh where
  mode : Nat := 0
  role : Nat := 0
  /-- Port of a head, or board group. -/
  unit : Nat := 0
  /-- 0-39 a channel, 40-43 TEMP0-3, 63 none. -/
  pair : Nat := 63
  eta : Nat := 0x4083
  rs : Nat := 0
  r0 : Nat := 0
  b : Nat := 0
  rb : Nat := 0
  offset : Int := 0
  temp : Int := 0
  /-- CT of the latest sample that gave a value; none before it. -/
  sampled : Option Nat := none
  /-- The last round found a fault condition. -/
  badOnce : Bool := false
  broken : Bool := false
  fault : Nat := 0
  /-- Sound rounds in a row, at most 8. -/
  sound : Nat := 0
  deriving DecidableEq, Repr

/-- A board group or the die group (R538, R539). -/
structure HkpGroup where
  warn : Int := 700
  throttle : Int := 800
  shutdown : Int := 900
  hystW : Nat := 30
  hystT : Nat := 30
  hystS : Nat := 30
  inWarn : Bool := false
  inThrottle : Bool := false
  inShutdown : Bool := false
  latched : Bool := false
  deriving DecidableEq, Repr

/-- The jetting window of a head (R540, R541). -/
structure HkpHead where
  lo : Int := 200
  hi : Int := 600
  hyst : Nat := 10
  inside : Bool := true
  latched : Bool := false
  deriving DecidableEq, Repr

/-- A supply monitor (R546, R584). -/
structure Rail where
  mv : Nat := 0
  uv : Bool := false
  ov : Bool := false
  /-- Rounds in a row out of, and in, the window. -/
  outN : Nat := 0
  inN : Nat := 0
  deriving DecidableEq, Repr

/-- State of the throttle (R542). -/
inductive Throttle where
  | none | requested | enforced
  deriving DecidableEq, Repr

/-- HKP (R534-R546, R562). -/
structure Hkp where
  chans : Vector HkpCh 46 := Vector.ofFn fun n : Fin 46 => { mode := if n.val < 40 then 0 else 1 }
  /-- Groups 0-7 and the die group. -/
  groups : Vector HkpGroup 9 := Vector.ofFn fun g : Fin 9 =>
    if g.val < 8 then {} else { warn := 900, throttle := 970, shutdown := 1050 }
  heads : Vector HkpHead 16 := Vector.replicate 16 {}
  rails : Vector Rail 16 := Vector.replicate 16 {}
  round : Nat := 0
  slot : Nat := 0
  /-- CT at which the present slot ends [A 42]. -/
  slotAt : Nat := 100000
  shutdown : Bool := false
  /-- The group whose entry latched SHUTDOWN. -/
  shutGroup : Fin 9 := 0
  throttle : Throttle := .none
  /-- CT of the request, and of the last change of the thermal term. -/
  reqAt : Nat := 0
  stepAt : Nat := 0
  term : Option Nat := none
  slowReq : Bool := false
  /-- GRACE and STEP in 0.1 s. -/
  grace : Nat := 20
  step : Nat := 20
  frac : Nat := 192
  floor : Nat := 20000
  deriving DecidableEq, Repr

/-- One LED sink (R547-R551). -/
structure Sink where
  en : Bool := false
  strobe : Bool := false
  tack : Fin 32 := 0
  iset : Nat := 0
  phase : Nat := 0
  sensor : Nat := 0
  knee : Int := 850
  endT : Int := 1150
  strobeLen : Nat := 0
  /-- DUTY as written, and as taken at the last switch-on. -/
  dutyW : Nat := 0
  duty : Nat := 0
  /-- Derating factor as last computed, and factors in force since the last switch-on. -/
  f : Nat := 256
  fNow : Nat := 256
  sNow : Nat := 256
  on : Bool := false
  /-- CT of the latest switch-on; CT at which the pulse ends; on-time of the present millisecond so far and CT it is counted to. -/
  onAt : Nat := 0
  pulseEnd : Option Nat := none
  onAcc : Nat := 0
  accAt : Nat := 0
  /-- CT of the next switch-on instant. -/
  nextOn : Nat := 0
  fault : Bool := false
  pin : Nat := 0
  firesLost : Nat := 0
  deriving DecidableEq, Repr

/-- One LED chain port (R552, R553). -/
structure Chain where
  en : Bool := false
  bits : Nat := 48
  gap : Nat := 24
  fifo : List Word := []
  sending : Bool := false
  /-- The frame in progress is the zeros of a shutdown (R544). -/
  zeros : Bool := false
  /-- Bits of the frame sent or under way, and the CT at which the last of them ends. -/
  sent : Nat := 0
  wordEnd : Nat := 0
  underrun : Nat := 0
  overflow : Nat := 0
  deriving DecidableEq, Repr

/-- LGT (R547-R553). CH_BITS is 48 and the sinks' unnamed settings are 0 at reset [A 43]. -/
structure Lgt where
  sinks : Vector Sink 8 := Vector.ofFn fun k : Fin 8 => { phase := 32 * k.val }
  period : Nat := 6250
  plimit : Nat := 4000
  /-- Common power scale s, and the estimate P in mW. -/
  scale : Nat := 256
  limited : Bool := false
  power : Nat := 0
  derateAt : Nat := 400000
  powerAt : Nat := 400000
  chains : Vector Chain 4 := Vector.replicate 4 {}
  deriving DecidableEq, Repr

/-- One trim group of CAL (R554-R558). -/
structure CalGroup where
  temp : Int := 0
  due : Bool := true
  stale : Bool := false
  failed : Bool := false
  /-- CT at which the deferral began; it is to run at the next hem. -/
  deferAt : Option Nat := none
  forced : Bool := false
  /-- That hem has come: the group runs whatever the active panel's flag (R557). -/
  hem : Bool := false
  /-- Running since. -/
  running : Option Nat := none
  /-- Gain, or the reference trim of the ADC; offset. -/
  gain : Nat := 0
  offset : Nat := 0
  /-- Trims measured that take effect at the next switch-on. -/
  pending : Option (Nat × Nat) := none
  deriving DecidableEq, Repr

/-- A CAL.RUN under way; masks of groups (R560). -/
structure CalCmd where
  pair : Fin 4 := 0
  tag : BitVec 16 := 0
  mask : List (Fin 11) := []
  ran : List (Fin 11) := []
  failed : List (Fin 11) := []
  deferred : List (Fin 11) := []
  cancel : Bool := false
  deriving DecidableEq, Repr

/-- CAL (R554-R562). Trims are zero at reset [A 43]. -/
structure Cal where
  groups : Vector CalGroup 11 := Vector.replicate 11 {}
  delta : Nat := 40
  auto : Bool := true
  refs : Vector Nat 2 := #v[40, 42]
  runs : Nat := 0
  fails : Nat := 0
  aborts : Nat := 0
  cmds : List CalCmd := []
  deriving DecidableEq, Repr

/-- A PTP message the part sends (R457-R460, R463). Stamps in 1/16 ns. -/
inductive EthTx where
  | sync (seq : Nat) (origin : Nat) (twoStep : Bool)
  | followUp (seq : Nat) (stamp : Nat)
  | delayReq (seq : Nat)
  | delayResp (req : PtpId) (seq : Nat) (received : Nat)
  | pdelayReq (seq : Nat)
  | pdelayResp (req : PtpId) (seq : Nat) (received : Nat)
  | pdelayRespFollowUp (req : PtpId) (seq : Nat) (sent : Nat)
  | hostMsg (bytes : List Byte)
  deriving DecidableEq, Repr

/-- Something that leaves the part: the model's own record of it, oldest first; nothing inside the part reads it. -/
inductive Out where
  /-- The completion of a host read. -/
  | hostRead (st : ReadStatus) (bytes : List Byte)
  /-- Bytes written to host memory: relaxed-ordering attribute, address, length (R52). -/
  | hostWrite (relaxed : Bool) (addr len : Nat)
  /-- A write completed with Unsupported Request (R42, R48). -/
  | hostWriteRefused
  /-- An MSI-X message of a vector (R64, R65). -/
  | msix (vector : Nat)
  /-- A frame on a lane: its 66-bit blocks, each control or data with eight payload bytes; BTYPE 0x66 in the first is one inserted into the
  frame before it (R298, R330, R331). -/
  | frame (port : Fin 16) (lane : Fin 2) (blocks : List (Bool × List Byte))
  /-- A number of IDLE frames one after another, each of these blocks (R330). -/
  | idle (port : Fin 16) (lane : Fin 2) (count : Nat) (blocks : List (Bool × List Byte))
  /-- A training ordered set: the payload of its control block (R301). -/
  | ts (port : Fin 16) (lane : Fin 2) (payload : BitVec 64)
  /-- A PTP message of an Ethernet port. -/
  | eth (port : Fin 2) (tx : EthTx)
  /-- A phase-link frame of an axis (R420). -/
  | plk (axis : Fin 6) (frame : Word)
  /-- A sink's delivered current changes: sink, on, current in 1/65536 of I_set (R549). -/
  | sink (k : Fin 8) (on : Bool) (factor : Nat)
  /-- The first bits of a word on a chain's wire; the wire held low until the devices latch (R552). -/
  | chain (c : Fin 4) (w : Word) (n : Nat)
  | chainLatch (c : Fin 4)
  /-- Bytes shifted out of the JTAG port (R578). -/
  | jtag (bytes : List Byte)
  deriving DecidableEq, Repr

/-! ## The machine -/

/-- The whole part, the commands that wait for it, and the memories it reaches. -/
structure State where
  /-- Commands waiting, first in first out. -/
  pending : List Instr := []
  /-- Chip time in FIRE cycles of 2.5 ns (R36, R446). -/
  ct : Nat := 0
  /-- The model's own counter that picks the next free value [A 1]. -/
  freeCtr : Nat := 0
  /-- The model's own record of what has left the part [A 2]. -/
  out : List Out := []
  glb : Glb := {}
  fw : Fw := {}
  bob : Bob := {}
  cmd : CmdBlk := {}
  evt : Evt := {}
  tim : Tim := {}
  pdp : Pdp := {}
  ebc : Vector EbcEngine 4 := Vector.replicate 4 {}
  fir : Fir := {}
  nhd : Nhd := {}
  hlk : Hlk := {}
  cam : Cam := {}
  mot : Mot := {}
  hkp : Hkp := {}
  lgt : Lgt := {}
  cal : Cal := {}
  eth : Vector EthPort 2 := Vector.replicate 2 {}
  ethq : Vector EthQ 2 := Vector.replicate 2 {}
  seq : Seq := {}
  /-- Epoch registers of PDP, FIR, NHD, HLK, CAM, MOT, TIM, DRC and HKP, in this order. -/
  ep : Vector EpochReg 9 := Vector.replicate 9 {}
  drc : Drc := {}
  drcx : DrcX := {}
  /-- DRAM by byte address; zero after bring-up (R510). -/
  dram : Mem := []
  /-- SRAM by byte address (R527); zero at reset [A 3]. -/
  sram : Mem := []
  /-- Host memory as the part reaches it over the link (R46, R54, R71). -/
  hostMem : Mem := []
  /-- The boot flash, 64 MiB (R572). -/
  flash : Mem := []
  deriving DecidableEq, Repr

/-- The machine right after power-on: every field at its reset value, SYS_RST_N low, no command waiting. -/
def State.reset : State := {}

end Sys2Proof.Machine
end

