-- ==== Sys2Proof/Machine/Ops.lean ====
section
/-! DEFINITION. The operations every block shares: arrays, bit fields, byte memory, the passing of chip time, events, FAULT_N, the
link to the host. -/

namespace Sys2Proof.Machine

open Sys2Proof

/-! ## Arrays and numbers -/

/-- The entry of a fixed array. -/
def vget {α : Type} {n : Nat} (v : Vector α n) (i : Fin n) : α := v[i.val]

/-- The array with one entry replaced. -/
def vset {α : Type} {n : Nat} (v : Vector α n) (i : Fin n) (x : α) : Vector α n := v.set i.val x

/-- The array with one entry changed. -/
def vmod {α : Type} {n : Nat} (v : Vector α n) (i : Fin n) (f : α → α) : Vector α n := vset v i (f (vget v i))

/-- The index `k` of an array of `n` entries, if there is one. -/
def idx (n k : Nat) : Option (Fin n) := if h : k < n then some ⟨k, h⟩ else none

/-- All the indices of an array of `n` entries, in rising order. -/
def indices (n : Nat) : List (Fin n) := List.finRange n

/-- Bits [hi:lo] of a word. -/
def bits (w : Word) (hi lo : Nat) : Nat := (w.toNat / 2 ^ lo) % 2 ^ (hi + 1 - lo)

/-- Bit `i` of a word. -/
def bit (w : Word) (i : Nat) : Bool := (w.toNat / 2 ^ i) % 2 == 1

/-- Reads `v`, a number of `k` bits, as two's complement (R17). -/
def signed (k v : Nat) : Int := if v < 2 ^ (k - 1) then (v : Int) else (v : Int) - (2 ^ k : Nat)

/-- Bits [hi:lo] of a word as two's complement. -/
def sbits (w : Word) (hi lo : Nat) : Int := signed (hi + 1 - lo) (bits w hi lo)

/-- A signed number as the low `k` bits of its two's complement. -/
def toBits (k : Nat) (i : Int) : Nat := (i % (2 ^ k : Nat)).toNat

/-- The flag as a number. -/
def b2n (b : Bool) : Nat := if b then 1 else 0

/-- A register's word from its fields: each a value and the place of its lowest bit. -/
def pack (fs : List (Nat × Nat)) : Word := w32 ((fs.map fun f => f.1 * 2 ^ f.2).sum)

/-- Addition that stops at `top`. -/
def satAdd (top a b : Nat) : Nat := min top (a + b)

/-- Addition of a count that stops at 2^32 - 1. -/
def sat32 (a b : Nat) : Nat := satAdd 0xFFFFFFFF a b

/-- Division rounded up. -/
def ceilDiv (a b : Nat) : Nat := (a + b - 1) / b

/-- Whether the bits of `w` outside `mask` are all 0. -/
def only (w mask : Word) : Bool := (w &&& ~~~mask) == 0#32

/-! ## Byte memory -/

/-- The byte at an address; an address that is not listed reads as 0. -/
def memGet : Mem → Nat → Byte
  | [], _ => 0
  | (k, b) :: m, a => if k = a then b else if a < k then 0 else memGet m a

/-- The memory with one byte replaced; writing 0 takes the entry out. -/
def memSet : Mem → Nat → Byte → Mem
  | [], a, x => if x = 0 then [] else [(a, x)]
  | (k, b) :: m, a, x =>
    if k = a then (if x = 0 then m else (a, x) :: m)
    else if a < k then (if x = 0 then (k, b) :: m else (a, x) :: (k, b) :: m)
    else (k, b) :: memSet m a x

/-- `n` bytes from an address on. -/
def memRead (m : Mem) : Nat → Nat → List Byte
  | _, 0 => []
  | a, n + 1 => memGet m a :: memRead m (a + 1) n

/-- Bytes written from an address on. -/
def memWrite (m : Mem) : Nat → List Byte → Mem
  | _, [] => m
  | a, b :: bs => memWrite (memSet m a b) (a + 1) bs

/-- The canonical form of byte memory: every address above `lo`, addresses rising, no entry 0. -/
def memWfFrom (lo : Nat) : Mem → Bool
  | [] => true
  | (k, b) :: m => decide (lo ≤ k) && b != 0 && memWfFrom (k + 1) m

/-- Whether byte memory is in canonical form. -/
def memWf (m : Mem) : Bool := memWfFrom 0 m

/-- Little-endian value of bytes (R14, R570). -/
def leNat : List Byte → Nat
  | [] => 0
  | b :: bs => b.toNat + 256 * leNat bs

/-- The low `k` bytes of a number, little-endian. -/
def natLe : Nat → Nat → List Byte
  | _, 0 => []
  | v, k + 1 => b8 v :: natLe (v / 256) k

/-- The 32-bit word at an address. -/
def memWord (m : Mem) (a : Nat) : Word := w32 (leNat (memRead m a 4))

/-- The bytes of words, each little-endian. -/
def wordBytes (ws : List Word) : List Byte := ws.flatMap fun w => natLe w.toNat 4

/-- Bytes as words, each little-endian; a last part word is filled with 0. -/
def bytesWords (bs : List Byte) : List Word :=
  (List.range (ceilDiv bs.length 4)).map fun i => w32 (leNat ((bs.drop (4 * i)).take 4))

/-- Unsigned 64-bit address from its two words. -/
def addr64 (lo hi : Word) : Nat := lo.toNat + 2 ^ 32 * hi.toNat

/-- The start and the end of the SRAM host window (R527). -/
def hostWinLo : Nat := 0x1440000
def hostWinHi : Nat := 0x1AA0000

/-- Firmware shared data and the nozzle map in SRAM (R527). -/
def fwShared : Nat := 0x1F00000
def nozzleMapBase : Nat := 0x13E0000

/-- Installed DRAM in bytes and the end of what the host may use (R506, R509). -/
def dramTop (s : State) : Nat := s.drc.capGib * 2 ^ 30
def dramUsable (s : State) : Nat := dramTop s - 4 * 2 ^ 20

/-- Whether `len` bytes at `a` lie wholly inside a space: 0 host memory, 1 DRAM, 2 SRAM host window (R59, R71, R509, R528). -/
def inSpace (s : State) (space a len : Nat) : Bool :=
  match space with
  | 0 => decide (a + len ≤ 2 ^ 64)
  | 1 => decide (a + len ≤ dramUsable s)
  | 2 => decide (hostWinLo ≤ a ∧ a + len ≤ hostWinHi)
  | _ => false

/-- Bytes of a space. -/
def spaceRead (s : State) (space a n : Nat) : List Byte :=
  match space with
  | 0 => memRead s.hostMem a n
  | 1 => memRead s.dram a n
  | _ => memRead s.sram a n

/-- Bytes of DRAM written, and the error marks of R531 that the write settles: an injected error is now stored in its burst. -/
def dramWrite (s : State) (a : Nat) (bs : List Byte) : State :=
  { s with
    dram := memWrite s.dram a bs
    drc := { s.drc with
      injects := s.drc.injects.map fun j =>
        if a < j.addr + 64 ∧ j.addr < a + bs.length then { j with stored := true } else j } }

/-- Bytes of SRAM written; a word written whole loses its error mark (R529). -/
def sramWrite (s : State) (a : Nat) (bs : List Byte) : State :=
  { s with
    sram := memWrite s.sram a bs
    drcx := { s.drcx with sramBad := s.drcx.sramBad.filter fun w => !(decide (a ≤ w ∧ w + 8 ≤ a + bs.length)) } }

/-- The state with something more sent out. -/
def emit (s : State) (o : Out) : State := { s with out := s.out ++ [o] }

/-- Bytes of a space written. A write to host memory carries the relaxed-ordering attribute only as the payload of a DMA operation or of a
camera buffer, and only under Relaxed Ordering Enable (R52). -/
def spaceWrite (s : State) (space a : Nat) (bs : List Byte) (payload : Bool := false) : State :=
  match space with
  | 0 => emit { s with hostMem := memWrite s.hostMem a bs } (.hostWrite (payload && s.bob.cfg.relaxedEn) a bs.length)
  | 1 => dramWrite s a bs
  | _ => sramWrite s a bs

/-- A fresh free word and the state whose counter has moved on [A 1]. -/
def fresh (s : State) : Word × State := (Config.freeWord s.freeCtr, { s with freeCtr := s.freeCtr + 1 })

/-! ## Chip time (R446, R448, R450) -/

/-- Time base units in a nanosecond: 25 * 2^48. -/
def tbNs : Nat := 25 * 2 ^ 48

/-- What a FIRE cycle adds besides a slew: inc of R448 in time base units; the rounding has no ties, since the divisor 3125 is odd. -/
def tbInc (rate : Int) : Nat := (25 * ((5 * 2 ^ 47 : Nat) + (2 * rate * (2 ^ 25 : Nat) + 3125) / 6250)).toNat

/-- What `n` FIRE cycles take of a pending slew: 2^43 units each, the last exactly the remainder (R450). -/
def slewPart (slew : Int) (n : Nat) : Int :=
  if slew ≥ 0 then min slew ((n * 2 ^ 43 : Nat) : Int) else -(min (-slew) ((n * 2 ^ 43 : Nat) : Int))

/-- A time base after `n` FIRE cycles. -/
def tbRun (b : TimeBase) (n : Nat) : TimeBase :=
  let p := slewPart b.slew n
  { b with
    t := ((b.t : Int) + (n * tbInc b.rate : Nat) + p).toNat
    slew := b.slew - p
    elapsed := b.elapsed + n * tbInc b.rate }

/-- `n` FIRE cycles pass: CT and the time bases advance while the system PLL is locked. -/
def advance (s : State) (n : Nat) : State :=
  if s.glb.sysLock then { s with ct := s.ct + n, tim := { s.tim with tbs := s.tim.tbs.map (tbRun · n) } } else s

/-- Chip time comes to `t` if it is below it [A 4]. -/
def advanceTo (s : State) (t : Nat) : State := advance s (t - s.ct)

/-- CT units of a microsecond and a millisecond. -/
def us (n : Nat) : Nat := 400 * n
def ms (n : Nat) : Nat := 400000 * n
/-- CT units of a second. -/
def sec (n : Nat) : Nat := 400000000 * n

/-! ## Events (R36, R117, R124) -/

/-- An event is stamped with CT and sent towards EVT. -/
def raise (s : State) (num inst code : Nat) (d0 : Word := 0) (d1 : Word := 0) (d2 : Word := 0) (d3 : Word := 0) : State :=
  { s with evt := { s.evt with
      net := s.evt.net ++ [{ num := num, inst := inst, code := code, stamp := s.ct, d0 := d0, d1 := d1, d2 := d2, d3 := d3 }] } }

/-- An event that may be raised once per `period` of chip time for its number and instance: raised with the count since the
previous one, or held back and counted. `mk` gives its code and data from that count. -/
def raiseLimited (s : State) (num inst period : Nat) (n : Nat) (mk : Nat → Nat × Word × Word × Word) : State :=
  let old := s.evt.limits.find? fun e => e.1 == num && e.2.1 == inst
  let rest := s.evt.limits.filter fun e => !(e.1 == num && e.2.1 == inst)
  match old with
  | some (_, _, at', held) =>
    if s.ct < at' + period then
      { s with evt := { s.evt with limits := rest ++ [(num, inst, at', held + n)] } }
    else
      let (code, d0, d1, d2) := mk (held + n)
      raise { s with evt := { s.evt with limits := rest ++ [(num, inst, s.ct, 0)] } } num inst code d0 d1 d2
  | none =>
    let (code, d0, d1, d2) := mk n
    raise { s with evt := { s.evt with limits := rest ++ [(num, inst, s.ct, 0)] } } num inst code d0 d1 d2

/-! ## FAULT_N (R582, R587) -/

/-- The causes of GLB_FAULT, as bit numbers. -/
def fltBoot : Nat := 0
def fltDrc : Nat := 1
def fltHeadless : Nat := 2
def fltThm : Nat := 3
def fltShutdown : Nat := 4
def fltSupply : Nat := 5
def fltPll : Nat := 6
def fltDramTrain : Nat := 7

/-- Sets or clears a cause of GLB_FAULT; a change raises EV_GLB_FAULT with the causes after and before. -/
def setFault (s : State) (b : Nat) (v : Bool) : State :=
  let old := s.glb.fault
  let m : BitVec 8 := BitVec.ofNat 8 (2 ^ b)
  let new := if v then old ||| m else old &&& ~~~m
  if new = old then s
  else raise { s with glb := { s.glb with fault := new } } 10 0 (if new = 0 then 1 else 0) (w32 new.toNat) (w32 old.toNat)

/-- FAULT_N is low while any cause is set (R582). -/
def faultN (s : State) : Bool := s.glb.fault == 0

/-- GLB_READY as a word (R587). -/
def readyWord (s : State) : Word := pack [(s.glb.ready.toNat, 0), (s.glb.readyPorts.toNat, 16)]

/-- A stage of bring-up is ready: GLB_READY records the first time and EV_GLB_READY reports it (R581). -/
def setReady (s : State) (b : Fin 5) : State :=
  if s.glb.ready.getLsbD b.val then s
  else
    let s := { s with glb := { s.glb with ready := s.glb.ready ||| BitVec.ofNat 5 (2 ^ b.val) } }
    raise s 9 b.val 0 (readyWord s)

/-! ## Interrupts (R64, R65, R87) -/

/-- Bus Master Enable is set and the function is in D0: host memory can be reached. -/
def busMaster (s : State) : Bool := s.bob.bme && !s.bob.d3hot && s.bob.linkUp

/-- A message of a vector falls due: it is sent, or its pending bit is set while the vector or the function is masked or Bus Master
Enable is clear (R65). -/
def sendMsix (s : State) (v : Nat) : State :=
  match idx 64 v with
  | none => s
  | some v =>
    if s.bob.fmask || bit (vget s.bob.msix v).ctrl 0 || !busMaster s then
      { s with bob := { s.bob with pba := vset s.bob.pba v true } }
    else emit s (.msix v.val)

/-! ## Bobbins (R55, R59, R80-R82) -/

/-- Entries of a bobbin's ring. -/
def ringN (r : Bobbin) : Nat := 2 ^ r.log2n

/-- Entries in use. -/
def ringUsed (r : Bobbin) : Nat := (r.tail + 2 * ringN r - r.head % (2 * ringN r)) % (2 * ringN r)

/-- Entries free. -/
def ringFree (r : Bobbin) : Nat := ringN r - ringUsed r

/-- Address of the entry of an index. -/
def entryAddr (r : Bobbin) (i : Nat) : Nat := r.base + 32 * (i % ringN r)

/-- An index moved on by `k`. -/
def idxAdd (r : Bobbin) (i k : Nat) : Nat := (i + k) % (2 * ringN r)

/-- A bobbin that is enabled and not halted works. -/
def ringLive (r : Bobbin) : Bool := r.en && !r.halted

/-- DRAM takes requests: in service and not frozen (R510, R524, R532). -/
def dramReady (s : State) : Bool := s.drc.ready && !s.drc.frozen

/-- Why an access to a space fails at once, as an ERR_KIND of R80: host memory that cannot be reached, a frozen DRAM controller, an
uncorrectable SRAM word read. -/
def accessErr (s : State) (space a len : Nat) (isRead : Bool) : Option Nat :=
  match space with
  | 0 => if busMaster s then none else some 7
  | 1 => if s.drc.frozen then some 6 else none
  | 2 => if isRead && s.drcx.sramBad.any (fun w => decide (w < a + len ∧ a < w + 8)) then some 5 else none
  | _ => none

/-- Requests to this space are held: the DRAM is neither in service nor frozen (R510, R512, R526). -/
def accessHeld (s : State) (space : Nat) : Bool := space == 1 && !s.drc.ready && !s.drc.frozen

/-- The DRC takes a request to serve it later, behind those that wait (R510, R520). -/
def queueReq (s : State) (q : DramReq) : State := { s with drcx := { s.drcx with waiting := s.drcx.waiting ++ [q] } }

/-- The same for a source that has one such request at a time. -/
def hold (s : State) (q : DramReq) : State := if s.drcx.waiting.contains q then s else queueReq s q

/-- Bytes written to DRAM: at once, or behind what waits while the DRC holds requests. -/
def dramPut (s : State) (a : Nat) (bs : List Byte) : State := if accessHeld s 1 then queueReq s (.put none a bs) else dramWrite s a bs

/-- A bobbin halts on a failed access: HALTED and ERR_KIND, the first-error latch or its counter, EV_BOB_DMA_HALT and the error
vector (R80-R82). -/
def haltBob (s : State) (n : Fin 32) (kind : Nat) (isWrite : Bool) (space addr : Nat) (ring : Bool) : State :=
  let s := { s with bob := { s.bob with rings := vmod s.bob.rings n fun r => { r with halted := true, errKind := kind } } }
  let s :=
    if s.bob.errValid then { s with bob := { s.bob with errMore := satAdd 0xFFFF s.bob.errMore 1 } }
    else { s with bob := { s.bob with
      errValid := true, errDir := isWrite, errSpace := space, errRing := ring, errBobbin := n.val, errKind := kind, errAddr := addr } }
  let s := raise s 242 n.val kind
  if s.bob.errIrqEn then sendMsix s s.bob.errVector else s

/-- Whether the part is the consumer of a bobbin (R53): it then writes back the head, otherwise the tail (R63). -/
def hostProduced (n : Fin 32) : Bool := n.val < 16 || n.val ≥ 28 || (n.val < 24 && n.val % 2 == 0)

def modRing (s : State) (n : Fin 32) (f : Bobbin → Bobbin) : State := { s with bob := { s.bob with rings := vmod s.bob.rings n f } }

/-- The changed index of a bobbin is written back, and a message that waited for it is sent; a write that cannot be issued halts the bobbin,
which keeps a DMA descriptor in progress, and the write stays due (R63, R80) [A 84]. -/
def flushWb (s : State) (n : Fin 32) : State :=
  let r := vget s.bob.rings n
  if !(r.wbDue && r.wbEn && !r.halted) then s
  else if accessHeld s r.space then hold s (.writeBack n)
  else match accessErr s r.space r.wb 4 false with
    | some k => haltBob s n k true r.space r.wb true
    | none =>
      let v := if hostProduced n then r.head else r.tail
      let s := modRing (spaceWrite s r.space r.wb (natLe v 4)) n fun r => { r with wbDue := false, msgDue := false }
      if r.msgDue then sendMsix s r.vector else s

/-! ## Signalled entries (R64) -/

/-- A bobbin's message falls due: the pending count clears; the message follows the write-back of the index it reports (R63, R64). -/
def sendBobMsix (s : State) (n : Fin 32) : State :=
  let r := vget s.bob.rings n
  let s := modRing s n fun r => { r with pend := 0, pendAt := 0 }
  if r.wbDue && r.wbEn then flushWb (modRing s n fun r => { r with msgDue := true }) n else sendMsix s r.vector

/-- With IRQ_EN set, the message is sent when the count has reached the larger of 1 and MOD_COUNT (R64). -/
def signalDue (s : State) (n : Fin 32) : State :=
  let r := vget s.bob.rings n
  if r.irqEn && r.pend > 0 && r.pend ≥ r.modCount then sendBobMsix s n else s

/-- An entry of a bobbin completes as a signalled entry and is counted (R64). -/
def signalEntry (s : State) (n : Fin 32) : State :=
  signalDue (modRing s n fun r => { r with pend := r.pend + 1, pendAt := if r.pend = 0 then s.ct else r.pendAt }) n

/-! ## Epochs (R181, R490) -/

/-- The place of a block's epoch register. -/
def epIdx : WriteBlock → Fin 9
  | .pdp => 0 | .fir => 1 | .nhd => 2 | .hlk => 3 | .cam => 4 | .mot => 5 | .tim => 6 | .drc => 7 | .hkp => 8

/-- A write of the active sequencer reaches a block: the block has now seen its epoch. Writes of an older epoch no longer count as
repeats that could come again. -/
def touch (s : State) (b : WriteBlock) : State :=
  { s with ep := vmod s.ep (epIdx b) fun e => if e.epoch = s.seq.epoch then e else { e with epoch := s.seq.epoch } }

/-- Content of a schedule write to PDP: the opcode of its command, then the parameter words, numbered [A 56]. -/
def scheduleOf (op : Nat) (ws : List Word) : List (Nat × Word) := (0, w32 op) :: ws.zipIdx.map fun x => (x.2 + 1, x.1)

/-- A schedule write of the active sequencer reaches PDP, which keeps its epoch, pair, tag and content (R181, R267). -/
def schedule (s : State) (pair : BitVec 8) (tag : BitVec 16) (op : Nat) (ws : List Word) : State :=
  let s := touch s .pdp
  { s with ep := vmod s.ep (epIdx .pdp) fun e => { e with applied := (e.epoch, pair, tag, scheduleOf op ws) :: e.applied } }

/-- The schedule write that a command causes. -/
def scheduleCmd (s : State) (c : Cmd) (op : Nat) : State := schedule s (BitVec.ofNat 8 c.pair.val) c.tag op c.words

end Sys2Proof.Machine
end

