-- ==== Sys2Proof/Machine/Protocol.lean ====
section
/-! DEFINITION. What every command shares: the checks of R612 in their order, when a command may start (R100-R102), and the replies it
produces (R97-R99, R105, R106). -/

namespace Sys2Proof.Machine

open Sys2Proof

/-! ## Status codes (R98) -/

def stOk : Nat := 0x00
def stAccepted : Nat := 0x01
def stBadOpcode : Nat := 0x10
def stBadLength : Nat := 0x11
def stBadParam : Nat := 0x12
def stBadState : Nat := 0x13
def stBusy : Nat := 0x14
def stNoResource : Nat := 0x15
def stVersion : Nat := 0x20
def stNotPrivileged : Nat := 0x21
def stAbandoned : Nat := 0x30
def stFailed : Nat := 0x31
def stTimeout : Nat := 0x32
def stInterlock : Nat := 0x40
def stThermal : Nat := 0x41
def stHwFault : Nat := 0x50

/-- A parameter word without reserved bits. -/
def all32 : Word := 0xFFFFFFFF

/-- A panel is active or queued. -/
def panelOpen (s : State) : Bool := s.pdp.active.isSome || s.pdp.queued.isSome

/-- DETAIL that names a parameter word (R99). -/
def dWord (i : Nat) : Nat := 0x0100 + i

/-- What the interpreter knows of an operation before its own checks: opcode, whether a number of parameter words fits, whether a
reserved bit of a parameter word is set, whether the packet needs pair 0 when it comes from a pair, whether it is asynchronous. -/
structure CmdSpec where
  op : Nat
  lenOk : List Word → Bool
  rsvOk : List Word → Bool := fun _ => true
  priv : Fin 4 → List Word → Bool := fun _ _ => false
  async : Bool := false

/-- The operation takes exactly `n` words, whose bits outside `masks` are reserved. -/
def fixedSpec (op : Nat) (masks : List Word) (async : Bool := false) (priv : Bool := false) : CmdSpec where
  op := op
  lenOk ws := ws.length == masks.length
  rsvOk ws := (ws.zip masks).all fun p => only p.1 p.2
  priv _ _ := priv
  async := async

/-- Opcode of HLK.LOOPBACK, which a switch-over abandons (R109). -/
def opLoopback : Nat := 0x0604

/-- Parameter word `i` of a packet. -/
def pw (c : Cmd) (i : Nat) : Word := c.words.getD i 0

/-- How a command's own part ends: a final reply, or work that goes on in the background. -/
inductive CmdRes where
  | done (status detail : Nat) (results : List Word) (s : State)
  | started (s : State)

/-- The command completes (R98: OK). -/
def CmdRes.ok (s : State) (results : List Word := []) : CmdRes := .done stOk 0 results s

/-- The command is rejected and has no effect. -/
def CmdRes.reject (s : State) (status detail : Nat) : CmdRes := .done status detail [] s

/-- BAD_PARAM naming word `i`. -/
def CmdRes.badParam (s : State) (i : Nat) : CmdRes := .done stBadParam (dWord i) [] s

/-- BAD_STATE with a DETAIL. -/
def CmdRes.badState (s : State) (detail : Nat) : CmdRes := .done stBadState detail [] s

/-- Checks in order: the first one that fails gives its reply, otherwise the effect. -/
def firstFail (s : State) : List (Bool × Nat × Nat) → CmdRes → CmdRes
  | [], r => r
  | (bad, st, det) :: cs, r => if bad then .done st det [] s else firstFail s cs r

/-- The same, with the result worked out only when every check passes: later checks read structures that the earlier ones bound. -/
def firstFailThen (s : State) (cs : List (Bool × Nat × Nat)) (r : Unit → CmdRes) : CmdRes :=
  match cs.find? (·.1) with
  | some (_, st, det) => .done st det [] s
  | none => r ()

/-- A failed check that names a parameter word. -/
def chkW (bad : Bool) (i : Nat) : Bool × Nat × Nat := (bad, stBadParam, dWord i)

/-- A failed check of the target's state. -/
def chkS (bad : Bool) (detail : Nat) : Bool × Nat × Nat := (bad, stBadState, detail)

/-- A check that gives BAD_PARAM with a DETAIL. -/
def chkP (bad : Bool) (detail : Nat) : Bool × Nat × Nat := (bad, stBadParam, detail)

/-- The active sequencer runs firmware: granted, taken over, and neither halted nor locked up (R476, R485, R491, R498, R579). -/
def fwRuns (s : State) : Bool :=
  s.seq.granted && !s.seq.headless && s.seq.takeover.isNone &&
    !(vget s.seq.sqs s.seq.active).halted && (vget s.seq.sqs s.seq.active).lockup == 0

/-- The command interpreter takes commands (R574, R577, R498). -/
def accepting (s : State) : Bool := s.fw.accepting && fwRuns s

/-- Entries a reply occupies (R66, R97). -/
def replyEntries (r : Reply) : Nat := ceilDiv (16 + 4 * r.results.length) 32

/-- The reply bobbin of a pair, and its command bobbin (R53). -/
def replyBob (p : Fin 4) : Fin 32 := ⟨17 + 2 * p.val, by omega⟩
def cmdBob (p : Fin 4) : Fin 32 := ⟨16 + 2 * p.val, by omega⟩

/-- A staged reply cannot be written: the reply bobbin is not working or lacks room for it (R67). -/
def replyHeld (s : State) (p : Fin 4) : Bool :=
  match (vget s.cmd.pairs p).staged with
  | [] => false
  | r :: _ =>
    let b := vget s.bob.rings (replyBob p)
    !ringLive b || ringFree b < replyEntries r

/-- Whether a reply of a pair has found no room and one still waits: the mark falls only with the last waiting reply (R67). -/
def markFull (s : State) (p : Fin 4) : State :=
  let full := replyHeld s p
  { s with cmd := { s.cmd with pairs := vmod s.cmd.pairs p fun q => { q with full := !q.staged.isEmpty && (q.full || full) } } }

/-- A reply is produced: it is staged behind the earlier ones of its pair; one produced while its reply bobbin stays disabled after a
host-interface reset counts in REPLIES_HELD (R67, R86). -/
def stageReply (s : State) (p : Fin 4) (tag op : BitVec 16) (status detail : Nat) (results : List Word) (interim : Bool) : State :=
  let r : Reply := { tag := tag, op := op, status := status, detail := detail, interim := interim, results := results, ctDone := s.ct }
  let late := (vget s.cmd.pairs p).afterReset
  markFull { s with
    cmd := { s.cmd with pairs := vmod s.cmd.pairs p fun q => { q with staged := q.staged ++ [r], counted := if q.afterReset then q.counted + 1 else q.counted } }
    bob := { s.bob with repliesHeld := if late then satAdd 0xFFFF s.bob.repliesHeld 1 else s.bob.repliesHeld } } p

/-- The outstanding command of a tag (R100). -/
def findTag (s : State) (p : Fin 4) (tag : BitVec 16) : Option OutCmd :=
  (vget s.cmd.pairs p).outs.find? fun o => o.pkt.tag == tag

/-- A command is no longer outstanding. -/
def dropTag (s : State) (p : Fin 4) (tag : BitVec 16) : State :=
  { s with cmd := { s.cmd with pairs := vmod s.cmd.pairs p fun q => { q with outs := q.outs.filter fun o => o.pkt.tag != tag } } }

/-- The cancels that waited for the end of a command reply: outcome 0 when it was ABANDONED, else 1 (R96). -/
def endCancels (s : State) (p : Fin 4) (tag : BitVec 16) (status : Nat) : State :=
  let mine (w : CancelWait) : Bool := w.target == p && w.targetTag == tag
  (s.cmd.cancels.filter mine).foldl (fun s w =>
    stageReply (dropTag s w.pair w.tag) w.pair w.tag 0x0103 stOk 0 [if status = stAbandoned then 0 else 1] false)
    { s with cmd := { s.cmd with cancels := s.cmd.cancels.filter (!mine ·) } }

/-- An outstanding command ends and produces its final reply (R106); a tag that is not outstanding produces none. While no sequencer runs, the end
waits for the one that takes over (R108, R492). -/
def finishTag (s : State) (p : Fin 4) (tag : BitVec 16) (status detail : Nat) (results : List Word := []) : State :=
  match findTag s p tag with
  | none => s
  | some o =>
    if fwRuns s then endCancels (stageReply (dropTag s p tag) p tag o.op status detail results false) p tag status
    else { s with cmd := { s.cmd with
      ended := s.cmd.ended ++ [{ pair := p, tag := tag, status := status, detail := detail, results := results }] } }

/-- Background work ends its command, unless a takeover has abandoned that one (R109). -/
def finishLive (s : State) (dead : Bool) (p : Fin 4) (tag : BitVec 16) (status detail : Nat) (results : List Word := []) : State :=
  if dead then s else finishTag s p tag status detail results

/-- The same for work that holds its command as long as it is to be answered. -/
def finishOpt (s : State) (c : Option (Fin 4 × BitVec 16)) (status detail : Nat) (results : List Word := []) : State :=
  match c with
  | some (p, tag) => finishTag s p tag status detail results
  | none => s

/-- The new active replies for the commands that have ended meanwhile, in the order of their ends (R492). -/
def replayEnds (s : State) : State :=
  s.cmd.ended.foldl (fun s f => finishTag s f.pair f.tag f.status f.detail f.results) { s with cmd := { s.cmd with ended := [] } }

/-- Checks 1 to 7 of R612 on a packet with valid framing; `spec` is none for an opcode that names no operation. -/
def fetchCheck (s : State) (spec : Option CmdSpec) (op : Nat) (c : Cmd) : Option (Nat × Nat) :=
  let hello := op == 0x0101
  let ver := s.cmd.cmdVer.toNat
  let v := c.version.toNat
  if (findTag s c.pair c.tag).isSome then some (stBadState, 0x0003)
  else if !hello && ver == 0 then some (stBadState, 0x0004)
  else if !hello && !(v / 256 == ver / 256 && v % 256 ≤ ver % 256) then some (stVersion, 0x01)
  else match spec with
    | none => some (stBadOpcode, 0)
    | some sp =>
      if !sp.lenOk c.words then some (stBadLength, 0)
      else if c.rsvHi != 0 || c.rsvWord != 0 || c.flags.toNat / 4 != 0 || !sp.rsvOk c.words then some (stBadParam, 0x0001)
      else if sp.priv c.pair c.words && c.pair != 0 then some (stNotPrivileged, 0x0007)
      else none

/-- FLAGS bit 0 and bit 1 (R89). -/
def replyAlways (c : Cmd) : Bool := c.flags.getLsbD 0
def ordered (c : Cmd) : Bool := c.flags.getLsbD 1

/-- An outstanding command may start: every earlier command of its pair is an asynchronous one that has started, none of them is ORDERED, and an
ORDERED one starts only when it is the oldest (R102). -/
def mayStart (s : State) (c : Cmd) : Bool :=
  let before := (vget s.cmd.pairs c.pair).outs.takeWhile fun o => o.pkt.tag != c.tag
  before.all (fun o => o.started && o.async && !ordered o.pkt) && (!ordered c || before.isEmpty)

/-- The interpreter may fetch from a pair: it runs, the pair is not stopped, fewer than 48 commands are outstanding, no reply of the pair is
held, and none that queued behind a held one still waits (R67, R91, R101). -/
def mayFetch (s : State) (p : Fin 4) : Bool :=
  let q := vget s.cmd.pairs p
  accepting s && !q.stopped && q.outs.length < 48 && !replyHeld s p && !(q.full && !q.staged.isEmpty)

/-- A command is fetched: it is outstanding and has not started (R100). -/
def addOut (s : State) (op : Nat) (c : Cmd) : State :=
  { s with cmd := { s.cmd with pairs := vmod s.cmd.pairs c.pair fun q =>
    { q with outs := q.outs ++ [{ op := BitVec.ofNat 16 op, pkt := c }] } } }

/-- A fetched command starts and its own part runs; its replies follow R105 and R106. -/
def startCmd (s : State) (spec : CmdSpec) (c : Cmd) (body : State → CmdRes) : State :=
  if !mayStart s c then s
  else
    let op := BitVec.ofNat 16 spec.op
    let s1 := { s with cmd := { s.cmd with pairs := vmod s.cmd.pairs c.pair fun q =>
      { q with outs := q.outs.map fun o => if o.pkt.tag == c.tag then { o with started := true, async := spec.async } else o } } }
    match body s1 with
    | .done st det res s2 =>
      let s2 := if spec.async && replyAlways c && st == stOk then stageReply s2 c.pair c.tag op stAccepted 0 [] true else s2
      finishTag s2 c.pair c.tag st det res
    | .started s2 => if spec.async && replyAlways c then stageReply s2 c.pair c.tag op stAccepted 0 [] true else s2

/-- A command as one step. A packet already fetched and waiting starts when it may; another packet is fetched when the interpreter
may fetch, answered with the first check of R612 that fails, and otherwise started when it may. While nothing of this is possible the
packet stays in its ring and nothing changes. -/
def runCmd (s : State) (spec : CmdSpec) (c : Cmd) (body : State → CmdRes) : State :=
  if !accepting s then s
  else match findTag s c.pair c.tag with
    | some o =>
      if o.pkt = c ∧ o.op.toNat = spec.op ∧ !o.started then startCmd s spec c body
      else if mayFetch s c.pair then stageReply s c.pair c.tag (BitVec.ofNat 16 spec.op) stBadState 0x0003 [] false
      else s
    | none =>
      if !mayFetch s c.pair then s
      else match fetchCheck s (some spec) spec.op c with
        | some (st, det) => stageReply s c.pair c.tag (BitVec.ofNat 16 spec.op) st det [] false
        | none => startCmd (addOut s spec.op c) spec c body

/-- The same for a command that reads DRAM as it starts: while the DRC holds requests it waits, fetched, as the request `q` (R512). -/
def runReading (s : State) (spec : CmdSpec) (c : Cmd) (q : DramReq) (body : State → CmdRes) : State :=
  if !(accessHeld s 1 && accepting s) then runCmd s spec c body
  else match findTag s c.pair c.tag with
    | some o => if o.pkt = c ∧ o.op.toNat = spec.op ∧ !o.started then hold s q else runCmd s spec c body
    | none =>
      if mayFetch s c.pair && (fetchCheck s (some spec) spec.op c).isNone then hold (addOut s spec.op c) q else runCmd s spec c body

end Sys2Proof.Machine
end

