-- ==== Sys2Proof/Machine/Axis.lean ====
section
/-! DEFINITION. What FIR and MOT share of an axis: its settings, its position between ticks, its ceiling (R412, R437). -/

namespace Sys2Proof.Machine

open Sys2Proof

def axis (s : State) (n : Fin 6) : Axis := vget s.mot.axes n
def modAxis (s : State) (n : Fin 6) (f : Axis → Axis) : State := { s with mot := { s.mot with axes := vmod s.mot.axes n f } }

/-- Velocity in whole address units per second. -/
def wholeVel (v : Int) : Int := v / 2 ^ 64

/-- The axis is configured: MOT.SET_AXIS has completed on it (R438). -/
def axisUsable (s : State) (a : Nat) : Bool :=
  match idx 6 a with
  | some n => (axis s n).configured
  | none => false

/-- The axis is at or below its ceiling (R437). -/
def axisUnderCeiling (s : State) (a : Nat) : Bool :=
  match idx 6 a with
  | some n =>
    match (axis s n).ceil with
    | some c => decide ((axis s n).v.natAbs ≤ c * 2 ^ 64)
    | none => true
  | none => true

/-- FIR sets or releases the ceiling of its axis, converted from lines per second through SCALE (R240, R437, R445). -/
def setAxisCeiling (s : State) (a : Nat) (lps : Option Nat) : State :=
  match idx 6 a with
  | none => s
  | some n =>
    let c := lps.map fun l => l * 2 ^ 32 / max 1 s.fir.scale
    let old := (axis s n).ceil
    let s := modAxis s n fun x => { x with ceil := c, replan := true }
    match c, old with
    | some c, none => raise (modAxis s n fun x => { x with underCeil := false }) 152 n.val 0 (w32 c)
    | some c, some d => if c < d then raise (modAxis s n fun x => { x with underCeil := false }) 152 n.val 0 (w32 c) else s
    | none, some _ => raise s 152 n.val 2 0
    | none, none => s

/-- Position of an axis `d` FIRE cycles after its latest state, under constant jerk, with 32 fraction bits. -/
def cubicAt (p v a jk : Int) (d : Int) : Int :=
  p + (v * d * (6 * 400000000 ^ 2) + a * d * d * (3 * 400000000) + jk * 2 ^ 64 * d * d * d) / (6 * 400000000 ^ 3 * 2 ^ 32)

end Sys2Proof.Machine
end

