-- ==== Sys2Proof/Machine/Sense.lean ====
section
/-! DEFINITION. What HKP's measurements mean: validity, cover, group temperatures, jetting windows (R536-R541), and the conditions other
blocks read (R240, R244, R360, R542-R546, R584). -/

namespace Sys2Proof.Machine

open Sys2Proof

def chan (s : State) (n : Fin 46) : HkpCh := vget s.hkp.chans n
def modChan (s : State) (n : Fin 46) (f : HkpCh → HkpCh) : State := { s with hkp := { s.hkp with chans := vmod s.hkp.chans n f } }
def modGroup (s : State) (g : Fin 9) (f : HkpGroup → HkpGroup) : State := { s with hkp := { s.hkp with groups := vmod s.hkp.groups g f } }
def modHead (s : State) (p : Fin 16) (f : HkpHead → HkpHead) : State := { s with hkp := { s.hkp with heads := vmod s.hkp.heads p f } }

/-- FIRE cycles of a round (R534). -/
def roundCt : Nat := 6400000

/-- The ADC's own calibration holds every value (R558). -/
def adcRuns (s : State) : Bool := (vget s.cal.groups (10 : Fin 11)).running.isSome

/-- A sensor: a channel, or TEMPn of a port (R537). -/
inductive SensorId where
  | ch (n : Fin 46)
  | head (p : Fin 16) (n : Nat)
  deriving DecidableEq, Repr

/-- NTEMP of a port; 0 before identification. -/
def ntempOf (s : State) (p : Fin 16) : Nat :=
  match (vget s.hlk.ports p).rank with
  | some r => r.ntemp
  | none => 0

/-- The sensor is configured, sound and its value less than two rounds old; a head-reported temperature is valid while STATUS is not
silent (R537). -/
def sensorValid (s : State) : SensorId → Bool
  | .ch n =>
    let c := chan s n
    c.mode != 0 && !c.broken && match c.sampled with
      | some t => adcRuns s || s.ct < t + 2 * roundCt
      | none => false
  | .head p n => decide (n < ntempOf s p) && !(vget s.hlk.ports p).silent && decide (n < (vget s.hlk.ports p).temps.length)

/-- The value of a sensor in 0.1 degrees; 0x7FFF when broken (R536). -/
def sensorTemp (s : State) : SensorId → Int
  | .ch n => if (chan s n).broken then 32767 else (chan s n).temp
  | .head p n => (vget s.hlk.ports p).temps.getD n 0

/-- The die sensor paired with a die sensor by hardware (R537). -/
def diePartner (n : Nat) : Nat := if n % 2 = 0 then n + 1 else n - 1

/-- The channel that names a sensor as its partner. -/
def namedBy (s : State) (want : HkpCh → Bool) : Option SensorId :=
  ((indices 46).find? fun c => c.val < 40 && (chan s c).mode != 0 && want (chan s c)).map SensorId.ch

/-- The partner of a sensor (R537). -/
def partner (s : State) : SensorId → Option SensorId
  | .ch n =>
    if n.val ≥ 40 then (idx 46 (diePartner n.val)).map SensorId.ch
    else
      let c := chan s n
      if c.pair < 40 then (idx 46 c.pair).map SensorId.ch
      else if c.pair < 44 then (idx 16 c.unit).map fun p => SensorId.head p (c.pair - 40)
      else namedBy s fun d => d.pair == n.val
  | .head p n => namedBy s fun d => d.role == 1 && d.unit == p.val && d.pair == 40 + n

/-- A sensor that is not valid is covered by a valid partner (R537). -/
def covered (s : State) (x : SensorId) : Bool :=
  !sensorValid s x && match partner s x with
    | some y => sensorValid s y
    | none => false

/-- The configured channels of a board group, or the die sensors (R538). -/
def groupSensors (s : State) (g : Fin 9) : List (Fin 46) :=
  (indices 46).filter fun n =>
    if g.val = 8 then n.val ≥ 40 else n.val < 40 && (chan s n).mode != 0 && (chan s n).role == 2 && (chan s n).unit == g.val

/-- The highest of a list of temperatures. -/
def maxTemp : List Int → Option Int
  | [] => none
  | x :: xs => some (xs.foldl max x)

/-- The temperature of a group; none while no sensor gives one (R538). -/
def groupTemp (s : State) (g : Fin 9) : Option Int :=
  maxTemp (((groupSensors s g).filter fun n => sensorValid s (.ch n) || ((chan s n).broken && !covered s (.ch n))).map fun n =>
    sensorTemp s (.ch n))

/-- The sensors of the head on a port (R540). -/
def headSensors (s : State) (p : Fin 16) : List SensorId :=
  (((indices 46).filter fun n => n.val < 40 && (chan s n).mode != 0 && (chan s n).role == 1 && (chan s n).unit == p.val).map SensorId.ch) ++
    (List.range (ntempOf s p)).map (SensorId.head p)

/-- A sensor as EV_HKP_WINDOW names it (R563). -/
def sensorCode : SensorId → Nat
  | .ch n => n.val
  | .head _ n => 40 + n

/-- A sensor keeps the head out of its window, whose edges are drawn in by `h` (R540). -/
def outOfWindow (s : State) (p : Fin 16) (h : Nat) (x : SensorId) : Bool :=
  let w := vget s.hkp.heads p
  if sensorValid s x then
    let t := sensorTemp s x
    if h = 0 then t < w.lo || t ≥ w.hi else t < w.lo + h || t > w.hi - h
  else !covered s x

/-- A head with a covered sensor holds WARN latched (R540). -/
def latchHead (s : State) (p : Fin 16) : State :=
  if (headSensors s p).any (covered s) && !(vget s.hkp.heads p).latched then
    raise (modHead s p fun w => { w with latched := true }) 224 (16 + p.val) 1
      (w32 (toBits 32 ((maxTemp (((headSensors s p).filter (sensorValid s)).map (sensorTemp s))).getD 0)))
  else s

/-- HKP evaluates a head's window; a head that leaves or enters it is reported with the sensor that did so (R540, R541). -/
def evalHead (s : State) (p : Fin 16) (at' : Option SensorId) : State :=
  let s := latchHead s p
  let w := vget s.hkp.heads p
  let bad := (headSensors s p).find? (outOfWindow s p (if w.inside then 0 else w.hyst))
  match w.inside, bad with
  | true, some x =>
    raise (modHead s p fun w => { w with inside := false }) 229 p.val 0 (w32 (sensorCode x)) (w32 (toBits 32 (sensorTemp s x)))
  | false, none =>
    let x := match at' with
      | some x => some x
      | none => (headSensors s p).head?
    let s := modHead s p fun w => { w with inside := true }
    match x with
    | some x => raise s 229 p.val 1 (w32 (sensorCode x)) (w32 (toBits 32 (sensorTemp s x)))
    | none => raise s 229 p.val 1 63
  | _, _ => s

/-- A STATUS frame came, or STATUS fell silent (R541). -/
def onHeadTemps (s : State) (p : Fin 16) : State := evalHead s p (if ntempOf s p = 0 then none else some (.head p 0))

/-- A head has been identified: its window is that of its rank record (R541). -/
def onIdentified (s : State) (p : Fin 16) : State :=
  match (vget s.hlk.ports p).rank with
  | some r => evalHead (modHead s p fun w => { w with lo := r.jetLo, hi := r.jetHi }) p none
  | none => s

/-- The head is inside its jetting window (R244, R540). -/
def headInWindow (s : State) (p : Fin 16) : Bool := (vget s.hkp.heads p).inside
/-- The die group is below WARN and WARN is not latched (R360, R539). -/
def dieBelowWarn (s : State) : Bool := let g := vget s.hkp.groups (8 : Fin 9); !g.inWarn && !g.latched
/-- SHUTDOWN is latched (R544). -/
def shutdownOn (s : State) : Bool := s.hkp.shutdown
/-- The thermal term of the line rate (R5, R542). -/
def thermalRate (s : State) : Nat := s.hkp.term.getD 80000
/-- Throttling stops panels that become active: enforced with a feed that is no own axis (R240, R542). -/
def throttleStop (s : State) : Bool := s.hkp.throttle == .enforced && s.fir.src != 1

/-- Monitors whose rails stop firing while out of their window: VDD_CORE, VDD_SRAM, VDDA_SD, VDDH_SD, VDDQ_DDR (R584, R593). -/
def firingRails : List (Fin 16) := [0, 1, 2, 3, 4, 8, 9, 13, 14, 15]
def supplyStop (s : State) : Bool := firingRails.any fun m => (vget s.hkp.rails m).uv || (vget s.hkp.rails m).ov

/-- JET_EN as FIR takes it: low also during SHUTDOWN and for a firing supply (R244, R544, R584). -/
def jetOk (s : State) : Bool := s.fir.jetEn && !s.hkp.shutdown && !supplyStop s

end Sys2Proof.Machine
end

