-- ==== Sys2Proof/Machine/Path.lean ====
section
/-! DEFINITION. What PDP, FIR, NHD and HLK share: panels, cursors, how lines end, changes and superseded lines (R172-R190, R219-R224,
R247). -/

namespace Sys2Proof.Machine

open Sys2Proof

/-! ## Rows and ports (R7, R8, R141) -/

/-- Row-lane, port, row: 32 row-lanes per port, 384 nozzles per row-lane. -/
def portOf (g : Fin 512) : Fin 16 := ⟨g.val / 32, by omega⟩
def rowOf (g : Fin 512) : Fin 32 := ⟨g.val % 32, by omega⟩
def laneOf (p : Fin 16) (r : Fin 32) : Fin 512 := ⟨32 * p.val + r.val, by omega⟩
def nozzleOf (g : Fin 512) (k : Nat) : Nat := 384 * g.val + k

def hport (s : State) (p : Fin 16) : HlkPort := vget s.hlk.ports p
def modHport (s : State) (p : Fin 16) (f : HlkPort → HlkPort) : State := { s with hlk := { s.hlk with ports := vmod s.hlk.ports p f } }
def laneOfPort (s : State) (p : Fin 16) (l : Fin 2) : Lane := vget (hport s p).lanes l
def modLane (s : State) (p : Fin 16) (l : Fin 2) (f : Lane → Lane) : State := modHport s p fun h => { h with lanes := vmod h.lanes l f }

/-- The lane is in service (R307). -/
def laneUp (s : State) (p : Fin 16) (l : Fin 2) : Bool := (laneOfPort s p l).state == .up
/-- A lane is in service and the port is not held down (R316, R361). -/
def portUp (s : State) (p : Fin 16) : Bool := !(hport s p).held && (laneUp s p 0 || laneUp s p 1)

/-- Nozzles of a row in the head's rank record; 0 without one (R155, R359). -/
def rowNozzles (s : State) (p : Fin 16) (r : Nat) : Nat :=
  match (hport s p).rank with
  | some k => if r < k.nrows then (k.rows.getD r (0, 0)).1 else 0
  | none => 0
/-- Code width in bits of a port's head; 4 without one. -/
def codeWidth (s : State) (p : Fin 16) : Nat :=
  match (hport s p).rank with
  | some k => 2 ^ k.cw
  | none => 4

/-! ## Panels and lines (R20, R172, R219) -/

def panelEnd (pan : Panel) : Nat := pan.base + pan.lines
def panels (s : State) : List Panel := s.pdp.active.toList ++ s.pdp.queued.toList
/-- The open panel a line belongs to, lines running on across the hem (R172). -/
def panelAt (s : State) (abs : Nat) : Option Panel := (panels s).find? fun pan => pan.base ≤ abs && abs < panelEnd pan
def panelNamed (s : State) (num : BitVec 16) : Option Panel := (panels s).find? fun pan => pan.num == num
/-- The open panel of a number changed. -/
def modPanel (s : State) (num : BitVec 16) (f : Panel → Panel) : State :=
  { s with pdp := { s.pdp with
    active := s.pdp.active.map fun pan => if pan.num = num then f pan else pan
    queued := s.pdp.queued.map fun pan => if pan.num = num then f pan else pan } }
def takes (pan : Panel) (p : Fin 16) : Bool := (vget pan.ports p).takes
def partPorts (pan : Panel) : List (Fin 16) := (indices 16).filter (takes pan)
/-- The port takes part in an active or queued panel. -/
def inPanel (s : State) (p : Fin 16) : Bool := (panels s).any (takes · p)
def modPpt (s : State) (num : BitVec 16) (p : Fin 16) (f : PanelPort → PanelPort) : State :=
  modPanel s num fun pan => { pan with ports := vmod pan.ports p f }
def pport (s : State) (p : Fin 16) : PdpPort := vget s.pdp.ports p
def modPport (s : State) (p : Fin 16) (f : PdpPort → PdpPort) : State := { s with pdp := { s.pdp with ports := vmod s.pdp.ports p f } }

/-- Mapped row-lanes of a port in a panel. -/
def mappedLanes (pan : Panel) (p : Fin 16) : List (Fin 512) := (pan.map.map (·.rowlane)).filter fun g => portOf g == p
/-- Smallest value of a list of offsets; 0 for none. -/
def minList : List Nat → Nat
  | [] => 0
  | x :: xs => xs.foldl min x
def maxList (xs : List Nat) : Nat := xs.foldl max 0
/-- r_min of a port and of the bar, with 16 fraction bits (R223). -/
def rMin (s : State) (pan : Panel) (p : Fin 16) : Nat := minList ((mappedLanes pan p).map fun g => vget s.fir.rowOff g)
def rMinBar (s : State) (pan : Panel) : Nat := minList (pan.map.map fun m => vget s.fir.rowOff m.rowlane)

/-- One line with 32 fraction bits. -/
def one32 : Int := 2 ^ 32
/-- The feed position at which line `abs` of a panel stands with a row offset (R219, R223). -/
def targetOf (pan : Panel) (abs off : Nat) : Int := (pan.origin + (abs - pan.base : Nat)) * one32 + off * 2 ^ 16
/-- The line is guarded on the port (R174, R248). -/
def guarded (s : State) (pan : Panel) (p : Fin 16) (abs : Nat) : Bool :=
  s.fir.posU ≥ targetOf pan abs (rMin s pan p) - 4 * one32

/-- Width of a plane's samples as a code 0-3 for 1, 2, 4, 8 bits (R134). -/
def widthCode (format : Nat) : Nat := if format = 0 then 3 else format - 1

/-! ## Ranges of lines -/

/-- A range put among ranges that stand apart and rise; ranges that touch become one. -/
def insertRange (rs : List (Nat × Nat)) (lo hi : Nat) : List (Nat × Nat) :=
  if hi ≤ lo then rs
  else
    let near := rs.filter fun r => r.1 ≤ hi && lo ≤ r.2
    let m := near.foldl (fun m r => (min m.1 r.1, max m.2 r.2)) (lo, hi)
    rs.filter (·.2 < lo) ++ m :: rs.filter (hi < ·.1)

/-- A line taken out of ranges. -/
def removeLine (rs : List (Nat × Nat)) (x : Nat) : List (Nat × Nat) :=
  rs.flatMap fun r => if r.1 ≤ x && x < r.2 then (if r.1 < x then [(r.1, x)] else []) ++ (if x + 1 < r.2 then [(x + 1, r.2)] else []) else [r]

/-- Ranges cut off at a line. -/
def clipRanges (rs : List (Nat × Nat)) (hi : Nat) : List (Nat × Nat) := (rs.map fun r => (r.1, min r.2 hi)).filter fun r => r.1 < r.2

/-- Lines of [lo, hi) that lie in the ranges. -/
def overlapCount (rs : List (Nat × Nat)) (lo hi : Nat) : Nat := (rs.map fun r => min r.2 hi - max r.1 lo).sum

def rangesCount (rs : List (Nat × Nat)) : Nat := (rs.map fun r => r.2 - r.1).sum
def inRanges (rs : List (Nat × Nat)) (x : Nat) : Bool := rs.any fun r => r.1 ≤ x && x < r.2
/-- The first line from `x` on that is in no range. -/
def skipRanges (rs : List (Nat × Nat)) (x : Nat) : Nat :=
  match rs.find? fun r => r.1 ≤ x && x < r.2 with
  | some r => r.2
  | none => x

/-- The first line from `x` on that has not ended on the port and belongs to a panel it takes part in. -/
def nextOn (s : State) (p : Fin 16) (ended : List (Nat × Nat)) : Nat → Nat → Nat
  | 0, x => x
  | fuel + 1, x =>
    let y := skipRanges ended x
    match panelAt s y with
    | some pan => if takes pan p then (if y = x then x else nextOn s p ended fuel y) else nextOn s p ended fuel (panelEnd pan)
    | none => y

/-- F[p] and S[p] pass lines that have ended, and lines that ended are forgotten (R172, R247). -/
def settlePort (s : State) (p : Fin 16) : State :=
  let q := pport s p
  let f := nextOn s p q.ended 6 q.f
  let sx := nextOn s p q.ended 6 (max q.s f)
  let s := modPport s p fun q =>
    { q with f := f, s := sx, ended := q.ended.filter (f < ·.2), lines := q.lines.filter fun l => f ≤ l.abs && !inRanges q.ended l.abs }
  match s.pdp.active with
  | some pan =>
    if takes pan p && q.f < f then modPpt s pan.num p fun x => { x with minSlack := min x.minSlack (min 255 (sx - f)) } else s
  | none => s

/-! ## Superseded lines (R176, R177) -/

/-- The generation of a line that the head holds (R177). -/
def heldGen (l : PLine) : Nat := l.old.getD l.gen

/-- A change whose superseded lines have all ended on a port is done; EV_PDP_UNPICK_LATE reports the stale ones [A 29]. -/
def closeChanges (s : State) (p : Fin 16) : State :=
  let q := pport s p
  let open' (c : Change) : Bool := q.lines.any fun l => l.sent && heldGen l < c.gen
  let s := modPport s p fun q => { q with changes := q.changes.filter open' }
  (q.changes.filter fun c => !open' c).foldl (fun s c =>
    if c.stale > 0 then raise s 22 p.val 0 (w32 (c.gen % 65536)) (w32 c.stale) (w32 c.first) (w32 c.last) else s) s

/-- A line fires with the generation the head holds: STALE when a later change affected its port (R177). -/
def countStale (s : State) (pan : Panel) (p : Fin 16) (abs : Nat) : State :=
  let q := pport s p
  match q.lines.find? (·.abs = abs) with
  | none => s
  | some l =>
    if heldGen l < q.changed then
      let line := abs - pan.base
      let s := modPport s p fun q => { q with
        staleCnt := sat32 q.staleCnt 1
        changes := q.changes.map fun c =>
          if heldGen l < c.gen then { c with stale := c.stale + 1, first := if c.stale = 0 then line else c.first, last := line } else c }
      modPpt s pan.num p fun x => { x with stale := x.stale + 1 }
    else s

/-! ## How lines end (R175, R184, R185, R247) -/

/-- The end kind of a panel is set by its first cause (R184). -/
def setEndKind (s : State) (num : BitVec 16) (k : Nat) : State :=
  modPanel s num fun pan => { pan with endKind := some (pan.endKind.getD k) }

/-- Lines a swatch occupies (R285). -/
def swatchLen (d : SwatchDef) : Nat := (maxList (d.rows.map (·.2)) + 1) * d.stride * d.pitch

/-- The ports of a swatch's row-lanes that print lines of its panel. -/
def swatchPorts (r : SwatchRun) (d : SwatchDef) : List (Fin 16) :=
  (indices 16).filter fun p => d.rows.any (fun g => portOf g.1 == p) && r.map.any (fun m => portOf m.rowlane == p)

/-- A line of a port, counted from START, carries a dash of the swatch (R286). -/
def dashLine (d : SwatchDef) (p : Fin 16) (o : Nat) : Bool :=
  o % d.pitch < d.dash && d.rows.any fun g => portOf g.1 == p && g.2 == o / (d.stride * d.pitch)

/-- Once every line of the swatch has ended on every listed port, or its panel has ended: fired with EV_NHD_SWATCH_FIRED, or unfired on
every port, which ends the command FAILED with SWATCH_UNFIRED (R287, R293, R297). -/
def swatchSettle (s : State) (closed : Bool) : State :=
  match s.nhd.run, s.nhd.swatch with
  | some r, some d =>
    let n := swatchLen d
    let ports := swatchPorts r d
    let all := !ports.isEmpty && ports.all fun p => (r.ended.filter fun e => e.1 == p).length ≥ n
    if r.firedAt.isSome || !(all || closed) then s
    else if r.ended.any fun e => e.2.2 && dashLine d e.1 (e.2.1 - r.start) then
      let bad := (List.range n).countP fun o => ports.any fun p => !r.ended.contains (p, r.start + o, true)
      raise { s with nhd := { s.nhd with run := some { r with firedAt := some s.ct } } } 51 r.panel.toNat 0 (w32 r.start) (w32 n) (w32 bad)
    else finishLive { s with nhd := { s.nhd with run := none } } r.dead r.pair r.tag stFailed 0x100A
  | _, _ => s

/-- The swatch in print learns that lines have ended on a port (R289, R293). -/
def swatchLines (s : State) (p : Fin 16) (lo hi : Nat) (fired : Bool) : State :=
  match s.nhd.run, s.nhd.swatch with
  | some r, some d =>
    let a := r.base + r.start
    let from' := max lo a
    let ls := ((List.range (min hi (a + swatchLen d) - from')).map fun i => (p, from' + i - r.base, fired)).filter fun l =>
      !r.ended.any fun e => e.1 == p && e.2.1 == l.2.1
    if ls.isEmpty || !(swatchPorts r d).contains p then s
    else swatchSettle { s with nhd := { s.nhd with run := some { r with ended := r.ended ++ ls } } } false
  | _, _ => s

/-- EV_PDP_UNFIRED (R190). -/
def unfiredEvent (s : State) (who kind : Nat) (pan : Panel) (line count : Nat) : State :=
  if count = 0 then s else raise s 25 who kind (w32 line) (w32 count) (w32 pan.num.toNat)

/-- A line has ended on a port (R175). -/
def endedOn (s : State) (p : Fin 16) (abs : Nat) : Bool := abs < (pport s p).f || inRanges (pport s p).ended abs

/-- Lines of [lo, hi) that have not ended on a port. -/
def freshLines (s : State) (p : Fin 16) (lo hi : Nat) : Nat :=
  let q := pport s p
  (hi - max lo q.f) - overlapCount q.ended (max lo q.f) hi

/-- Lines [lo, hi) end on every port that takes part and on which they have not ended, SKIPPED or UNFIRED, without having been decided FIRE. -/
def endBar (s : State) (pan : Panel) (lo hi : Nat) (skip : Bool) : State :=
  if hi ≤ lo then s
  else
    let s := modPanel s pan.num fun pan =>
      if skip then { pan with skipped := pan.skipped + (hi - lo) } else { pan with unf := insertRange pan.unf (lo - pan.base) (hi - pan.base) }
    (partPorts pan).foldl (fun s p =>
      let n := freshLines s p lo hi
      let s := swatchLines s p lo hi false
      let s := modPpt s pan.num p fun x => if skip then { x with skipped := x.skipped + n } else { x with unfired := x.unfired + n }
      closeChanges (settlePort (modPport s p fun q => { q with ended := insertRange q.ended lo hi }) p) p) s

/-- Lines [lo, hi) end UNFIRED on the bar, reported as far as they were not UNFIRED before (R175, R190). -/
def unfireBar (s : State) (pan : Panel) (lo hi kind : Nat) : State :=
  let n := (hi - lo) - overlapCount pan.unf (lo - pan.base) (hi - pan.base)
  unfiredEvent (endBar s pan lo hi false) 0xFFFF kind pan (skipRanges pan.unf (lo - pan.base)) n

/-- A panel stops at a line at once: it and every later line are UNFIRED on every port (R165, R218, R244). -/
def cutPanel (s : State) (pan : Panel) (abs kind : Nat) : State :=
  let lo := max abs pan.base
  let hi := panelEnd pan
  let s := setEndKind s pan.num kind
  let s := { s with fir := { s.fir with
    next := if lo ≤ s.fir.next && s.fir.next < hi then hi else s.fir.next
    overFired := if lo < hi then 0 else s.fir.overFired } }
  unfireBar s ((panelNamed s pan.num).getD pan) lo hi kind

/-- A line decided FIRE has ended on a port; when it has ended on all of them the bar's counts take it (R185). -/
def noteDec (s : State) (pan : Panel) (p : Fin 16) (abs : Nat) (fired : Bool) (wasUp : Bool) : State :=
  match s.fir.decs.find? (·.abs = abs) with
  | none => s
  | some d =>
    let d := { d with
      left := d.left.filter (· != p), anyFired := d.anyFired || fired, anyUnfired := d.anyUnfired || !fired
      upUnfired := d.upUnfired || (!fired && wasUp) }
    if d.left.isEmpty then
      let s := { s with fir := { s.fir with decs := s.fir.decs.filter (·.abs != abs) } }
      let whole := d.anyFired && !d.upUnfired
      let line := abs - pan.base
      modPanel s pan.num fun pan => { pan with
        fired := if whole then pan.fired + 1 else pan.fired
        whole := if whole then insertRange pan.whole line (line + 1) else pan.whole
        unf := if d.anyUnfired then insertRange pan.unf line (line + 1) else pan.unf }
    else { s with fir := { s.fir with decs := s.fir.decs.map fun x => if x.abs = abs then d else x } }

/-- A line decided FIRE ends on one port, FIRED or UNFIRED (R247). -/
def endOn (s : State) (pan : Panel) (p : Fin 16) (abs : Nat) (fired : Bool) : State :=
  let wasUp := portUp s p
  let s := if fired then countStale s pan p abs else s
  let s := swatchLines s p abs (abs + 1) fired
  let line := abs - pan.base
  let s := modPpt s pan.num p fun x =>
    if fired then { x with fired := x.fired + 1, hits := insertRange x.hits line (line + 1) } else { x with unfired := x.unfired + 1 }
  let s := { s with fir := { s.fir with commits := vmod s.fir.commits p fun cs => cs.filter (·.abs != abs) } }
  let s := noteDec s pan p abs fired wasUp
  let s := closeChanges (settlePort (modPport s p fun q => { q with ended := insertRange q.ended abs (abs + 1) }) p) p
  if fired then s else unfiredEvent s p.val (((panelNamed s pan.num).bind (·.endKind)).getD 0) pan (abs - pan.base) 1

/-! ## Changes (R168, R175-R177) -/

/-- A change of generation affects a port: NOW queues its sent lines outside the guard for unpick, NOW and UNSENT discard its basted
lines; a head of version 1.0 takes no unpick lines (R342). -/
def changePort (s : State) (kind : Nat) (now : Bool) (p : Fin 16) : State :=
  if !inPanel s p then s
  else
    let q := pport s p
    let gen := s.pdp.gen
    let unpick := now && (hport s p).version != 0x0100
    let queue (l : PLine) : Bool := l.sent && unpick && match panelAt s l.abs with
      | some pan => !guarded s pan p l.abs
      | none => false
    let hit := (q.lines.filter fun l => queue l || !l.sent).map (·.abs)
    let first := match q.lines.find? (fun l => queue l || !l.sent) with
      | some l => minList (l.abs :: hit)
      | none => q.f
    let base := match panelAt s first with
      | some pan => pan.base
      | none => 0
    let s := modPport s p fun q => { q with
      changed := gen
      changes := q.changes ++ [{ gen := gen }]
      lines := (q.lines.filter (·.sent)).map fun l => if queue l then { l with unpick := true } else l }
    let s := raise s 21 p.val kind (w32 (gen % 65536)) (w32 (first - base)) (w32 (q.lines.countP queue)) (w32 (q.lines.countP fun l => !l.sent))
    closeChanges s p

/-- A change: the generation moves on and the affected ports recompute. -/
def pdpChange (s : State) (kind : Nat) (now : Bool) (ports : List (Fin 16)) : State :=
  ports.foldl (changePort · kind now ·) { s with pdp := { s.pdp with gen := s.pdp.gen + 1 } }

/-! ## Ports that go down and come back (R180, R260, R317) -/

/-- A port that takes part goes down: its unended lines are no longer held by a head. -/
def pathDown (s : State) (p : Fin 16) : State :=
  let s := (panels s).foldl (fun s pan => if takes pan p then modPpt s pan.num p fun x => { x with wentDown := true } else s) s
  closeChanges (modPport s p fun q => { q with down := true, lines := q.lines.filter fun l => !l.sent }) p

/-- The first line from F[p] on that is not guarded. -/
def firstFree (s : State) (p : Fin 16) : Nat → Nat → Nat
  | 0, x => x
  | fuel + 1, x =>
    match panelAt s x with
    | some pan => if guarded s pan p x then firstFree s p fuel (x + 1) else x
    | none => x

/-- A line of a port is still open and not guarded (R174). -/
def unguarded (s : State) (p : Fin 16) (abs : Nat) : Bool := (panelAt s abs).any fun pan => !guarded s pan p abs

/-- The guard reaches lines queued for unpick: they fire as sent (R175, R177). -/
def cancelUnpicks (s : State) : State :=
  (indices 16).foldl (fun s p =>
    if (pport s p).lines.any (·.unpick) then
      modPport s p fun q => { q with lines := q.lines.map fun l => { l with unpick := l.unpick && unguarded s p l.abs } }
    else s) s

/-- A port that takes part comes back: it receives lines from its first line that is not guarded (R180). -/
def pathUp (s : State) (p : Fin 16) : State :=
  let s := modPport s p fun q => { q with down := false }
  if !inPanel s p then s
  else
    let q := pport s p
    let x := match panelAt s q.f with
      | some pan =>
        let ahead := (s.fir.posU - targetOf pan q.f (rMin s pan p)) / one32 + 6
        firstFree s p (ahead.toNat) q.f
      | none => q.f
    settlePort (modPport s p fun q => { q with s := x, lines := q.lines.filter fun l => x ≤ l.abs && !l.sent }) p

/-- A port enters or leaves the overlay: a commit of source PORT in MODE NOW (R260). -/
def overlayChange (s : State) (p : Fin 16) (enter : Bool) : State :=
  let n := s.nhd
  let inside := n.writes.foldl (fun b j => match j.overlay with
    | some (q, e) => if q = p then e else b
    | none => b) (n.overlay.getLsbD p.val)
  if (enter && n.portOverlay && !inside) || (!enter && inside) then
    { s with nhd := { n with writes := n.writes ++ [{ source := .port, overlay := some (p, enter) }] } }
  else s

end Sys2Proof.Machine
end

