-- ==== Sys2Proof/Machine/Darn.lean ====
section
/-! DEFINITION. How a line is computed: samples, tone curves, darning, seams, selvedge, screening, level map, packing
(R141-R157, R257-R276, R286). Everything here only reads the state. -/

namespace Sys2Proof.Machine

open Sys2Proof

/-! ## The nozzle map (R257-R259) -/

/-- A nozzle's map entry. -/
def mapEntry (s : State) (n : Nat) : BitVec 16 := BitVec.ofNat 16 (leNat (memRead s.sram (nozzleMapBase + 2 * n) 2))
def entryState (e : BitVec 16) : Nat := e.toNat % 8
def entryTrim (e : BitVec 16) : Int := signed 6 (e.toNat / 8 % 64)
def entryDev (e : BitVec 16) : Int := signed 7 (e.toNat / 512)

/-- The SRAM word at an 8-byte aligned address is uncorrectable (R529). -/
def badWord (s : State) (a : Nat) : Bool := s.drcx.sramBad.contains (a / 8 * 8)
/-- Bytes [a, a + n) touch an uncorrectable SRAM word; the first such word. -/
def badRange (s : State) (a n : Nat) : Option Nat := s.drcx.sramBad.find? fun w => w < a + n && a < w + 8

/-- Effective state of a nozzle: 0 GOOD, 1 WEAK, 2 DEVIATED, 3 MISSING, 4 DISABLED (R259). -/
def effState (s : State) (n : Nat) : Nat :=
  let e := entryState (mapEntry s n)
  if badWord s (nozzleMapBase + 2 * n) || s.nhd.overlay.getLsbD (n / 384 / 32) || e ≥ 5 then 3
  else if e = 2 && entryDev (mapEntry s n) = 0 then 0
  else e

/-! ## Row-lanes and dots (R142, R145, R146, R270) -/

/-- Dot that position `k` of a map entry prints. -/
def dotOf (m : MapEntry) (k : Nat) : Int :=
  let d : Int := m.step * ((k : Int) - m.first)
  if m.down then m.x0 - d else m.x0 + d

/-- Position of a map entry that prints dot `x`. -/
def posAt (m : MapEntry) (x : Nat) : Option Nat :=
  let d : Int := if m.down then m.x0 - x else x - m.x0
  if d ≥ 0 && d % m.step = 0 && d / m.step < m.count then some (m.first + (d / m.step).toNat) else none

/-- Nozzles of a plane that print a dot: row-lane and position, of primary or of redundant row-lanes. -/
def printers (pan : Panel) (pl x : Nat) (redundant : Bool) : List (Fin 512 × Nat) :=
  pan.map.filterMap fun m =>
    if m.plane = pl && m.redundant == redundant then (posAt m x).map fun k => (m.rowlane, k) else none

/-- Global index of a nozzle. -/
def gnoz (n : Fin 512 × Nat) : Nat := nozzleOf n.1 n.2

/-- The port a seam selects for a dot (R145). -/
def seamSide (s : State) (e : Seam) (x line : Nat) : Fin 16 :=
  if x < e.start then e.left
  else if x ≥ e.start + e.w then e.right
  else
    let wt := ((2 * (x - e.start) + 1) * 256) / (2 * e.w)
    let m := ((vget s.pdp.seamMask e.slot).getD (line % 64 * 64 + x % 64) 0).toNat
    if m < wt then e.right else e.left

/-- A nozzle cannot print: MISSING or DISABLED. -/
def dead (s : State) (n : Fin 512 × Nat) : Bool := effState s (gnoz n) ≥ 3

/-- The owner of a dot (R270): the one primary nozzle, or the nozzle R145 and R146 select. -/
def ownerOf (s : State) (pan : Panel) (pl line x : Nat) : Option (Fin 512 × Nat) :=
  match printers pan pl x false with
  | [] => none
  | [a] => some a
  | a :: b :: _ =>
    match pan.seams.find? fun e => e.plane = pl && ((e.left == portOf a.1 && e.right == portOf b.1) || (e.left == portOf b.1 && e.right == portOf a.1)) with
    | none => some a
    | some e =>
      let side := seamSide s e x line
      let (sel, oth) := if portOf a.1 == side then (a, b) else (b, a)
      if dead s sel && !dead s oth then some oth else some sel

/-! ## Samples (R133, R147, R192) -/

/-- Sample of dot `d` of line `l` of a raw block (R192). -/
def rawSample (wc : Nat) (raw : List Byte) (l d : Nat) : Nat :=
  let w := 2 ^ wc
  let bitPos := w * d
  (raw.getD (l * 32 * w + bitPos / 8) 0).toNat / 2 ^ (bitPos % 8) % 2 ^ w

/-- The band and plane that a store entry holds. -/
def bandIs (pan : Panel) (band pl : Nat) (b : BandStore) : Bool := b.panel == pan.num && b.band == band && b.plane == pl

/-- A block in place in the look-around store or among the samples for recomputation: its bytes, none of zero ink. -/
def blockOf (s : State) (pan : Panel) (band pl i : Nat) : Option (Option (List Byte)) :=
  (s.pdp.store ++ s.pdp.staging).findSome? fun b =>
    if bandIs pan band pl b then (if b.zero then some none else (b.blocks.find? (·.1 = i)).map (·.2)) else none

/-- A sample of a plane: 0 outside the panel's width, none from zero ink (R137, R138, R613). -/
def sampleOf (s : State) (pan : Panel) (pl x line : Nat) : Option Nat :=
  if x ≥ pan.width then some 0
  else match blockOf s pan (line / 8) pl (x / 256) with
    | some (some raw) => some (rawSample (widthCode ((pan.planes.getD pl {}).format)) raw (line % 8) (x % 256))
    | some none => none
    | none => none

/-! ## Tone curves (R149, R158, R160) -/

/-- The global curve of a plane. -/
def globalCurve (s : State) (pl : Fin 8) (v : Nat) : Nat := leNat (((vget s.pdp.gcurve pl).drop (2 * v)).take 2)

/-- Knot `k` of a nozzle's curve. -/
def knot (s : State) (n k : Nat) : Int := leNat (memRead s.sram (18 * n + 2 * k) 2)

/-- The per-nozzle curve (R149). -/
def tone (s : State) (n g : Nat) : Nat :=
  let i := g / 8192
  let c := knot s n i + ((knot s n (i + 1) - knot s n i) * (g % 8192 : Nat) + 4096) / 8192
  (min 65535 (max 0 c)).toNat

/-- A nozzle's curve touches an uncorrectable word: its dots are zero ink (R160). -/
def curveBad (s : State) (n : Nat) : Option Nat := badRange s (18 * n) 18

/-- Value of a contone nozzle before darning: 0 of zero ink and through a bad curve (R138, R160). -/
def curveValue (s : State) (pan : Panel) (pl : Fin 8) (line x : Nat) (n : Fin 512 × Nat) : Nat :=
  match sampleOf s pan pl.val x line with
  | some v => if (curveBad s (gnoz n)).isSome then 0 else tone s (gnoz n) (globalCurve s pl v)
  | none => 0

/-! ## Darning (R271-R276) -/

/-- What darning works on, dot by dot. -/
structure Dots where
  owner : Array (Option (Fin 512 × Nat))
  red : Array (Option (Fin 512 × Nat))
  /-- Input values, or levels. -/
  val : Array Nat
  usable : Array Bool

/-- The dots of a line of a plane. -/
def dotsOf (s : State) (pan : Panel) (pl : Fin 8) (line : Nat) : Dots :=
  let pd := pan.planes.getD pl.val {}
  let k := vget s.nhd.kernels pl
  let xs := List.range pan.width
  let owner := xs.map fun x => ownerOf s pan pl.val line x
  let contone := pd.format = 0
  { owner := owner.toArray
    red := (xs.map fun x => (printers pan pl.val x true).head?).toArray
    val := ((xs.zip owner).map fun p => match p.2 with
      | some n => if contone then curveValue s pan pl line p.1 n else (sampleOf s pan pl.val p.1 line).getD 0
      | none => 0).toArray
    usable := ((xs.zip owner).map fun p => match p.2 with
      | some n =>
        let st := effState s (gnoz n)
        let dv := (entryDev (mapEntry s (gnoz n))).natAbs
        (st ≤ 1 || (st = 2 && dv < (if contone then 16 else k.devMove))) && pd.left ≤ p.1 && p.1 < pd.right
      | none => false).toArray }

/-- A redundant nozzle is usable when GOOD or WEAK (R271). -/
def redUsable (s : State) (d : Dots) (x : Nat) : Bool :=
  match d.red.getD x none with
  | some n => effState s (gnoz n) ≤ 1
  | none => false

/-- What darning has made so far: output per dot, redundant values, losses and the first dot that lost. -/
structure Darned where
  out : Array Nat
  red : Array Nat
  lost : Nat := 0
  firstLost : Option Nat := none

def noteLost (a : Darned) (x : Nat) : Darned := { a with lost := a.lost + 1, firstLost := some (a.firstLost.getD x) }

/-- A dot of the line at `x + dir * j`. -/
def dotAt (d : Dots) (x : Nat) (dir : Int) (j : Nat) : Option Nat :=
  let t : Int := x + dir * j
  if 0 ≤ t && t < d.val.size then some t.toNat else none

/-- Shares a1, a2, a3 given to one side, a share that meets an unusable or full dot carried outward (R273, R274). -/
def spread (d : Dots) (a : Darned) (x : Nat) (dir : Int) (shares : List Nat) : Darned :=
  let step (acc : Darned × Nat × Nat) (share : Nat) : Darned × Nat × Nat :=
    let (a, carry, j) := acc
    let amt := share + carry
    match dotAt d x dir j with
    | some t =>
      if d.usable.getD t false then
        let v := a.out.getD t 0
        if amt > 65535 - v then ({ a with out := a.out.setIfInBounds t 65535 }, amt - (65535 - v), j + 1)
        else ({ a with out := a.out.setIfInBounds t (v + amt) }, 0, j + 1)
      else (a, amt, j + 1)
    | none => (a, amt, j + 1)
  let (a, carry, _) := shares.foldl step (a, 0, 1)
  if carry > 0 then noteLost a x else a

/-- What an owner keeps, what it gives, and to which side only (R273 step a). -/
def giveOf (s : State) (k : Kernel) (n : Fin 512 × Nat) (c : Nat) : Nat × Nat × Int :=
  let dev := entryDev (mapEntry s (gnoz n))
  match effState s (gnoz n) with
  | 0 => (c, 0, 0)
  | 1 =>
    let g := (c * k.weakGive + 128) / 256
    (c - g, g, 0)
  | 2 =>
    if dev.natAbs < 16 then
      let g := (c * dev.natAbs + 8) / 16
      (c - g, g, if dev > 0 then -1 else 1)
    else (0, c, 0)
  | _ => (0, c, 0)

/-- A contone line darned, before the trims (R273 steps a and b). -/
def darnContone (s : State) (pl : Fin 8) (d : Dots) : Darned :=
  let k := vget s.nhd.kernels pl
  let xs := List.range d.val.size
  let own (x : Nat) : Nat × Nat × Int := match d.owner.getD x none with
    | some n => giveOf s k n (d.val.getD x 0)
    | none => (0, 0, 0)
  let start : Darned := { out := (xs.map fun x => (own x).1).toArray, red := Array.replicate d.val.size 0 }
  xs.foldl (fun a x =>
    let (_, m, side) := own x
    if m = 0 then a
    else if side != 0 then spread d a x side [m, 0, 0]
    else
      let r := if k.wr != 0 && redUsable s d x then (m * k.wr + 128) / 256 else 0
      let a := { a with red := a.red.setIfInBounds x (a.red.getD x 0 + r) }
      let m := m - r
      let sh := [(m * k.w1 + 128) / 256, (m * k.w2 + 128) / 256, (m * k.w3 + 128) / 256]
      spread d (spread d a x (-1) sh) x 1 sh) start

/-- Step c: the density trim (R273). -/
def trimmed (s : State) (n : Fin 512 × Nat) (v : Nat) : Nat :=
  min 65535 (((v : Int) * (64 + entryTrim (mapEntry s (gnoz n))) + 32) / 64).toNat

/-- A prescreened line darned: levels of dead or far deviated owners move whole (R276). -/
def darnLevels (s : State) (pl : Fin 8) (d : Dots) (line : Nat) : Darned :=
  let k := vget s.nhd.kernels pl
  let xs := List.range d.val.size
  let keeps (x : Nat) : Bool := match d.owner.getD x none with
    | some n =>
      let st := effState s (gnoz n)
      st ≤ 1 || (st = 2 && (entryDev (mapEntry s (gnoz n))).natAbs < k.devMove)
    | none => false
  let start : Darned :=
    { out := (xs.map fun x => if keeps x then d.val.getD x 0 else 0).toArray, red := Array.replicate d.val.size 0 }
  let order : List (Int × Nat) := if line % 2 = 0 then [(-1, 1), (1, 1), (-1, 2), (1, 2)] else [(1, 1), (-1, 1), (1, 2), (-1, 2)]
  xs.foldl (fun a x =>
    let lv := d.val.getD x 0
    if lv = 0 || keeps x || (d.owner.getD x none).isNone then a
    else if k.wr != 0 && redUsable s d x then { a with red := a.red.setIfInBounds x lv }
    else
      let place := order.findSome? fun o => match dotAt d x o.1 o.2 with
        | some t => if d.usable.getD t false && a.out.getD t 0 = 0 then some t else none
        | none => none
      match place with
      | some t => { a with out := a.out.setIfInBounds t lv }
      | none => noteLost a x) start

/-- A plane's line after darning. -/
structure PlaneLine where
  dots : Dots
  darned : Darned

def planeLine (s : State) (pan : Panel) (line : Nat) (pl : Fin 8) : PlaneLine :=
  let d := dotsOf s pan pl line
  { dots := d, darned := if (pan.planes.getD pl.val {}).format = 0 then darnContone s pl d else darnLevels s pl d line }

/-! ## Selvedge, screening, level map, packing (R151-R157) -/

/-- The selvedge of a plane on a contone value or on a level (R151, R156). -/
def selvedge (pd : Plane) (x d : Nat) : Nat :=
  if x < pd.left || x ≥ pd.right then 0
  else if pd.format != 0 then d
  else
    let e := min (x - pd.left) (pd.right - 1 - x)
    if e < pd.taperLen then
      let t := (pd.taper.getD e 0).toNat
      (d * (t + t / 128) + 128) / 256
    else d

/-- Address of a threshold cell (R158). -/
def cellAddr (pl row col : Nat) : Nat := 0x360000 + pl * 983040 + (row * 256 + col) * 15

/-- The cell a dot is screened with (R152, R153). -/
def cellOf (s : State) (pl : Fin 8) (x line : Nat) : Nat :=
  let c := vget s.pdp.screen pl
  cellAddr pl.val ((line + c.sy) % c.h) ((x + c.sx) % c.w)

/-- Screening; a bad cell gives zero ink (R152, R160). -/
def screen (s : State) (pd : Plane) (pl : Fin 8) (x line d : Nat) : Nat :=
  let a := cellOf s pl x line
  if (badRange s a 15).isSome then 0
  else ((memRead s.sram a 15).take pd.levelsM1).countP fun t => d / 256 > t.toNat

/-- The level of a nozzle of a plane at dot `x`, after steps 4 to 6. -/
def levelAt (s : State) (pan : Panel) (l : PlaneLine) (pl : Fin 8) (line x : Nat) (redundant : Bool) (n : Fin 512 × Nat) : Nat :=
  let pd := pan.planes.getD pl.val {}
  let v :=
    if redundant then
      let r := l.darned.red.getD x 0
      if pd.format = 0 && r > 0 then trimmed s n r else r
    else if l.dots.owner.getD x none == some n then
      let v := l.darned.out.getD x 0
      if pd.format = 0 then trimmed s n v else v
    else 0
  let d := selvedge pd x v
  if pd.format = 0 then screen s pd pl x line d else d

/-- What the swatch in print puts on a nozzle of a line, if its row-lane is listed there (R157, R286). -/
def swatchCode (s : State) (pan : Panel) (line : Nat) (g : Fin 512) (k : Nat) (dot : Option Int) : Option Nat :=
  match s.nhd.run, s.nhd.swatch with
  | some r, some d =>
    let top := maxList (d.rows.map (·.2))
    if r.panel != pan.num || line < r.start || line ≥ r.start + (top + 1) * d.stride * d.pitch then none
    else match d.rows.find? (·.1 == g) with
      | none => none
      | some (_, layer) => match dot with
        | none => some 0
        | some x =>
          let o := line - r.start
          let mine := layer * d.stride + (x % d.stride).toNat
          some (if effState s (nozzleOf g k) = 4 then 0 else if o / d.pitch = mine && o % d.pitch < d.dash then d.code else 0)
  | _, _ => none

/-- Drop code of a nozzle position of a mapped row-lane. -/
def codeAt (s : State) (pan : Panel) (ls : List PlaneLine) (line : Nat) (m : MapEntry) (k : Nat) : Nat :=
  let x := dotOf m k
  let inside := m.first ≤ k && k < m.first + m.count && 0 ≤ x && x < pan.width
  match swatchCode s pan line m.rowlane k (if inside then some x else none) with
  | some c => c
  | none =>
    if !inside then 0
    else match idx 8 m.plane, ls[m.plane]? with
      | some pl, some l =>
        let lv := levelAt s pan l pl line x.toNat m.redundant (m.rowlane, k)
        let map := vget (vget s.pdp.levelMap (portOf m.rowlane)) pl
        map.toNat / 2 ^ (4 * lv) % 16
      | _, _ => 0

/-- Codes of `b` bits packed, nozzle position 0 lowest, to a multiple of 32 bits (R155). -/
def packRow (b : Nat) (codes : List Nat) : List Byte :=
  let bytes := 4 * ceilDiv (codes.length * b) 32
  natLe (codes.foldr (fun c acc => c % 2 ^ b + 2 ^ b * acc) 0) bytes

/-- The mapped rows of a port, computed and packed in rising row order. -/
def portRows (s : State) (pan : Panel) (ls : List PlaneLine) (line : Nat) (p : Fin 16) : List (Nat × List Byte) :=
  (List.range 32).filterMap fun r =>
    match pan.map.find? fun m => portOf m.rowlane == p && (rowOf m.rowlane).val = r with
    | some m => some (r, packRow (codeWidth s p) ((List.range (rowNozzles s p r)).map (codeAt s pan ls line m)))
    | none => none

/-- Every plane's line. -/
def allPlanes (s : State) (pan : Panel) (line : Nat) : List PlaneLine :=
  ((indices 8).filter fun pl => pl.val < pan.nplanes).map (planeLine s pan line)

/-- SRAM words of bad curves and bad cells that a line of a port meets: table and address. A redundant nozzle's own curve is not used: the ink
it is given has come through the owner's (R147, R160, R272). -/
def badTables (s : State) (pan : Panel) (line : Nat) (ports : List (Fin 16)) : List (Nat × Nat) :=
  if s.drcx.sramBad.isEmpty then []
  else (pan.map.flatMap fun m =>
    if !ports.contains (portOf m.rowlane) || (pan.planes.getD m.plane {}).format != 0 then []
    else (List.range m.count).flatMap fun i =>
      let k := m.first + i
      let d := dotOf m k
      if d < 0 || d ≥ pan.width then []
      else
        let cell := match idx 8 m.plane with
          | some pl => (badRange s (cellOf s pl d.toNat line) 15).toList.map fun a => (2, a)
          | none => []
        (if m.redundant then [] else (curveBad s (nozzleOf m.rowlane k)).toList.map fun a => (1, a)) ++ cell).eraseDups

end Sys2Proof.Machine
end

