-- ==== Sys2Proof/Machine/EbcCode.lean ====
section
/-! DEFINITION. Ehrost Block Code: block sizes, the reference decoder, the tokens of an encoder's level, the self-check, the engines' counters
(R191-R208, R214). -/

namespace Sys2Proof.Machine

open Sys2Proof

/-- Raw size of a coded block of a width code: 256 bytes per bit of width (R75). -/
def rawSize (widthCode : Nat) : Nat := 256 * 2 ^ widthCode
/-- Slot size for a ratio code 1, 2, 3 (R75). -/
def slotSize (widthCode ratioCode : Nat) : Nat := rawSize widthCode / 2 ^ ratioCode

/-- How a slot decodes (R203). -/
inductive EbcResult where
  | ok (raw : List Byte) | short | overrun
  deriving DecidableEq, Repr

/-- `k` bytes appended one by one, each read from what stands before it (R201). -/
def ebcCopy : Nat → (Array Byte → Byte) → Array Byte → Array Byte
  | 0, _, out => out
  | k + 1, f, out => ebcCopy k f (out.push (f out))

/-- One token after another from slot position `i` (R204). `fuel` bounds the tokens: each takes at least one slot byte. -/
def ebcTokens (slot ref : Array Byte) (hasRef : Bool) (raw lb : Nat) : Nat → Nat → Array Byte → EbcResult
  | 0, _, _ => .short
  | fuel + 1, i, out =>
    let o := out.size
    let byte (k : Nat) : Nat := (slot.getD k 0).toNat
    if o ≥ raw then .ok out.toList
    else if i ≥ slot.size then .short
    else
      let c := byte i
      let i := i + 1
      if c < 0x40 then
        let n := c + 1
        if i + n > slot.size then .short
        else if o + n > raw then .overrun
        else ebcTokens slot ref hasRef raw lb fuel (i + n) (ebcCopy n (fun a => slot.getD (i + (a.size - o)) 0) out)
      else if c < 0x80 then
        let n := c % 64 + 3
        if i + 1 > slot.size then .short
        else if o + n > raw then .overrun
        else ebcTokens slot ref hasRef raw lb fuel (i + 1) (ebcCopy n (fun _ => slot.getD i 0) out)
      else if c = 0xC9 then
        let d := byte i + 256 * byte (i + 1)
        let n := d + 1
        if i + 3 > slot.size then .short
        else if d / 2048 != 0 || o + n > raw then .overrun
        else ebcTokens slot ref hasRef raw lb fuel (i + 3) (ebcCopy n (fun _ => slot.getD (i + 2) 0) out)
      else if c < 0xC0 then
        let d := byte i + 256 * byte (i + 1)
        let n := c % 64 + 3
        if i + 2 > slot.size then .short
        else if d = 0 || d / 2048 != 0 || d > o || o + n > raw then .overrun
        else ebcTokens slot ref hasRef raw lb fuel (i + 2) (ebcCopy n (fun a => a.getD (a.size - d) 0) out)
      else if c ≤ 0xC3 then
        let n := byte i + 1
        let d := (c % 4 + 1) * lb
        if i + 1 > slot.size then .short
        else if o + n > raw || (!hasRef && o < d) then .overrun
        else ebcTokens slot ref hasRef raw lb fuel (i + 1)
          (ebcCopy n (fun a => if d ≤ a.size then a.getD (a.size - d) 0 else ref.getD (a.size + 8 * lb - d) 0) out)
      else if c = 0xC8 then
        let n := byte i + 1
        if i + 1 > slot.size then .short
        else if o + n > raw || !hasRef then .overrun
        else ebcTokens slot ref hasRef raw lb fuel (i + 1) (ebcCopy n (fun a => ref.getD a.size 0) out)
      else .overrun

/-- The reference decoder of R204 for a width code. -/
def ebcDecode (widthCode : Nat) (slot : List Byte) (ref : Option (List Byte)) : EbcResult :=
  let raw := rawSize widthCode
  ebcTokens slot.toArray (ref.getD []).toArray ref.isSome raw (raw / 8) (slot.length + 1) 0 #[]

/-! ## Engine counters (R214) -/

def modEng (s : State) (e : Fin 4) (f : EbcEngine → EbcEngine) : State := { s with ebc := vmod s.ebc e f }

/-- An engine has processed a block. -/
def engBlock (s : State) (e : Fin 4) : State := modEng s e fun x => { x with blocks := (x.blocks + 1) % 2 ^ 32, busy := false, level := 0 }
def engShort (s : State) (e : Fin 4) : State := modEng s e fun x => { x with short := satAdd 0xFFF x.short 1 }
def engOverrun (s : State) (e : Fin 4) : State := modEng s e fun x => { x with overrun := satAdd 0xFFF x.overrun 1 }
def engVerify (s : State) (e : Fin 4) : State := modEng s e fun x => { x with verify := satAdd 0xFF x.verify 1 }
def engNoFit (s : State) (e : Fin 4) : State := modEng s e fun x => { x with noFit := sat32 x.noFit 1 }

/-- How an encode ends (R207, R208). -/
inductive EncResult where
  | stored (slot : List Byte) | noFit | verify
  deriving DecidableEq, Repr

/-- Whether a token sequence keeps to the tokens of a level: LIT, FILL and LONGFILL; MATCH from level 1; UP with D = 1 and sources within the
block from level 2; every token at level 3 (R205). `lb` is the bytes of a line, `o` the output position. -/
def ebcLevelOk (level lb : Nat) : Nat → List Byte → Nat → Bool
  | 0, _, _ => true
  | _, [], _ => true
  | fuel + 1, c :: rest, o =>
    let c := c.toNat
    let next (n : Nat) : Nat := (rest.getD n 0).toNat
    if c < 0x40 then ebcLevelOk level lb fuel (rest.drop (c + 1)) (o + c + 1)
    else if c < 0x80 then ebcLevelOk level lb fuel (rest.drop 1) (o + c % 64 + 3)
    else if c < 0xC0 then level ≥ 1 && ebcLevelOk level lb fuel (rest.drop 2) (o + c % 64 + 3)
    else if c = 0xC0 then level ≥ 2 && (level == 3 || o ≥ lb) && ebcLevelOk level lb fuel (rest.drop 1) (o + next 0 + 1)
    else if c = 0xC9 then ebcLevelOk level lb fuel (rest.drop 3) (o + next 0 + 256 * next 1 + 1)
    else level == 3 && ebcLevelOk level lb fuel (rest.drop 1) (o + next 0 + 1)

/-- An encode with its self-check: the slot, padded with 0x00, or why it is not stored (R194, R205-R208). A coding longer than the slot is NOFIT; so is
one beyond the level's tokens, which no encoder of that level finds [A 28]. -/
def ebcEncodeChecked (level widthCode : Nat) (raw : List Byte) (ref : Option (List Byte)) (slot : Nat) : EncResult :=
  match Config.ebcEncode level raw ref slot with
  | none => .noFit
  | some ts =>
    if ts.length > slot || !ebcLevelOk level (rawSize widthCode / 8) ts.length ts 0 then .noFit
    else
      let out := ts ++ List.replicate (slot - ts.length) 0
      if ebcDecode widthCode out ref = .ok raw then .stored out else .verify

end Sys2Proof.Machine
end

