-- ==== Sys2Proof/Machine/Frame.lean ====
section
/-! DEFINITION. Frames on the wire: lengths, times, byte strings, CRC-32C, blocks, and the checks that make a received frame malformed
(R330-R337, R341, R344, R347, R351, R355). -/

namespace Sys2Proof.Machine

open Sys2Proof

/-! ## Sizes and times (R298, R330, R332, R339) -/

/-- LENGTH of a frame for a protocol version. -/
def frameLen (version : Nat) : FrameBody → Nat
  | .idle => 16
  | .hello _ => 36
  | .data _ _ rows => 28 + (rows.map (·.2.length)).sum
  | .unpick _ _ rows => 28 + (rows.map (·.2.length)).sum
  | .stitch _ => 160
  | .ack .. => if version ≥ 0x0200 then 32 else 24
  | .timesync .. => 48
  | .mgmt _ _ _ _ d => 24 + d.length

/-- Sequenced frame types (R334). -/
def sequenced : FrameBody → Bool
  | .data .. | .unpick .. | .stitch _ | .mgmt .. => true
  | _ => false

def isStitch : FrameBody → Bool
  | .stitch _ => true
  | _ => false

/-- Duration of a block at a lane rate, in 1/100 CT. -/
def blockTime (rate : Nat) : Nat := if rate = 0 then 1056 else if rate = 1 then 528 else 330
/-- Blocks of a frame of `len` bytes. -/
def frameBlockCount (len : Nat) : Nat := 1 + ceilDiv (len - 7) 8
/-- Duration of a frame. -/
def frameTime (rate len : Nat) : Nat := frameBlockCount len * blockTime rate

/-! ## CRC-32C (R333) -/

/-- One bit of a reflected CRC-32C. -/
def crcBit (c : Nat) : Nat := if c % 2 = 1 then Nat.xor (c / 2) 0x82F63B78 else c / 2
def crcByte (c : Nat) (b : Byte) : Nat :=
  crcBit (crcBit (crcBit (crcBit (crcBit (crcBit (crcBit (crcBit (Nat.xor c b.toNat))))))))
/-- CRC-32C (R333). -/
def crc32c (bs : List Byte) : Nat := Nat.xor (bs.foldl crcByte 0xFFFFFFFF) 0xFFFFFFFF

/-- The word at an offset of a byte list. -/
def wordAt (bs : List Byte) (a : Nat) : Word := w32 (leNat ((bs.drop a).take 4))

/-! ## A frame's bytes and blocks (R330-R334) -/

/-- The versions the controller lists (R110, R341). -/
def rlVersions : List Nat := [0x0100, 0x0101, 0x0200]

/-- TYPE of a frame (R334). -/
def frameType : FrameBody → Nat
  | .idle => 0x00 | .hello _ => 0x01 | .data .. => 0x02 | .stitch _ => 0x03 | .unpick .. => 0x04 | .ack .. => 0x05 | .timesync .. => 0x06
  | .mgmt .. => 0x07

/-- PANEL, LINE, ROWS and the rows in rising order (R344). -/
def rowsBody (panel : BitVec 16) (line : Nat) (rows : List (Nat × List Byte)) : List Byte :=
  wordBytes [w32 panel.toNat, w32 line, w32 ((rows.map fun r => 2 ^ r.1).sum)] ++ rows.flatMap (·.2)

/-- BASE of a stitch frame: the earliest instant in it; 0 of a frame without one (R233). -/
def stitchBase (st : Stitch) : Nat := minList (st.rows.map (·.2))

/-- ROW[n]: the instant as an offset from BASE, or 0xFF_FFFF (R233, R347). -/
def stitchRow (st : Stitch) (n : Fin 32) : Word :=
  match st.rows.find? (·.1 == n) with
  | some r => w32 ((r.2 - stitchBase st) % 2 ^ 24)
  | none => 0xFFFFFF

/-- The body of a stitch frame (R347). -/
def stitchBody (st : Stitch) : List Byte :=
  wordBytes ([pack [(st.panel.toNat, 0), (b2n st.flush, 16)], w32 st.line, w32 (stitchBase st), w32 (stitchBase st / 2 ^ 32)] ++
    (indices 32).map (stitchRow st))

/-- The body of a frame the controller sends (R336, R341, R344, R347, R351, R355). -/
def frameBody (version : Nat) : FrameBody → List Byte
  | .idle => []
  | .hello chosen =>
    wordBytes [pack [(rlVersions.length, 8), (chosen, 16)]] ++ (List.range 8).flatMap fun k => natLe (rlVersions.getD k 0) 2
  | .data panel line rows => rowsBody panel line rows
  | .unpick panel line rows => rowsBody panel line rows
  | .stitch st => stitchBody st
  | .ack a b va vb na nb =>
    wordBytes ([pack [(a, 0), (b, 16)], pack [(b2n va, 0), (b2n vb, 1), (b2n na, 2), (b2n nb, 3)]] ++
      if version ≥ 0x0200 then [0, 0] else [])
  | .timesync id t1 d => wordBytes [w32 id, w32 t1, w32 (t1 / 2 ^ 32), w32 d, 0, 0, 0, 0]
  | .mgmt tid write addr len d => wordBytes [pack [(tid, 0), (b2n write, 8), (len, 16)], w32 addr] ++ d

/-- A frame's bytes: header, body, CRC (R332, R333). -/
def frameBytes (version : Nat) (seq : Option Nat) (replay : Bool) (epoch : Word) (b : FrameBody) : List Byte :=
  let bs := wordBytes [pack [(frameType b, 0), (b2n replay, 8), (frameLen version b, 16)], w32 (seq.getD 0), epoch] ++ frameBody version b
  bs ++ natLe (crc32c bs) 4

/-- A 66-bit block: control or data, and its eight payload bytes. -/
abbrev Block := Bool × List Byte

/-- The data blocks of a frame's bytes from the eighth on; the last is filled with zeros (R330). -/
def dataBlocks : Nat → List Byte → List Block
  | 0, _ => []
  | n + 1, bs => if bs.isEmpty then [] else (false, bs.take 8 ++ List.replicate (8 - bs.length) 0) :: dataBlocks n (bs.drop 8)

/-- The blocks of a frame: BTYPE 0x78, or 0x66 of an inserted stitch frame, with the first seven bytes, then the rest (R330, R331). -/
def frameBlocks (inserted : Bool) (bs : List Byte) : List Block :=
  (true, (if inserted then 0x66 else 0x78) :: bs.take 7) :: dataBlocks bs.length (bs.drop 7)

/-! ## What makes a frame from a head malformed (R334) -/

/-- The CRC of a received frame passes (R333). -/
def crcOk (bs : List Byte) : Bool := bs.length ≥ 16 && (wordAt bs (bs.length - 4)).toNat == crc32c (bs.take (bs.length - 4))

/-- The bits outside a mask are set in the word at an offset of a frame's body. -/
def extraBits (bs : List Byte) (a : Nat) (mask : Word) : Bool := !only (wordAt bs (12 + a)) mask

/-- A reserved bit is set in the body, or its LENGTH does not suit it (R334, R336, R341, R351, R354, R355). -/
def bodyBad (version : Nat) (bs : List Byte) : Bool :=
  let w := wordAt bs 12
  match bits (wordAt bs 0) 7 0 with
  | 0x00 => bs.length != 16
  | 0x01 => bs.length != 36 || extraBits bs 0 0xFFFF0F01
  | 0x05 => bs.length != (if version ≥ 0x0200 then 32 else 24) || extraBits bs 4 0xF
  | 0x06 => bs.length != 48 || extraBits bs 0 0x1FF || extraBits bs 0xC 0xFFFFF
  | 0x07 =>
    let data := bits w 9 8 == 0 && bits (wordAt bs 16) 31 24 == 0
    extraBits bs 0 0x07FF03FF || bits w 9 8 ≥ 2 || bs.length != 24 + (if data then bits w 26 16 else 0)
  | 0x08 => bs.length != 80 || extraBits bs 0 0xFFFF000F || extraBits bs 0xC 0xFFFFFF ||
      (List.range 4).any fun k => extraBits bs (0x10 + 12 * k) 0x7FFFF
  | _ => true

/-- A frame whose CRC passes is malformed: reserved TYPE, wrong direction, LENGTH, reserved bits (R334). DATA, STITCH and UNPICK travel from
the controller only. -/
def malformedFrame (version : Nat) (bs : List Byte) : Bool :=
  let w := wordAt bs 0
  bits w 31 16 != bs.length || bits w 15 9 != 0 || bits (wordAt bs 4) 31 16 != 0 || bodyBad version bs

/-- SEQ of a frame of a sequenced type a head sends (R334). -/
def frameSeq (bs : List Byte) : Option Nat :=
  let t := bits (wordAt bs 0) 7 0
  if t = 7 || t = 8 then some (bits (wordAt bs 4) 15 0) else none

end Sys2Proof.Machine
end

