-- ==== Sys2Proof/Machine/Link.lean ====
section
/-! DEFINITION. Frames on a lane: sequence numbers, held frames, the queue, replay; lanes and ports entering and leaving service
(R300-R317, R330-R345). -/

namespace Sys2Proof.Machine

open Sys2Proof

/-! ## Frames held (R338, R339) -/

/-- Length of a held frame. -/
def heldLen (h : HlkPort) (f : HeldFrame) : Nat := frameLen h.version f.body

/-- A port's bytes held for acknowledgement (R339). -/
def heldBytes (h : HlkPort) : Nat := ((indices 2).map fun l => (((vget h.lanes l).held).map (heldLen h)).sum).sum

/-- The port's held frames that lie in its SRAM buffer, oldest first, each with its lane. -/
def sramHeld (h : HlkPort) : List (Fin 2 × HeldFrame) :=
  ((indices 2).flatMap fun l => ((vget h.lanes l).held.filter fun f => !f.spilled).map fun f => (l, f)).mergeSort fun a b => a.2.age ≤ b.2.age

/-- A port holds frames in DRAM (R339). -/
def spills (h : HlkPort) : Bool := h.lanes.any fun x => x.held.any (·.spilled)

/-- Bytes written to DRAM for HLK; while requests are held they wait (R510, R522). -/
def spillWrite (s : State) (a : Nat) (bs : List Byte) : State :=
  if bs.isEmpty then s else if accessHeld s 1 then queueReq s (.put (some 2) a bs) else dramWrite s a bs

/-- Size of a port's spill area in DRAM (R339, R509). -/
def spillArea : Nat := 196608

/-- A held frame moves from the SRAM buffer to the port's area in DRAM, one after another round the area (R339, R509) [A 99]. -/
def spillFrame (s : State) (p : Fin 16) (l : Fin 2) (f : HeldFrame) : State :=
  let h := hport s p
  let bs := frameBytes h.version (some f.seq) f.replay s.seq.epoch f.body
  let base := dramUsable s + spillArea * p.val
  let room := spillArea - h.spillNext
  let s := spillWrite (spillWrite s (base + h.spillNext) (bs.take room)) base (bs.drop room)
  let s := modLane s p l fun x => { x with held := x.held.map fun g => if g.age = f.age then { g with spilled := true } else g }
  modHport s p fun h => { h with spillNext := (h.spillNext + bs.length) % spillArea }

/-- Held frames beyond 64 KiB spill, oldest first (R339). -/
def spillPort (s : State) (p : Fin 16) : State :=
  let h := hport s p
  let fs := sramHeld h
  (fs.foldl (fun (acc : State × Nat) f =>
    if acc.2 ≤ 65536 then acc else (spillFrame acc.1 p f.1 f.2, acc.2 - heldLen h f.2)) (s, (fs.map fun f => heldLen h f.2).sum)).1

/-- Bytes waiting on a lane: its queue and what is left of the frame in progress (R345). -/
def queuedBytes (s : State) (p : Fin 16) (l : Fin 2) : Nat :=
  let x := laneOfPort s p l
  (x.queue.map fun f => frameLen (hport s p).version f.body).sum + (x.free - 100 * s.ct) / blockTime x.rate * 8

/-! ## Transmission (R330, R331, R335, R338, R339, R345) -/

/-- A frame goes out on a lane, with the epoch in force (R332, R338). -/
def putFrame (s : State) (p : Fin 16) (l : Fin 2) (seq : Option Nat) (replay inserted : Bool) (b : FrameBody) : State :=
  emit s (.frame p l (frameBlocks inserted (frameBytes (hport s p).version seq replay s.seq.epoch b)))

/-- Duration of an IDLE frame, the shortest there is. -/
def idleTime (rate : Nat) : Nat := frameTime rate 16

/-- A lane in service with nothing to send sends IDLE frames, the last of which is in progress (R330) [A 100]. -/
def idleUp (s : State) (p : Fin 16) (l : Fin 2) : State :=
  let x := laneOfPort s p l
  if x.state != .up || !x.resend.isEmpty || !(x.queue.isEmpty || x.blocked) || 100 * s.ct < x.free then s
  else
    let n := (100 * s.ct - x.free) / idleTime x.rate + 1
    let s := modLane s p l fun x => { x with
      free := x.free + n * idleTime x.rate, curStart := x.free + (n - 1) * idleTime x.rate, curStitch := false, insEnd := 0 }
    emit s (.idle p l n (frameBlocks false (frameBytes (hport s p).version none false s.seq.epoch .idle)))

/-- The block boundary at which a stitch frame can be inserted into the frame in progress: after its start block and a stitch frame inserted
before, and before its last block; none into another stitch frame (R331). -/
def insertAt (s : State) (x : Lane) : Option Nat :=
  let bt := blockTime x.rate
  let m := max (max (100 * s.ct) (x.curStart + bt)) x.insEnd
  if x.curStitch || x.free < m + bt then none else some (x.free - (x.free - m) / bt * bt)

/-- A request of a time exchange carries the instant at which its start block leaves, in 1/16 CT (R351). -/
def stampBody (at' : Nat) : FrameBody → FrameBody
  | .timesync id _ d => .timesync id (16 * at' / 100) d
  | b => b

/-- A new frame starts on a lane, at the end of the one in progress or inserted into it at `ins`: a sequenced one takes the next number and is
held. -/
def startFrame (s : State) (p : Fin 16) (l : Fin 2) (f : QFrame) (ins : Option Nat) : State :=
  let x := laneOfPort s p l
  let dur := frameTime x.rate (frameLen (hport s p).version f.body)
  let at' := ins.getD x.free
  let n := x.txSeq
  let keep := sequenced f.body
  let body := stampBody at' f.body
  let held : HeldFrame := { seq := n, body := body, replay := f.replay, age := (hport s p).heldCtr }
  let s := modLane s p l fun x => { x with
    free := x.free + dur, blocked := false
    curStart := if ins.isSome then x.curStart else x.free
    curStitch := if ins.isSome then x.curStitch else isStitch f.body
    insEnd := if ins.isSome then at' + dur else 0
    txSeq := if keep then (n + 1) % 65536 else n
    held := if keep then x.held ++ [held] else x.held
    syncs := match body with
      | .timesync id t1 _ => ((id, t1) :: x.syncs).take 16
      | _ => x.syncs
    ackAt := if keep && x.held.isEmpty then s.ct else x.ackAt }
  let s := putFrame s p l (if keep then some n else none) f.replay ins.isSome body
  if keep then spillPort (modHport s p fun h => { h with heldCtr := h.heldCtr + 1 }) p else s

/-- The replay buffer has room for one more sequenced frame (R338, R339); nothing spills into a frozen DRAM [A 99]. -/
def roomFor (s : State) (p : Fin 16) (l : Fin 2) (b : FrameBody) : Bool :=
  !sequenced b || ((laneOfPort s p l).held.length < 2048 &&
    heldBytes (hport s p) + frameLen (hport s p).version b ≤ (if s.drc.frozen then 65536 else 262144))

/-- A frame that finds no room waits, which counts as one stall (R339). -/
def laneStall (s : State) (p : Fin 16) (l : Fin 2) : State :=
  if (laneOfPort s p l).blocked then s
  else modHport (modLane s p l fun x => { x with blocked := true }) p fun h => { h with stalls := satAdd 0xFFF h.stalls 1 }

/-- The frame at the front of a queue is an unpick frame whose line has become guarded (R177, R345). -/
def withdrawn (s : State) (p : Fin 16) (f : QFrame) : Bool := f.unpickOf.any fun abs => !unguarded s p abs

/-- An unpick frame is withdrawn: the head goes on holding the line it held, with its generation (R177, R185). -/
def withdraw (s : State) (p : Fin 16) (f : QFrame) : State :=
  match f.unpickOf with
  | none => s
  | some abs =>
    let s := match panelAt s abs, (pport s p).lines.find? (·.abs = abs) with
      | some pan, some l =>
        if abs = pan.base && l.old.isSome then modPanel s pan.num fun x => { x with genFirst := l.old } else s
      | _, _ => s
    modPport s p fun q => { q with lines := q.lines.map fun l => if l.abs = abs then { l with gen := l.old.getD l.gen, old := none } else l }

/-- Unpick frames of a line still wait on a lane of the port. -/
def unpickWaits (s : State) (p : Fin 16) (abs : Nat) : Bool := (hport s p).lanes.any fun x => x.queue.any (·.unpickOf == some abs)

/-- The last unpick frame of a line has started: the line is no longer superseded (R177). -/
def unpickSent (s : State) (p : Fin 16) (f : QFrame) : State :=
  match f.unpickOf with
  | none => s
  | some abs =>
    if unpickWaits s p abs then s
    else closeChanges (modPport s p fun q => { q with lines := q.lines.map fun l => if l.abs = abs then { l with old := none } else l }) p

/-- What a lane sends up to now: first the frames to be sent again, then its queue. A frame is taken when the one before it ends within the
time of an IDLE frame [A 100]. A spilled frame is sent again once DRAM can be read. -/
def pumpLane (s : State) (p : Fin 16) (l : Fin 2) : Nat → State
  | 0 => s
  | fuel + 1 =>
    let x := laneOfPort s p l
    if x.state != .up || 100 * s.ct + idleTime x.rate < x.free then s
    else match x.resend with
      | n :: rest =>
        match x.held.find? (·.seq = n) with
        | some f =>
          if f.spilled && accessHeld s 1 then hold s (.spill p l)
          else
            let dur := frameTime x.rate (heldLen (hport s p) f)
            let s := modLane s p l fun x => { x with
              resend := rest, free := x.free + dur, curStart := x.free, curStitch := isStitch f.body, insEnd := 0 }
            pumpLane (putFrame s p l (some n) f.replay false f.body) p l fuel
        | none => pumpLane (modLane s p l fun x => { x with resend := rest }) p l fuel
      | [] => match x.queue with
        | [] => s
        | f :: rest =>
          let popped := modLane s p l fun x => { x with queue := rest }
          if withdrawn s p f then pumpLane (withdraw popped p f) p l fuel
          else if roomFor s p l f.body then pumpLane (unpickSent (startFrame popped p l f none) p f) p l fuel
          else laneStall s p l

/-- Both lanes of a port send what they can. -/
def pump (s : State) (p : Fin 16) : State :=
  (indices 2).foldl (fun s l =>
    let s := if (laneOfPort s p l).blocked then idleUp s p l else s
    let x := laneOfPort s p l
    pumpLane s p l (x.queue.length + x.resend.length + 1)) s

/-- Frames put at the end of a lane's queue. -/
def enqueue (s : State) (p : Fin 16) (l : Fin 2) (fs : List QFrame) : State :=
  let s := idleUp s p l
  pump (modLane s p l fun x => { x with queue := x.queue ++ fs }) p

/-- The lane in service with fewer bytes waiting, lane a on a tie (R345). -/
def lightLane (s : State) (p : Fin 16) : Option (Fin 2) :=
  match laneUp s p 0, laneUp s p 1 with
  | true, true => some (if queuedBytes s p 1 < queuedBytes s p 0 then 1 else 0)
  | true, false => some 0
  | false, true => some 1
  | false, false => none

/-- A frame given to a port. -/
def sendFrame (s : State) (p : Fin 16) (f : QFrame) : State :=
  match lightLane s p with
  | some l => enqueue s p l [f]
  | none => s

/-- An unsequenced frame on one lane. -/
def sendOn (s : State) (p : Fin 16) (l : Fin 2) (b : FrameBody) : State := enqueue s p l [{ body := b }]

/-- A list in pieces of at most `n`. -/
def chunks {α : Type} (n : Nat) : Nat → List α → List (List α)
  | 0, _ => []
  | fuel + 1, xs => if xs.isEmpty then [] else xs.take n :: chunks n fuel (xs.drop n)

/-- A line handed to HLK, labelled with its generation and the epoch in force: frames of at most 8 rows (R182, R345). -/
def sendLine (s : State) (p : Fin 16) (panel : BitVec 16) (line : Nat) (rows : List (Nat × List Byte)) (gen : Nat) (unpickOf : Option Nat) :
    State :=
  (chunks 8 rows.length rows).foldl (fun s rs =>
    let b := if unpickOf.isSome then FrameBody.unpick panel line rs else FrameBody.data panel line rs
    sendFrame s p { body := b, unpickOf := unpickOf, gen := gen, epoch := s.seq.epoch }) s

/-! ## Link delay (R352) -/

/-- The lower middle value of a list; 0 of none [A 30]. -/
def median (xs : List Nat) : Nat := (xs.mergeSort (· ≤ ·)).getD ((xs.length - 1) / 2) 0
/-- A lane's delay in 1/16 CT. -/
def laneDelay (x : Lane) : Nat := median x.delays
/-- delay_p in 1/16 CT: the larger of the delays of the lanes in service. -/
def portDelay (s : State) (p : Fin 16) : Nat :=
  maxList ((indices 2).map fun l => if laneUp s p l then laneDelay (laneOfPort s p l) else 0)
/-- delay_p in CT units, rounded up [A 30]. -/
def portDelayCt (s : State) (p : Fin 16) : Nat := ceilDiv (portDelay s p) 16

/-- The lane a stitch frame takes: the one with the smaller delay (R345). -/
def quickLane (s : State) (p : Fin 16) : Option (Fin 2) :=
  match laneUp s p 0, laneUp s p 1 with
  | true, true => some (if laneDelay (laneOfPort s p 1) < laneDelay (laneOfPort s p 0) then 1 else 0)
  | true, false => some 0
  | false, true => some 1
  | false, false => none

/-- What becomes of a stitch frame given to a port. -/
inductive StitchResult where
  | sent (s : State)
  /-- No lane is in service. -/
  | noLane
  /-- It waits: for room in the replay buffer, or for HELLO to complete. -/
  | noRoom (s : State)

/-- A stitch frame goes ahead of everything else, inserted into the frame in progress where that may be; while frames are being sent again it
is sent once more in its sequence place (R331, R338, R339, R341, R345). -/
def sendStitch (s : State) (p : Fin 16) (st : Stitch) : StitchResult :=
  let s := pump s p
  match (if portUp s p then quickLane s p else none) with
  | none => .noLane
  | some l =>
    if !(hport s p).helloDone then .noRoom s
    else if !roomFor s p l (.stitch st) then .noRoom (laneStall s p l)
    else
      let s := idleUp s p l
      let x := laneOfPort s p l
      let s := startFrame s p l { body := .stitch st } (insertAt s x)
      .sent (modLane s p l fun y => if x.resend.isEmpty then y else { y with resend := y.resend ++ [x.txSeq] })

/-! ## The training stream (R300, R301) -/

/-- A CRC-8 of polynomial x^8 + x^2 + x + 1 over the low bits of a number, bit 0 first (R301). -/
def crc8 : Nat → Nat → Nat → Nat
  | 0, _, c => c
  | n + 1, v, c =>
    let top := (c / 128 + v) % 2
    let c' := c % 128 * 2
    crc8 n (v / 2) (if top = 1 then Nat.xor c' 7 else c')

/-- RX_STATE of the own receiver (R301, R307). -/
def rxCode : LaneState → Nat
  | .screen => 1 | .check => 2 | .ready => 3 | .go => 3 | .up => 4
  | .disabled => 0 | .noSignal => 0 | .acquire => 0 | .rateSwitch => 0 | .unthreaded => 0 | .sleep => 0 | .loopback => 0

/-- The payload of a TS of the controller: ROLE 0, every rate supported (R299, R301). -/
def tsPayload (x : Lane) (l : Fin 2) (kind rate param count : Nat) : BitVec 64 :=
  let v := 0xD2 + kind * 2 ^ 8 + l.val * 2 ^ 12 + rxCode x.state * 2 ^ 13 + 7 * 2 ^ 16 + rate * 2 ^ 19 + x.preset % 16 * 2 ^ 21 +
    count % 128 * 2 ^ 25 + param * 2 ^ 32
  BitVec.ofNat 64 (v + crc8 56 v 0 * 2 ^ 56)

/-- TS a lane has sent up to now: one in 32 blocks while the training stream runs (R300). -/
def tsNow (s : State) (x : Lane) : Nat :=
  x.tsCount + match x.tsSince with
    | some t => (100 * s.ct - t) / (32 * blockTime x.rate)
    | none => 0

/-- `n` TS of a kind one after another; the stream goes on after them, or not. -/
def sendTs (s : State) (p : Fin 16) (l : Fin 2) (kind rate param n : Nat) (stream : Bool) : State :=
  let x := laneOfPort s p l
  let c := tsNow s x
  let s := (List.range n).foldl (fun s i => emit s (.ts p l (tsPayload x l kind rate param (c + i)))) s
  modLane s p l fun x => { x with tsCount := if stream then c else c + n, tsSince := if stream then some (100 * s.ct) else none }

/-- The training stream with KIND TRAIN says what the receiver has come to (R301, R303, R308). -/
def sendTrain (s : State) (p : Fin 16) (l : Fin 2) : State := sendTs s p l 0 (laneOfPort s p l).rate 0 1 true

/-- The training stream ends. -/
def stopTs (s : State) (x : Lane) : Lane := { x with tsCount := tsNow s x, tsSince := none }

/-! ## Lanes and ports in service (R311-R317) -/

/-- LANES_UP of a port: bit 0 lane a, bit 1 lane b. -/
def lanesUp (s : State) (p : Fin 16) : Nat := b2n (laneUp s p 0) + 2 * b2n (laneUp s p 1)

/-- Code of a lane state in HLK_LANE_STAT (R328). -/
def laneCode : LaneState → Nat
  | .disabled => 0 | .noSignal => 1 | .acquire => 2 | .screen => 3 | .check => 4 | .ready => 5 | .go => 6 | .up => 7
  | .rateSwitch => 8 | .unthreaded => 9 | .sleep => 10 | .loopback => 11

/-- A lane's transmit and receive sides start afresh: sequence numbers count from the first frame after GO (R335). -/
def freshLane (x : Lane) (now : Nat) : Lane :=
  { x with
    txSeq := 0, held := [], resend := [], queue := [], free := 100 * now, curStart := 100 * now, curStitch := false, insEnd := 0
    blocked := false, ackAt := now, timeouts := 0
    rxNext := 0, rxOn := false, unacked := 0, unackedAt := 0, nakAt := none, naksTx := [], naksRx := [], malf := [], hello := false
    syncs := [], delays := [] }

/-- The frames a lane holds or queues are dropped (R317). -/
def dropFrames (x : Lane) : Lane := { x with held := [], resend := [], queue := [], blocked := false }

/-- A port is up or no longer up: what follows from it (R180, R260, R316, R317, R341). A port that goes down discards its replay buffer and what
waits for it. -/
def portChange (s : State) (p : Fin 16) (discarded : Nat) : State :=
  let h := hport s p
  if portUp s p == h.up then s
  else if h.up then
    let n := discarded + ((indices 2).map fun l => (vget h.lanes l).held.length).sum
    let s := modHport s p fun h => { h with
      up := false, identifying := false, identCmd := none, identOut := [], identWait := [], lanes := h.lanes.map dropFrames }
    let s := { s with fir := { s.fir with stitches := vset s.fir.stitches p [] } }
    let s := match h.identCmd with
      | some (pr, tag) => finishTag s pr tag stFailed 0x1009
      | none => s
    overlayChange (pathDown (raise s 107 p.val 0 (w32 n)) p) p true
  else
    let s := modHport s p fun h => { h with
      up := true, helloDone := false, chosen := 0, version := 0, helloAt := s.ct, helloSent := 0, helloFail := none, stalls := 0
      statusAt := s.ct, mgmtPast := [], statusPast := [] }
    overlayChange (pathUp (raise s 106 p.val 0 (w32 (lanesUp s p)) (w32 (hport s p).target)) p) p false

/-- What a lane leaves behind when it goes out of service: its unacknowledged frames go to the other lane in service, stitch frames
first, with REPLAY set; without one they are discarded (R313, R317). The number of such frames. -/
def moveFrames (s : State) (p : Fin 16) (l : Fin 2) : State × Nat :=
  let x := laneOfPort s p l
  let o : Fin 2 := 1 - l
  let old := x.held.map fun f => ({ body := f.body, replay := true } : QFrame)
  let old := old.filter (isStitch ·.body) ++ old.filter fun f => !isStitch f.body
  let s := modLane s p l fun x => freshLane x s.ct
  if laneUp s p o then
    let s := idleUp s p o
    (pump (modLane s p o fun y => { y with queue := old ++ y.queue ++ x.queue }) p, old.length)
  else (s, old.length)

/-- A lane leaves service for state `st`; the port may go down with it. Its frame count is given to `k`. -/
def leaveService (s : State) (p : Fin 16) (l : Fin 2) (st : LaneState) (k : State → Nat → State) : State :=
  let s := modLane (idleUp s p l) p l fun x => { x with state := st }
  let (s, n) := moveFrames s p l
  portChange (k s n) p n

/-- A training attempt begins: presets from 0, nothing checked, nothing heard of the far end (R304, R307, R328). -/
def beginAttempt (s : State) (x : Lane) : Lane :=
  { x with preset := 0, acqAt := s.ct, stepAt := s.ct, checks := 0, failed := 0, farReady := false, waking := false, rateReq := none }

/-- LANE_LOSS: a lane in service is lost: training stream, replay on the survivor, a rethread attempt at once at the target rate (R310, R312,
R313, R329). -/
def laneLost (s : State) (p : Fin 16) (l : Fin 2) (code : Nat) : State :=
  if !laneUp s p l then s
  else
    let s := leaveService s p l .acquire fun s n => raise s 105 p.val code (w32 l.val) (w32 (if laneUp s p (1 - l) then n else 0))
    sendTrain (modLane s p l fun x => { beginAttempt s x with
      losses := sat32 x.losses 1, why := 0, rate := (hport s p).target }) p l

/-- A command of HLK.SET_SLEEP has nothing more to wait for: asleep as asked, or every lane in service (R325, R326). -/
def sleepDone (s : State) (p : Fin 16) (c : Fin 4 × BitVec 16 × Nat × Nat) : Bool :=
  (indices 2).all fun l =>
    let x := laneOfPort s p l
    !(c.2.2.1 / 2 ^ l.val % 2 == 1) ||
      (if c.2.2.2 = 0 then x.state == .up else (x.state != .sleep && x.state != .up) || (x.state == .sleep && (c.2.2.2 % 2 == 0 || x.txSleep) && (c.2.2.2 / 2 == 0 || x.rxSleep)))

/-- Lanes in the state a SET_SLEEP asked for (R325). -/
def sleepLanes (s : State) (p : Fin 16) (c : Fin 4 × BitVec 16 × Nat × Nat) : Nat :=
  ((indices 2).map fun l =>
    let x := laneOfPort s p l
    let good := if c.2.2.2 = 0 then x.state == .up
      else x.state == .sleep && (c.2.2.2 % 2 == 0 || x.txSleep) && (c.2.2.2 / 2 == 0 || x.rxSleep)
    b2n (c.2.2.1 / 2 ^ l.val % 2 == 1 && good) * 2 ^ l.val).sum

/-- Commands of HLK.SET_SLEEP that are done reply. -/
def settleSleep (s : State) (p : Fin 16) : State :=
  (hport s p).sleepCmds.foldl (fun s c =>
    if sleepDone s p c then
      let s := modHport s p fun h => { h with sleepCmds := h.sleepCmds.filter (· != c) }
      finishTag s c.1 c.2.1 stOk 0 [w32 (sleepLanes s p c)]
    else s) s

/-- An attempt fails: the lane is unthreaded, its wait doubles up to 25.6 s, a wake that waits for it fails (R308, R315, R326). -/
def parkLane (s : State) (p : Fin 16) (l : Fin 2) (reason : Nat) : State :=
  let x := laneOfPort s p l
  let step := match x.step with
    | some k => min 8 (k + 1)
    | none => 0
  let wait := 100 * 2 ^ step
  let s := sendTrain (modLane s p l fun x => { x with
    state := .unthreaded, lastPark := reason, attempts := satAdd 255 x.attempts 1, step := some step, nextAt := s.ct + ms wait
    waking := false, rateReq := none, why := 0 }) p l
  let s := raise s (72 + 2 * p.val) l.val reason (w32 (satAdd 255 x.attempts 1)) (w32 wait) (w32 x.passMask)
  (hport s p).sleepCmds.foldl (fun s c =>
    if c.2.2.2 = 0 && c.2.2.1 / 2 ^ l.val % 2 == 1 then
      let s := modHport s p fun h => { h with sleepCmds := h.sleepCmds.filter (· != c) }
      finishTag s c.1 c.2.1 stFailed 0 [w32 (sleepLanes s p c)]
    else s) s

/-- A removed lane: a fault under R362 with its CODE and NEXT at the fault, then the loss of the lane. -/
def removeLane (s : State) (p : Fin 16) (l : Fin 2) (code next : Nat) : State :=
  laneLost (raise s 109 p.val code (w32 l.val) (w32 next)) p l 4

/-- A removed lane whose own receiver found the fault. -/
def removeHere (s : State) (p : Fin 16) (l : Fin 2) (code : Nat) : State := removeLane s p l code (laneOfPort s p l).rxNext

/-- A rethread attempt: state ACQUIRE at the target rate (R308, R310, R315). -/
def startAttempt (s : State) (p : Fin 16) (l : Fin 2) : State :=
  sendTrain (modLane s p l fun x => { beginAttempt s x with state := .acquire, rate := (hport s p).target }) p l

/-- A stitch frame given to a port behind those that wait for it (R339). -/
def giveStitch (s : State) (p : Fin 16) (st : Stitch) : State :=
  let later (s : State) : State := { s with fir := { s.fir with stitches := vmod s.fir.stitches p (· ++ [st]) } }
  if !(vget s.fir.stitches p).isEmpty then later s
  else match sendStitch s p st with
    | .sent s => s
    | .noLane => s
    | .noRoom s => later s

/-- A stitch frame with FLUSH for a panel, on every port that is up and takes part (R349). -/
def sendFlush (s : State) (pan : Panel) : State :=
  (partPorts pan).foldl (fun s p => giveStitch s p { panel := pan.num, line := 0xFFFFFFFF, flush := true, epoch := s.seq.epoch }) s

end Sys2Proof.Machine
end

