-- ==== Sys2Proof/Machine/Time.lean ====
section
/-! DEFINITION. Chip time and the four time bases: the snapshot, slews, TIM.SET_TB (R446-R451, R471-R473). -/

namespace Sys2Proof.Machine

open Sys2Proof

/-- One time base changed. -/
def modTb (s : State) (b : Fin 4) (f : TimeBase → TimeBase) : State := { s with tim := { s.tim with tbs := vmod s.tim.tbs b f } }

/-- Whole nanoseconds of a time base, seconds included. -/
def tbTotalNs (b : TimeBase) : Nat := b.t / tbNs
/-- A total time in 1/16 ns, as stamps carry it (R454). -/
def sixteenths (t : Nat) : Nat := t / (tbNs / 16)
/-- Seconds, nanoseconds and the 16-bit fraction of a total time (R448). -/
def tbSec (t : Nat) : Nat := t / tbNs / 1000000000
def tbNsPart (t : Nat) : Nat := t / tbNs % 1000000000
def tbFrac (t : Nat) : Nat := (t % tbNs) / (tbNs / 65536)

/-- Slew left in whole nanoseconds, signed, towards zero [A 10]. -/
def slewNs (b : TimeBase) : Int := Int.tdiv b.slew (tbNs : Int)

/-- The ports whose SLAVE instance is bound to a time base: at most one (R458). -/
def tbSlave (s : State) (b : Fin 4) : Option (Fin 2) :=
  (indices 2).find? fun e => (vget s.eth e).ptp.role == .slave && (vget s.eth e).ptp.tb == b

/-- A time base takes a new total time by SET or STEP: the count of steps moves on and EV_TIM_STEP is raised (R449, R473, R475). -/
def tbJump (s : State) (b : Fin 4) (t : Nat) (cancelSlew : Bool) (code : Nat) (secs ns : Int) : State :=
  let s := modTb s b fun x =>
    { x with t := t, slew := if cancelSlew then 0 else x.slew, steps := x.steps + 1, stepAt := some s.ct }
  raise s 172 b.val code (w32 (toBits 32 secs)) (w32 (toBits 32 ns))

/-- SLEW_COMPLETE: the pending slew of a time base is used up (R450). -/
def execSlewComplete (b : Fin 4) (s : State) : Host.Outcome State Fault Refusal :=
  .next (advance s (ceilDiv (vget s.tim.tbs b).slew.natAbs (2 ^ 43)))

/-- A host read completes with a word. -/
def answerRead (s : State) (w : Word) : State := emit s (.hostRead .success (natLe w.toNat 4))

/-- TIM_CT_LO_READ: the host's read captures CT and the four time bases and returns CT [31:0] (R447). -/
def timCtLoRead (s : State) : State := answerRead { s with tim := { s.tim with ctSnap := s.ct, tbSnap := s.tim.tbs.map (·.t) } } (w32 s.ct)

def execTimCtLoRead (s : State) : Host.Outcome State Fault Refusal := .next (if s.bob.linkUp then timCtLoRead s else s)

/-- TIM.SET_TB (R471): TB, OP, seconds, ns and RATE. -/
def timSetTbSpec : CmdSpec := fixedSpec 0x0901 [0xF, 0xFFFFFFFF, 0xFFFF, 0xFFFFFFFF, 0xFFFFFFFF]

def setTbOp (c : Cmd) : Nat := bits (pw c 0) 3 2
def setTbIdx (c : Cmd) : Fin 4 := ⟨bits (pw c 0) 1 0, Nat.mod_lt _ (by decide)⟩
/-- The 48-bit seconds of words 1 and 2. -/
def setTbSecs (c : Cmd) : Nat := (pw c 1).toNat + 2 ^ 32 * bits (pw c 2) 15 0
def tbBound (s : State) (c : Cmd) : Bool := (tbSlave s (setTbIdx c)).isSome
/-- DETAIL TB_BOUND (R472). -/
def dTbBound : Nat := 0x1001

/-- SET: time becomes the given seconds and ns, fraction 0; a pending slew is cancelled (R449). -/
def timSetTbSet (c : Cmd) (s : State) : CmdRes :=
  let ns := (pw c 3).toNat
  firstFail s [chkS (tbBound s c) dTbBound, chkW (ns ≥ 1000000000) 3]
    (.ok (touch (tbJump s (setTbIdx c) ((setTbSecs c * 1000000000 + ns) * tbNs) true 0 (setTbSecs c) ns) .tim))

def execTimSetTbSet (c : Cmd) (s : State) : Host.Outcome State Fault Refusal :=
  .next (if setTbOp c = 0 then runCmd s timSetTbSpec c (timSetTbSet c) else s)

/-- STEP: adds a signed offset; a pending slew continues; a time below 0 s or above 2^48 - 1 s is refused (R449). -/
def timSetTbStep (c : Cmd) (s : State) : CmdRes :=
  let b := vget s.tim.tbs (setTbIdx c)
  let secs := signed 48 (setTbSecs c)
  let ns := sbits (pw c 3) 31 0
  let t : Int := b.t + (secs * 1000000000 + ns) * tbNs
  firstFail s [chkS (tbBound s c) dTbBound, chkW (t < 0 || tbSec t.toNat ≥ 2 ^ 48) 1]
    (.ok (touch (tbJump s (setTbIdx c) t.toNat false 1 secs ns) .tim))

def execTimSetTbStep (c : Cmd) (s : State) : Host.Outcome State Fault Refusal :=
  .next (if setTbOp c = 1 then runCmd s timSetTbSpec c (timSetTbStep c) else s)

/-- SLEW: replaces a pending slew by a signed offset of up to 10^9 ns; the result is the remainder it cancelled (R449). -/
def timSetTbSlew (c : Cmd) (s : State) : CmdRes :=
  let b := vget s.tim.tbs (setTbIdx c)
  let ns := sbits (pw c 3) 31 0
  firstFail s [chkS (tbBound s c) dTbBound, chkW (ns < -1000000000 || ns > 1000000000) 3]
    (.ok (touch (modTb s (setTbIdx c) fun x => { x with slew := ns * tbNs }) .tim) [w32 (toBits 32 (slewNs b))])

def execTimSetTbSlew (c : Cmd) (s : State) : Host.Outcome State Fault Refusal :=
  .next (if setTbOp c = 2 then runCmd s timSetTbSpec c (timSetTbSlew c) else s)

/-- RATE: sets RATE, within +-500 ppm (R448, R449). -/
def timSetTbRate (c : Cmd) (s : State) : CmdRes :=
  let r := sbits (pw c 4) 31 0
  firstFail s [chkS (tbBound s c) dTbBound, chkW (r < -32768000 || r > 32768000) 4]
    (.ok (touch (modTb s (setTbIdx c) fun x => { x with rate := r }) .tim))

def execTimSetTbRate (c : Cmd) (s : State) : Host.Outcome State Fault Refusal :=
  .next (if setTbOp c = 3 then runCmd s timSetTbSpec c (timSetTbRate c) else s)

end Sys2Proof.Machine
end

