-- ==== Sys2Proof/Machine/Fir.lean ====
section
/-! DEFINITION. FIR: the feed, the estimator, predicted crossings, commits, bar decisions, interlocks (R215-R253). -/

namespace Sys2Proof.Machine

open Sys2Proof

def modFir (s : State) (f : Fir → Fir) : State := { s with fir := f s.fir }

/-! ## The feed (R215-R217, R221, R226) -/

/-- DIR reverses every count (R216). -/
def feedSign (s : State) : Int := if s.fir.dir then -1 else 1

/-- Address units of the own axis at a CT, from the newest sample (R226). -/
def sampleAt (x : AxisSample) (t : Nat) : Int := cubicAt x.p x.v x.a x.j ((t : Int) - x.t)

/-- Lines of a number of address units with 32 fraction bits, through SCALE and DIR (R216). -/
def linesOf (s : State) (addr : Int) : Int := feedSign s * (addr * s.fir.scale) / 2 ^ 32

/-- Divisor of the virtual feed: VRATE has 8 fraction bits and a second is 25 * 2^48 * 10^9 time base units. -/
def virtDen : Nat := 256 * tbNs * 1000000000

/-- Units the virtual feed's time base has run since FIR.SET_FEED. -/
def virtUnits (s : State) : Nat := (vget s.tim.tbs s.fir.tb).elapsed - s.fir.vBase

/-- The feed position A as it stands now: the count of an external encoder, the profile plus correction of an own axis, the elapsed
time of a virtual feed (R216, R226). -/
def feedNow (s : State) : Int :=
  match s.fir.src, s.fir.sample with
  | 1, some x => linesOf s (sampleAt x s.ct) + s.fir.corr
  | 2, _ => s.fir.a
  | 3, _ => (s.fir.vrate * virtUnits s * 2 ^ 32 : Nat) / (virtDen : Int)
  | _, _ => s.fir.a

/-- HWM rises to a position reached at `t`; its course over the last millisecond is kept (R221, R223, R231). -/
def raiseHwm (s : State) (t : Nat) (x : Int) : State :=
  if x ≤ s.fir.hwm then s
  else modFir s fun f => { f with hwm := x, rise := (t, x) :: s.fir.rise.filter fun e => t < e.1 + 402000 }

/-- FIR_STAT shows that HOLD, or an interlock or a feed fault, has stopped firing in a panel (R255). -/
def markStopped (s : State) (pan : Panel) (hold : Bool) : State :=
  modPanel s pan.num fun x => if hold then { x with hold := true } else { x with stopped := true }

/-- The edges the baseline still needs: all younger than it and one at or beyond it (R225). -/
def pruneEdges (base : Nat) (te : Nat) : List (Nat × Int) → List (Nat × Int)
  | [] => []
  | e :: es => if te - e.1 ≥ base then [e] else e :: pruneEdges base te es

/-- A count edge of a quadrature input: the external feed counts it, an own axis with ENC takes it as encoder position with the
commanded address units at its stamp (R215-R217, R226). -/
def feedEdge (s : State) (n : Fin 6) (d : Int) (stamp : Nat) (addrAtStamp : Int) : State :=
  let f := s.fir
  let k := feedSign s * d
  if f.axis != n.val then s
  else if f.src = 2 then
    let pos := f.a + k * f.scale
    let edges := pruneEdges (200 * f.base) stamp ((stamp, pos) :: f.edges)
    raiseHwm (modFir s fun f => { f with a := pos, cnt := f.cnt + k, cntMax := max f.cntMax (f.cnt + k), edges := edges }) stamp pos
  else if f.src = 1 && f.enc then
    modFir s fun f => { f with
      encPos := f.encPos + k * f.encScale, encEdge := some (stamp, addrAtStamp), cnt := f.cnt + k, cntMax := max f.cntMax (f.cnt + k) }
  else s

/-- MOT hands over its feed axis at a frame: address units moved since the last one, and the profile; the correction c is updated
(R226, R437). -/
def feedTick (s : State) (n : Fin 6) (moved v a jk : Int) : State :=
  let f := s.fir
  if f.src != 1 || f.axis != n.val then s
  else
    let p := f.cmdPos + moved
    let s := modFir s fun f => { f with cmdPos := p, sample := some { t := s.ct, p := p, v := v, a := a, j := jk } }
    match f.enc, f.encEdge with
    | true, some (_, addr) => modFir s fun f => { f with corr := f.corr + ((f.encPos - linesOf s addr) - f.corr) / 2 ^ f.cshift }
    | _, _ => s

/-- A feed fault: latched and reported; the active panel's undecided lines end UNFIRED (R218). -/
def feedFault (s : State) (code : Nat) : State :=
  if s.fir.feedFault then s
  else
    let s := raise (modFir s fun f => { f with feedFault := true }) 40 s.fir.axis code (w32 (toBits 32 (feedNow s / 2 ^ 16)))
    match s.pdp.active with
    | some pan => if s.fir.next < panelEnd pan then cutPanel (markStopped s pan false) pan s.fir.next 5 else s
    | none => s

/-- A quadrature error on an encoder FIR uses (R218, R427). -/
def feedQuadError (s : State) (n : Fin 6) : State :=
  if s.fir.axis = n.val && (s.fir.src = 2 || (s.fir.src = 1 && s.fir.enc)) then
    feedFault (modFir s fun f => { f with feedErr := sat32 f.feedErr 1 }) 1
  else s

/-- MOT disables the feed axis (R218). -/
def feedAxisOff (s : State) (n : Fin 6) : State := if s.fir.axis = n.val && s.fir.src = 1 then feedFault s 2 else s

/-- The estimate for an external encoder (R225). While no newer baseline midpoint has come the acceleration stands [A 44]. -/
def estimate (s : State) : State :=
  let f := s.fir
  match f.edges with
  | [] => modFir s fun f => { f with vel := 0, acc := 0 }
  | (te, pe) :: _ =>
    match f.edges.find? fun e => te - e.1 ≥ 200 * f.base && e.1 < te with
    | none => modFir s fun f => { f with vel := 0, acc := 0 }
    | some (tb, pb) =>
      if s.ct - te > ms f.stop then modFir s fun f => { f with vel := 0, acc := 0 }
      else
        let vm : Int := (pe - pb) * 2 ^ 64 / ((te - tb : Nat) : Int)
        let acc := match f.vmPrev with
          | some (v0, tm0) =>
            if te + tb ≤ tm0 then f.acc
            else f.acc + (2 * (vm - v0) / ((te + tb - tm0 : Nat) : Int) - f.acc) / 2 ^ f.ashift
          | none => f.acc
        modFir s fun f => { f with acc := acc, vel := vm + acc * ((te - tb : Nat) : Int) / 2, vmPrev := some (vm, te + tb) }

/-- v at the latest update, in lines per second with 8 fraction bits (R254, R255). -/
def feedVel (s : State) : Int :=
  match s.fir.src, s.fir.sample with
  | 1, some x => feedSign s * ((x.v + x.a * ((max s.fir.updAt x.t : Nat) - x.t) / 400000000) * s.fir.scale) / 2 ^ 88
  | 2, _ => s.fir.vel * 400000000 / 2 ^ 88
  | 3, _ => s.fir.vrate
  | _, _ => 0

/-! ## Predicted crossings (R223, R227, R228) -/

/-- What is known of the instant at which a row is to fire. -/
inductive Crossing where
  /-- HWM has crossed the target, at this instant unless it was not kept. -/
  | crossed (t : Option Int)
  /-- The fire instant, crossing plus TIME_TRIM, and whether the prediction is trusted. -/
  | instant (t : Int) (trusted : Bool)
  | never
  deriving DecidableEq, Repr

/-- A quotient rounded to the nearest integer, ties upward (R227). -/
def roundDiv (num den : Int) : Int := (2 * num + den) / (2 * den)

/-- When HWM crossed a target, plus the trim, from its kept course: at the edge of an external encoder, between two updates otherwise. -/
def crossedAt (s : State) (x trim : Int) : List (Nat × Int) → Option Int
  | (t2, a2) :: (t1, a1) :: es =>
    if a1 < x ∧ x ≤ a2 then
      if s.fir.src = 2 then some (t2 + trim)
      else some (roundDiv ((t1 + trim) * (a2 - a1) + (x - a1) * ((t2 : Int) - t1)) (a2 - a1))
    else crossedAt s x trim ((t1, a1) :: es)
  | _ => none

/-- The first CT of `n` from `t` on at which the own axis has reached a position. -/
def axisReach (s : State) (x : AxisSample) (pos : Int) : Nat → Nat → Option Nat
  | 0, _ => none
  | n + 1, t => if linesOf s (sampleAt x t) + s.fir.corr ≥ pos then some t else axisReach s x pos n (t + 1)

/-- The integer square root of `n`, found bit by bit from bit `k` down. -/
def sqrtBits (n : Nat) : Nat → Nat → Nat
  | 0, r => r
  | k + 1, r => if (r + 2 ^ k) * (r + 2 ^ k) ≤ n then sqrtBits n k (r + 2 ^ k) else sqrtBits n k r

/-- The integer square root. -/
def isqrt (n : Nat) : Nat := sqrtBits n (Nat.log2 n / 2 + 1) 0

/-- The crossing of a target by the source, plus the trim (R227, R228). `ahead` is how far the search of an own axis looks. -/
def predict (s : State) (x trim : Int) (ahead : Nat) : Crossing :=
  let f := s.fir
  match f.src with
  | 1 =>
    match f.sample with
    | some sm =>
      match axisReach s sm x ahead s.ct with
      | some t => .instant (t + trim) true
      | none => .never
    | none => .never
  | 2 =>
    match f.edges with
    | [] => .never
    | (te, pe) :: _ =>
      let dx := (x - pe) * 2 ^ 64
      let disc := f.vel * f.vel + 2 * f.acc * dx
      if f.vel ≤ 0 ∨ disc < 0 then .never
      else
        let den := f.vel + isqrt disc.toNat
        .instant (roundDiv (2 * dx + (te + trim) * den) den) (2 * dx ≤ (400 * f.extrap : Nat) * den)
  | 3 =>
    let rate : Int := (f.vrate * 2 ^ 32 * tbInc (vget s.tim.tbs f.tb).rate : Nat)
    if rate = 0 then .never
    else .instant (roundDiv (x * (virtDen : Nat) - (f.vrate * 2 ^ 32 * virtUnits s : Nat) + (s.ct + trim) * rate) rate) true
  | _ => .never

/-- What is known of a row's fire instant (R221, R223, R231). -/
def crossing (s : State) (x trim : Int) (ahead : Nat) : Crossing :=
  if s.fir.hwm ≥ x then
    match crossedAt s x trim s.fir.rise with
    | some t => if trim > 0 then .instant t true else .crossed (some t)
    | none => .crossed none
  else predict s x trim ahead

/-! ## Rows to commit (R230, R231) -/

/-- The earliest instant FIR commits on a port at an update: that of a reactive row (R231). -/
def reactAt (s : State) (p : Fin 16) : Nat := s.ct + s.fir.lead + portDelayCt s p + 400

/-- Mapped rows of a port with their row-lanes. -/
def firRows (pan : Panel) (p : Fin 16) : List (Fin 32 × Fin 512) := (mappedLanes pan p).map fun g => (rowOf g, g)

/-- Rows of a line on a port not committed yet. -/
def openRows (s : State) (pan : Panel) (p : Fin 16) (abs : Nat) : List (Fin 32 × Fin 512) :=
  (firRows pan p).filter fun r => !(vget s.fir.commits p).any fun c => c.abs == abs && c.row == r.1

/-- The rows of a line to commit on a port now: row and instant of the reactive ones with the greatest lateness, then of the
predicted ones. -/
structure Due where
  late : List (Fin 32 × Nat) := []
  lateness : Nat := 0
  ahead : List (Fin 32 × Nat) := []
  untrusted : Bool := false

/-- The rows due on a port at this update (R230, R231) [A 45]. -/
def dueRows (s : State) (pan : Panel) (p : Fin 16) (abs : Nat) : Due :=
  let react := reactAt s p
  let trim := vget s.fir.trim p
  let look := s.fir.lead + portDelayCt s p + 5800 + (-trim).toNat
  let rows := (openRows s pan p abs).map fun r => (r.1, crossing s (targetOf pan abs (vget s.fir.rowOff r.2)) trim look)
  let d : Due := rows.foldl (fun d r => match r.2 with
    | .crossed t => { d with late := d.late ++ [(r.1, react)], lateness := max d.lateness ((react : Int) - t.getD s.ct).toNat }
    | .instant t true =>
      if t < react then { d with late := d.late ++ [(r.1, react)], lateness := max d.lateness ((react : Int) - t).toNat }
      else if t < react + 5400 then { d with ahead := d.ahead ++ [(r.1, t.toNat)] }
      else d
    | .instant _ false => { d with untrusted := true }
    | .never => d) {}
  if !d.late.isEmpty || (vget s.fir.commits p).any (·.abs == abs) || d.ahead.any (fun r => r.2 < react + 400) then d else { d with ahead := [] }

def Due.rows (d : Due) : List (Fin 32 × Nat) := d.late ++ d.ahead

/-! ## Commits (R230-R233, R244, R246) -/

/-- A port may commit: up, and its head inside the window (R244). -/
def portOk (s : State) (p : Fin 16) : Bool := portUp s p && headInWindow s p

/-- A head holds the line: it was handed over and not dropped since (R180, R246). -/
def holdsLine (s : State) (p : Fin 16) (abs : Nat) : Bool := (pport s p).lines.any fun l => l.abs == abs && l.sent

/-- Rows of a decided line are committed in one stitch frame (R230, R231, R233); on a port that may not commit, or that holds no data of
the line, the line ends UNFIRED (R244, R246). -/
def commitRows (s : State) (pan : Panel) (p : Fin 16) (abs : Nat) (late ahead : List (Fin 32 × Nat)) (lateness : Nat) : State :=
  let rows := late ++ ahead
  if rows.isEmpty then s
  else if !(portOk s p && holdsLine s p abs) then endOn s pan p abs false
  else
    let line := abs - pan.base
    let st : Stitch := { panel := pan.num, line := line, epoch := (vget s.ep (1 : Fin 9)).epoch, rows := rows }
    let s := modFir s fun f => { f with
      stitches := vmod f.stitches p (· ++ [st])
      commits := vmod f.commits p (· ++ rows.map fun r => { abs := abs, row := r.1, at' := r.2 })
      reactiveCnt := sat32 f.reactiveCnt late.length }
    let first := match panelNamed s pan.num with
      | some x => !x.late.contains p
      | none => false
    if !late.isEmpty && first then
      raise (modPanel s pan.num fun x => { x with late := p :: x.late }) 42 p.val 0 (w32 line) (w32 lateness)
    else s

/-- Every decided line takes the rows due on each port: lines with reactive rows only, or all (R229). -/
def commitDecided (s : State) (reactive : Bool) : State :=
  s.fir.decs.foldl (fun s d => match panelAt s d.abs with
    | none => s
    | some pan => d.left.foldl (fun s p =>
        let u := dueRows s pan p d.abs
        if reactive && u.late.isEmpty then s else commitRows s pan p d.abs u.late u.ahead u.lateness) s) s

/-! ## Line rate (R5, R236, R240, R242) -/

/-- The line rate of R5 without the thermal term: 80 kHz and the rank records of the panel's ports. -/
def fOther (s : State) (pan : Panel) : Nat :=
  (partPorts pan).foldl (fun f p => match (hport s p).rank with
    | some r => min f r.maxRate
    | none => f) 80000

/-- f_lim of R236. -/
def fLim (s : State) (pan : Panel) : Nat := min (fOther s pan) (thermalRate s)

/-- T_lim = ceil(400,000,000 / f_lim). -/
def tLimOf (f : Nat) : Nat := ceilDiv 400000000 (max 1 f)

/-- T_lim of a panel's decisions: under CAP that adopted last (R240). -/
def tLim (s : State) (pan : Panel) : Nat :=
  match pan.overspeed == 2, s.fir.tHeld with
  | true, some t => t
  | _, _ => tLimOf (fLim s pan)

/-- The lower of a ceiling and one lowered for lag. -/
def withLag (s : State) (c : Nat) : Nat := min c (s.fir.lagCeil.getD c)

/-- EV_FIR_CAP (R256). -/
def capEvent (s : State) (pan : Panel) (code : Nat) : State :=
  match s.fir.ceiling with
  | some c => raise s 41 pan.num.toNat code (w32 (withLag s c))
  | none => s

/-- The axis ceiling of a CAP panel follows f_lim: lowered at once with T_lim adopted once the axis is under it, raised at once with
its T_lim (R240). -/
def capUpdate (s : State) : State :=
  match s.pdp.active with
  | none => s
  | some pan =>
    if pan.overspeed != 2 then s
    else
      let f := fLim s pan
      let c := f * s.fir.capMargin / 256
      let set (s : State) (t : Nat) : State :=
        let s := modFir s fun x => { x with ceiling := some c, tHeld := some t }
        capEvent (setAxisCeiling s s.fir.axis (some (withLag s c))) pan 0
      match s.fir.ceiling, s.fir.tHeld with
      | some c0, some t0 =>
        if c < c0 then set s t0
        else if c > c0 then set s (tLimOf f)
        else if t0 != tLimOf f && axisUnderCeiling s s.fir.axis then capEvent (modFir s fun x => { x with tHeld := some (tLimOf f) }) pan 1
        else s
      | _, _ => set s (tLimOf f)

/-- A lagging port lowers the ceiling of a CAP panel by f_lim/16, to no less than f_lim/2, until the hem (R242). -/
def capLag (s : State) (pan : Panel) : State :=
  match s.fir.ceiling with
  | none => s
  | some c =>
    let f := fLim s pan
    let s := modFir s fun x => { x with lagCeil := some (max (f / 2) (withLag s c - f / 16)) }
    capEvent (setAxisCeiling s s.fir.axis (some (withLag s c))) pan 2

/-! ## Stops (R239, R244, R246) -/

/-- Firing stops in a panel: its undecided lines become UNFIRED as HWM crosses them (R239, R244). -/
def stopPanel (s : State) (pan : Panel) (kind : Nat) : State :=
  let s := setEndKind s pan.num kind
  markStopped (modPanel s pan.num fun x => { x with stopKind := some (x.stopKind.getD kind) }) pan (kind == 1)

/-- FIR's next line passes lines that have ended on every port that takes part, as TABLE_INVALID ends them, and lines of closed panels
(R175). -/
def passEnded (s : State) : Nat → State
  | 0 => s
  | fuel + 1 =>
    let abs := s.fir.next
    match panelAt s abs with
    | none => match (panels s).find? fun pan => abs < pan.base with
      | some pan => modFir s fun f => { f with next := pan.base }
      | none => s
    | some pan =>
      let n := minList ((partPorts pan).map fun p => min (panelEnd pan) (nextOn s p (pport s p).ended 6 (max abs (pport s p).f)))
      if n ≤ abs then s else passEnded (modFir s fun f => { f with next := n }) fuel

/-- The undecided lines of a stopped panel that HWM has crossed end UNFIRED (R239, R244). -/
def crossStopped (s : State) : State :=
  let s := passEnded s 4
  match panelAt s s.fir.next with
  | none => s
  | some pan =>
    match pan.stopKind with
    | none => s
    | some k =>
      let ahead := s.fir.hwm - targetOf pan s.fir.next (rMinBar s pan)
      if ahead < 0 then s
      else
        let n := (ahead / one32).toNat + 1
        let hi := min (panelEnd pan) (s.fir.next + n)
        unfireBar (modFir s fun f => { f with next := hi, overFired := 0 }) pan s.fir.next hi k

/-- The port whose loss stops a panel without CONTINUE_DEGRADED, and the end kind (R244). -/
def portStop (s : State) (pan : Panel) : Option Nat :=
  if pan.degraded then none
  else if (partPorts pan).any fun p => !portUp s p then some 3
  else if (partPorts pan).any fun p => !headInWindow s p then some 5
  else none

/-- A condition of R244 that stops the panel whose lines are being decided: taken when one of its lines has been decided, or when its
first line falls due. -/
def applyStops (s : State) (pan : Panel) : State :=
  if pan.stopKind.isSome then s
  else if s.fir.feedFault then cutPanel (markStopped s pan false) pan s.fir.next 5
  else if !jetOk s then stopPanel s pan 5
  else match portStop s pan with
    | some k => cutPanel (markStopped s pan false) pan s.fir.next k
    | none => s

/-- The same at an update for a panel that has lines decided already; before its first decision it stops for a feed fault and for a port that
this update finds lost, not for JET_EN (R244, R245) [A 97]. -/
def stopNow (s : State) (lost : List (Fin 16)) : State :=
  match panelAt s s.fir.next with
  | some pan =>
    if s.fir.next > pan.base then applyStops s pan
    else if pan.stopKind.isSome then s
    else if s.fir.feedFault then cutPanel (markStopped s pan false) pan s.fir.next 5
    else if lost.any (takes pan) then match portStop s pan with
      | some k => cutPanel (markStopped s pan false) pan s.fir.next k
      | none => s
    else s
  | none => s

/-- Lines decided FIRE whose rows are not all committed end UNFIRED when no row may be committed any more (R218, R244). -/
def dropOpen (s : State) : State :=
  s.fir.decs.foldl (fun s d => match panelAt s d.abs with
    | none => s
    | some pan => d.left.foldl (fun s p =>
        if (openRows s pan p d.abs).isEmpty then s else endOn (setEndKind s pan.num 5) pan p d.abs false) s) s

/-! ## Bar decisions (R235-R243) -/

/-- The line after the last one of the open panels. -/
def lastEnd (s : State) : Nat := maxList ((panels s).map panelEnd)

/-- A port that takes part, is up and lacks the line after the next to be decided; of the last line of all, that line itself (R242)
[A 46]. -/
def laggingPort (s : State) (pan : Panel) (abs : Nat) : Option (Fin 16) :=
  (partPorts pan).find? fun p => portUp s p && (pport s p).s < min (abs + 2) (lastEnd s)

/-- A line is skipped on every port and recorded (R238, R243). -/
def skipLine (s : State) (pan : Panel) (abs code period t : Nat) (port : Nat) : State :=
  let line := abs - pan.base
  let episode := code != 2 && !s.fir.overSpeed
  let s := if episode then
      raise (modFir s fun f => { f with overSpeed := true, overSkipped := 0 }) 34 pan.num.toNat 0 (w32 line) (w32 period) (w32 t)
    else s
  let s := modFir s fun f => { f with
    next := abs + 1, skippedCnt := sat32 f.skippedCnt 1, overFired := 0
    overSkipped := if f.overSpeed then f.overSkipped + 1 else f.overSkipped }
  let s := raise s 35 pan.num.toNat code (w32 line) (w32 period) (w32 port)
  endBar s pan abs (abs + 1) true

/-- A line is decided FIRE; 256 of them in a row end an over-speed episode (R235, R238). -/
def fireLine (s : State) (pan : Panel) (abs period t : Nat) : State :=
  let n := s.fir.overFired + 1
  let open' := (partPorts pan).filter fun p => !endedOn s p abs
  let gone := (partPorts pan).any fun p => endedOn s p abs && portUp s p
  let dec : Dec := { abs := abs, left := open', anyUnfired := open' != partPorts pan, upUnfired := gone }
  let s := modFir s fun f => { f with next := abs + 1, overFired := n, decs := f.decs ++ [dec] }
  if s.fir.overSpeed && n ≥ 256 then
    raise (modFir s fun f => { f with overSpeed := false }) 34 pan.num.toNat 1 (w32 (abs - pan.base)) (w32 period) (w32 t) (w32 s.fir.overSkipped)
  else s

/-- The bar decision of a line at its decision time (R237-R239, R242). -/
def decideLine (s : State) (pan : Panel) (abs at' : Nat) : State :=
  let t := tLim s pan
  let f := s.fir
  let period := match f.tPrev with
    | some t0 => at' - t0
    | none => 0
  let credit : Int := match f.tPrev with
    | some t0 => min (2 * t : Nat) (f.credit + ((at' : Int) - t0))
    | none => (2 * t : Nat)
  let s := modFir s fun f => { f with credit := credit, tPrev := some at' }
  let lag := laggingPort s pan abs
  let fast := credit < t || match f.tFired with
    | some t0 => (at' : Int) - t0 < (t * f.skipFloor / 256 : Nat)
    | none => false
  if lag.isSome || fast then
    if pan.overspeed = 1 then
      raise (stopPanel s pan 1) 37 pan.num.toNat (if lag.isSome then 2 else 1) (w32 (abs - pan.base))
    else
      let code := if lag.isSome then 2 else if pan.overspeed = 2 then 3 else 1
      let port := match lag with
        | some p => p.val
        | none => 0xFFFF
      let s := skipLine s pan abs code period t port
      if lag.isSome && pan.overspeed = 2 then capLag s pan else s
  else fireLine (modFir s fun f => { f with credit := credit - t, tFired := some at' }) pan abs period t

/-- The rows that would be committed first of an undecided line, over the ports that may commit; over all when none may (R235, R244). -/
def firstRows (s : State) (pan : Panel) (abs : Nat) : List Nat × Bool :=
  let able := (partPorts pan).filter (portOk s)
  let us := (if able.isEmpty then partPorts pan else able).map fun p => dueRows s pan p abs
  (us.flatMap fun u => u.rows.map (·.2), us.any (·.untrusted))

/-- Decisions in ascending line order, each with its commits, until a line is not due (R229, R235). -/
def decideLines (s : State) : Nat → State
  | 0 => s
  | fuel + 1 =>
    let s := crossStopped s
    let abs := s.fir.next
    match panelAt s abs with
    | none => s
    | some _ =>
      let s := stopNow s []
      if s.fir.next != abs then decideLines s fuel
      else match panelAt s abs with
        | none => s
        | some pan =>
          if pan.stopKind.isSome then s
          else
            let (ts, untrusted) := firstRows s pan abs
            if ts.isEmpty then modFir s fun f => { f with untrusted := untrusted }
            else
              let s' := applyStops s pan
              if s'.fir.next != abs || (panelAt s' abs).any (·.stopKind.isSome) then decideLines s' fuel
              else
                let s := decideLine s pan abs (minList ts)
                let open' := ((s.fir.decs.find? (·.abs == abs)).map (·.left)).getD []
                decideLines (open'.foldl (fun s p =>
                  let u := dueRows s pan p abs
                  commitRows s pan p abs u.late u.ahead u.lateness) s) fuel

/-! ## Events of an update (R222, R241, R256) -/

/-- First line not committed on a port, or without a decision for the bar, in its panel's numbers. -/
def firstOpenLine (s : State) (p : Option (Fin 16)) : Nat :=
  let abs := match p with
    | some p => match s.fir.decs.find? fun d => d.left.contains p && (match panelAt s d.abs with
        | some pan => !(openRows s pan p d.abs).isEmpty
        | none => false) with
      | some d => d.abs
      | none => s.fir.next
    | none => s.fir.next
  match panelAt s abs with
  | some pan => abs - pan.base
  | none => 0

/-- The line from which firing resumes once an interlock clears: on a port that goes on, its first line decided FIRE and not committed there for
which it holds data; of a panel that stays stopped none, so line 0 of the next (R245, R246, R256). -/
def resumeLine (s : State) (p : Option (Fin 16)) : Nat :=
  match panelAt s s.fir.next with
  | none => 0
  | some pan =>
    if pan.stopKind.isSome then 0
    else match p.bind fun p => (s.fir.decs.find? fun d => d.left.contains p && holdsLine s p d.abs && (match panelAt s d.abs with
        | some x => !(openRows s x p d.abs).isEmpty
        | none => false)) with
      | some d => match panelAt s d.abs with
        | some x => d.abs - x.base
        | none => 0
      | none => s.fir.next - pan.base

/-- Interlocks of a port: 2 down, 3 outside its window. -/
def portLockOf (s : State) (p : Fin 16) : Option Nat :=
  if !portUp s p then some 2 else if !headInWindow s p then some 3 else none

/-- Interlocks that come while a panel is open, and those that clear, are reported (R256) [A 47]. -/
def lockEvents (s : State) : State :=
  let isOpen := s.pdp.active.isSome || s.pdp.queued.isSome
  let s :=
    if isOpen && !jetOk s && !s.fir.jetLock then
      raise (modFir s fun f => { f with jetLock := true }) 38 0xFFFF 1 (w32 (firstOpenLine s none))
    else if jetOk s && s.fir.jetLock then
      raise (modFir s fun f => { f with jetLock := false }) 39 0xFFFF 1 (w32 (resumeLine s none))
    else s
  (indices 16).foldl (fun s p =>
    match vget s.fir.portLock p, portLockOf s p with
    | none, some c =>
      if inPanel s p then
        raise (modFir s fun f => { f with portLock := vset f.portLock p (some c) }) 38 p.val c (w32 (firstOpenLine s (some p)))
      else s
    | some c, none => raise (modFir s fun f => { f with portLock := vset f.portLock p none }) 39 p.val c (w32 (resumeLine s (some p)))
    | _, _ => s) s

/-- Ports of the open panels that this update finds lost (R244). -/
def newlyLost (s : State) : List (Fin 16) :=
  (indices 16).filter fun p => inPanel s p && (vget s.fir.portLock p).isNone && (portLockOf s p).isSome

/-- Ports whose slack falls below 8 lines or is back at 16 (R241). -/
def lagEvents (s : State) : State :=
  match s.pdp.active with
  | none => modFir s fun f => { f with lagging := Vector.replicate 16 none }
  | some pan => (partPorts pan).foldl (fun s p =>
      let q := pport s p
      let slack := q.s - q.f
      let set (s : State) (b : Bool) : State := modFir s fun f => { f with lagging := vset f.lagging p (some b) }
      match vget s.fir.lagging p with
      | none => if slack ≥ 8 then set s false else s
      | some false => if slack < 8 then raise (set s true) 36 p.val 0 (w32 slack) (w32 (q.f - pan.base)) else s
      | some true => if slack ≥ 16 then raise (set s false) 36 p.val 1 (w32 slack) (w32 (q.f - pan.base)) else s) s

/-- HWM as two words of EV_FIR_FEED_REVERSE: Q32.16 (R256). -/
def hwmWords (s : State) : Word × Word :=
  let h := toBits 48 (s.fir.hwm / 2 ^ 16)
  (w32 h, w32 (h / 2 ^ 32))

/-- The check for a reversal: more than REV_WIN counts below the highest, until A is at HWM again (R222). -/
def checkReverse (s : State) : State :=
  let f := s.fir
  if f.src = 3 then s
  else if !f.revPending && f.cntMax - f.cnt > f.revWin then
    let (lo, hi) := hwmWords s
    raise (modFir s fun f => { f with revPending := true, revAt := s.ct }) 32 0 0 lo hi (w32 (f.cntMax - f.cnt).toNat)
  else if f.revPending && f.a ≥ f.hwm then
    raise (modFir s fun f => { f with revPending := false }) 33 0 0 (w32 ((s.ct - f.revAt) / 400))
  else s

/-- The feed sampled at an update: A, source counts of an own axis without ENC, HWM, the estimate (R216, R221, R222, R225, R226). -/
def sampleFeed (s : State) : State :=
  let a := feedNow s
  let s := modFir s fun f => { f with a := a }
  let s := match s.fir.src, s.fir.enc, s.fir.sample with
    | 1, false, some x =>
      let c := feedSign s * (sampleAt x s.ct / 2 ^ 32)
      modFir s fun f => { f with cnt := c, cntMax := max f.cntMax c }
    | _, _, _ => s
  let s := raiseHwm s s.ct a
  if s.fir.src = 2 then estimate s else s

/-- FIR_UPDATE: the update at the next multiple of 400 FIRE cycles, in the order of R229. -/
def firUpdate (s : State) : State :=
  let s := advanceTo s (max (ceilDiv s.ct 400 * 400) (s.fir.updAt + 400))
  let s := passEnded (capUpdate (sampleFeed { s with fir := { s.fir with updAt := s.ct, untrusted := false } })) 4
  let s := modFir s fun f => { f with updA := f.a, updVel := feedVel s }
  let lost := newlyLost s
  let s := checkReverse (stopNow (lockEvents s) lost)
  let s :=
    if s.fir.revPending then crossStopped (stopNow (if jetOk s && !s.fir.feedFault then s else dropOpen s) [])
    else
      let s := if jetOk s && !s.fir.feedFault then commitDecided s true else dropOpen s
      let s := if jetOk s && !s.fir.feedFault then commitDecided s false else s
      decideLines s 4096
  lagEvents (cancelUnpicks (modFir s fun f => { f with posU := f.hwm }))

def execFirUpdate (s : State) : Host.Outcome State Fault Refusal := .next (if s.glb.sysLock then firUpdate s else s)

/-- STITCH_SEND: HLK sends the oldest stitch frame handed to it for a port; one that finds no room waits, counted as a stall; without a lane in
service it is lost with its port (R232, R339, R345). -/
def stitchSend (p : Fin 16) (s : State) : State :=
  match vget s.fir.stitches p with
  | [] => s
  | st :: rest =>
    let next := modFir s fun f => { f with stitches := vset f.stitches p rest }
    match sendStitch next p st with
    | .sent s => s
    | .noLane => next
    | .noRoom s => modFir s fun f => { f with stitches := vset f.stitches p (st :: rest) }

def execStitchSend (p : Fin 16) (s : State) : Host.Outcome State Fault Refusal := .next (stitchSend p s)

/-- The lines of a port whose rows are all committed, with the last of their instants. -/
def fullLines (s : State) (p : Fin 16) : List (Panel × Nat × Nat) :=
  s.fir.decs.filterMap fun d => match panelAt s d.abs with
    | some pan =>
      let cs := (vget s.fir.commits p).filter (·.abs == d.abs)
      if d.left.contains p && (openRows s pan p d.abs).isEmpty && !cs.isEmpty then some (pan, d.abs, maxList (cs.map (·.at'))) else none
    | none => none

/-- LINE_FIRED: the line of a port whose last row fires next reaches that instant and is FIRED there (R247). -/
def lineFired (p : Fin 16) (s : State) : State :=
  match fullLines s p with
  | [] => s
  | x :: xs =>
    let (pan, abs, t) := xs.foldl (fun m y => if y.2.2 < m.2.2 then y else m) x
    let s := advanceTo s t
    let ts := ((vget s.fir.commits p).filter (·.abs == abs)).map (·.at')
    let s := modFir s fun f => { f with recent := vmod f.recent p (· ++ [(pan.num, abs - pan.base, ts)]) }
    endOn s pan p abs (!pan.missed.contains (p, abs - pan.base))

def execLineFired (p : Fin 16) (s : State) : Host.Outcome State Fault Refusal := .next (lineFired p s)

/-- JET_EN_CHANGE: the level of JET_EN after its filter of 20 FIRE cycles (R245). -/
def execJetEnChange (high : Bool) (s : State) : Host.Outcome State Fault Refusal :=
  .next (modFir (if high = s.fir.jetEn then s else advance s 20) fun f => { f with jetEn := high })

/-! ## Commands (R251, R252) -/

def dFirPanelOpen : Nat := 0x1001
def dAxisUnusable : Nat := 0x1002

/-- FIR.SET_FEED: the source and the estimator; A, HWM, credit and the decision times start afresh (R216, R237, R251, R252). -/
def firSetFeed (c : Cmd) (s : State) : CmdRes :=
  let w := pw c 0
  let e := pw c 5
  let src := bits w 1 0
  let ax := bits w 4 2
  let scale := (pw c 1).toNat + 2 ^ 32 * bits (pw c 2) 7 0
  let encScale := (pw c 3).toNat + 2 ^ 32 * bits (pw c 4) 7 0
  let lead := bits (pw c 6) 15 0
  let counted := src = 1 || src = 2
  let badCfg := (counted && bits w 15 8 = 0) || (src = 2 && bits w 19 16 > 8) || (src = 1 && bit w 6 && bits w 23 20 > 8)
  let badEst := src = 2 && (bits e 7 0 = 0 || bits e 7 0 > 200 || bits e 15 8 < 4 || bits e 15 8 > 100 || bits e 22 16 = 0 || bits e 22 16 > 100)
  firstFail s [chkS (panelOpen s) dFirPanelOpen, chkS (counted && !axisUsable s ax) dAxisUnusable, chkW badCfg 0, chkW (scale = 0) 1,
      chkW (encScale = 0) 3, chkW badEst 5, chkW (src != 0 && (lead < 800 || lead > 8000)) 6]
    (let tb : Fin 4 := ⟨bits w 25 24, Nat.mod_lt _ (by decide)⟩
     .ok (touch (modFir s fun f => { f with
       src := src, axis := ax, dir := bit w 5, enc := bit w 6, revWin := bits w 15 8, ashift := bits w 19 16, cshift := bits w 23 20, tb := tb
       scale := scale, encScale := encScale, base := bits e 7 0, extrap := bits e 15 8, stop := bits e 22 16, lead := lead
       vrate := (pw c 7).toNat, a := 0, hwm := 0, cnt := 0, cntMax := 0, revPending := false, edges := [], rise := [], vel := 0, acc := 0
       vmPrev := none, sample := none, cmdPos := 0, encPos := 0, encEdge := none, corr := 0, vBase := (vget s.tim.tbs tb).elapsed
       posU := 0, updA := 0, updVel := 0, tPrev := none, tFired := none, credit := (2 * tLimOf (min 80000 (thermalRate s)) : Nat) }) .fir))

def firSetFeedSpec : CmdSpec := fixedSpec 0x0401 [0x03FFFF7F, all32, 0xFF, all32, 0xFF, 0x007FFFFF, 0xFFFF, all32]

def execFirSetFeed (c : Cmd) (s : State) : Host.Outcome State Fault Refusal :=
  .next (runCmd s firSetFeedSpec c (firSetFeed c))

/-- FIR.SET_ROWS: the trim and the row offsets of a port (R223, R251, R252). -/
def firSetRows (c : Cmd) (s : State) : CmdRes :=
  let p : Fin 16 := ⟨bits (pw c 0) 3 0, Nat.mod_lt _ (by decide)⟩
  let trim := sbits (pw c 1) 31 0
  firstFail s [chkS (panelOpen s) dFirPanelOpen, chkW (trim < -400000 || trim > 400000) 1]
    (.ok (touch (modFir s fun f => { f with
      trim := vset f.trim p trim
      rowOff := (indices 32).foldl (fun v r => vset v (laneOf p r) (bits (pw c (2 + r.val)) 23 0)) f.rowOff }) .fir))

def firSetRowsSpec : CmdSpec := fixedSpec 0x0402 ([0xF, all32] ++ List.replicate 32 0xFFFFFF)

def execFirSetRows (c : Cmd) (s : State) : Host.Outcome State Fault Refusal :=
  .next (runCmd s firSetRowsSpec c (firSetRows c))

/-- FIR.SET_OVERSPEED: SKIP_FLOOR and CAP_MARGIN, from the next bar decision (R237, R240, R252). -/
def firSetOverspeed (c : Cmd) (s : State) : CmdRes :=
  let w := pw c 0
  firstFail s [chkW (bits w 7 0 < 128 || bits w 15 8 < 192) 0]
    (.ok (touch (modFir s fun f => { f with skipFloor := bits w 7 0, capMargin := bits w 15 8 }) .fir))

def firSetOverspeedSpec : CmdSpec := fixedSpec 0x0403 [0xFFFF]

def execFirSetOverspeed (c : Cmd) (s : State) : Host.Outcome State Fault Refusal :=
  .next (runCmd s firSetOverspeedSpec c (firSetOverspeed c))

def firClearFaultSpec : CmdSpec := fixedSpec 0x0404 []

/-- FIR.CLEAR_FAULT clears FEED_FAULT; A and HWM stay (R252). -/
def execFirClearFault (c : Cmd) (s : State) : Host.Outcome State Fault Refusal :=
  .next (runCmd s firClearFaultSpec c fun s => .ok (touch (modFir s fun f => { f with feedFault := false }) .fir))

/-! ## FIR_STAT (R255) -/

def firStat (s : State) : Word :=
  pack [(b2n s.pdp.active.isSome, 0), (b2n s.fir.revPending, 1), (b2n s.fir.overSpeed, 2), (b2n (s.pdp.active.any (·.hold)), 3),
    (b2n (s.pdp.active.any (·.stopped)), 4),
    (b2n s.fir.ceiling.isSome, 5), (b2n s.fir.untrusted, 6), (b2n s.fir.feedFault, 7),
    (match s.pdp.active with
      | some pan => pan.num.toNat
      | none => 0, 16)]

/-- FIR_STAT_READ: a host read captures P, HWM and v of the latest update (R255). -/
def firStatRead (s : State) : State :=
  let o : Int := match s.pdp.active with
    | some pan => pan.origin * one32
    | none => 0
  answerRead (modFir s fun f => { f with snapP := (f.updA - o) / 2 ^ 16, snapHwm := f.posU / 2 ^ 16, snapV := f.updVel }) (firStat s)

def execFirStatRead (s : State) : Host.Outcome State Fault Refusal := .next (if s.bob.linkUp then firStatRead s else s)

end Sys2Proof.Machine
end

