-- ==== Sys2Proof/Machine/Lane.lean ====
section
/-! DEFINITION. Lanes: bring-up, the lane state machine, rate changes, losses, back-off, sleep, loopbacks (R298-R328). -/

namespace Sys2Proof.Machine

open Sys2Proof

/-! ## Rates (R22, R310, R311) -/

/-- Frame payload of one lane in bit/s at a rate code (R22). -/
def lanePayload (rate : Nat) : Nat := if rate = 0 then 2340000000 else if rate = 1 then 4680000000 else 7490000000

/-- The rate R22 requires of a head. -/
def needRate (k : Rank) : Nat :=
  let load := ((k.rows.take k.nrows).map (·.1)).sum * 4 * k.maxRate
  if load ≤ lanePayload 0 then 0 else if load ≤ lanePayload 1 then 1 else 2

/-- The highest rate in a RATES mask that is at most `r`; 0 without one. -/
def rateIn (rates r : Nat) : Nat :=
  if r ≥ 2 && rates / 4 % 2 == 1 then 2 else if r ≥ 1 && rates / 2 % 2 == 1 then 1 else 0

/-- Target rate of a port, and whether the head's RATES lack the required one (R310, R311). -/
def targetRate (raise' : Bool) (k : Rank) : Nat × Bool :=
  let need := needRate k
  if raise' && k.rates / 4 % 2 == 1 then (2, false)
  else if k.rates / 2 ^ need % 2 == 1 then (need, false)
  else (rateIn k.rates 2, true)

/-- The port's only lane in service runs below the rate R22 requires (R311). -/
def runsShort (s : State) (p : Fin 16) : Bool :=
  let need := match (hport s p).rank with
    | some k => needRate k
    | none => 0
  match laneUp s p 0, laneUp s p 1 with
  | true, false => (laneOfPort s p 0).rate < need
  | false, true => (laneOfPort s p 1).rate < need
  | _, _ => false

/-- A lane moves to another rate now: requested, or on its way back into service after the change (R310). -/
def rateMoving (x : Lane) : Bool := x.rateReq.isSome || (x.why == 1 && x.state != .up && x.state != .disabled)

/-- RATE_REQ on the next lane to move, lane b first and never on the port's only lane in service (R310). -/
def moveRate (s : State) (p : Fin 16) : State :=
  let h := hport s p
  if h.lanes.any rateMoving || !(laneUp s p 0 && laneUp s p 1) then s
  else
    let want (l : Fin 2) : Bool := (vget h.lanes l).rate != h.target
    match (if want 1 then some (1 : Fin 2) else if want 0 then some 0 else none) with
    | some l => sendTs (modLane s p l fun x => { x with rateReq := some h.target }) p l 2 h.target 0 1 false
    | none => s

/-! ## The training stream (R301, R302, R304-R309) -/

/-- Bits [hi:lo] of a training ordered set. -/
def tsBits (w : BitVec 64) (hi lo : Nat) : Nat := w.toNat / 2 ^ lo % 2 ^ (hi + 1 - lo)

/-- SD PLL locked, port and lane enabled: the lane may train (R303, R308). -/
def laneMay (s : State) (p : Fin 16) (l : Fin 2) : Bool := s.glb.sdLock && (hport s p).en && vget (hport s p).laneEn l

/-- Lanes that may train leave DISABLED and send the training stream; the others go there (R303, R308). -/
def settleLane (s : State) (p : Fin 16) (l : Fin 2) : State :=
  let x := laneOfPort s p l
  if laneMay s p l then
    if x.state == .disabled then
      sendTrain (modLane s p l fun x => { beginAttempt s x with state := .noSignal, rate := (hport s p).target, why := 0 }) p l
    else s
  else if x.state == .disabled then s
  else
    let s := match x.loop with
      | some r => finishLive s r.dead r.pair r.tag stAbandoned 0
      | none => s
    let s := modLane s p l fun x => stopTs s { x with loop := none, rateReq := none, waking := false, txSleep := false, rxSleep := false }
    if x.state == .up then leaveService s p l .disabled fun s _ => s else modLane s p l fun x => { x with state := .disabled }

/-- Every lane of every port follows its enables and the SD PLL. -/
def settleLanes (s : State) : State := (indices 16).foldl (fun s p => settleSleep (settleLane (settleLane s p 0) p 1) p) s

def training (x : Lane) : Bool := x.state == .acquire || x.state == .screen || x.state == .check || x.state == .ready

/-- A rate change takes at most 20 us; the model takes all of it before the lane can see a signal at the new rate (R310) [A 101]. -/
def rateChanged (s : State) (p : Fin 16) (l : Fin 2) : State :=
  let x := laneOfPort s p l
  if x.state == .rateSwitch then
    let s := advanceTo s (x.stageAt + us 20)
    sendTrain (modLane s p l fun x => { beginAttempt s x with state := .noSignal, rate := x.rateReq.getD x.rate }) p l
  else s

/-- SIGNAL_DETECT: signal for 1 us starts ACQUIRE (R308). -/
def signalDetect (p : Fin 16) (l : Fin 2) (s : State) : State :=
  let s := rateChanged s p l
  if (laneOfPort s p l).state == .noSignal then
    sendTrain (modLane s p l fun x => { x with state := .acquire, preset := 0, acqAt := s.ct, stepAt := s.ct }) p l
  else s

def execSignalDetect (p : Fin 16) (l : Fin 2) (s : State) : Host.Outcome State Fault Refusal := .next (signalDetect p l s)

/-- SIGNAL_LOSS: outside service the attempt goes back to NO_SIGNAL, or to ACQUIRE when only block lock is lost (R308). -/
def signalLoss (p : Fin 16) (l : Fin 2) (lockOnly : Bool) (s : State) : State :=
  let x := laneOfPort s p l
  if lockOnly then
    (if x.state == .screen || x.state == .check || x.state == .ready then
      sendTrain (modLane s p l fun x => { x with state := .acquire, preset := 0, acqAt := s.ct, stepAt := s.ct }) p l else s)
  else if training x then sendTrain (modLane s p l fun x => { x with state := .noSignal }) p l else s

def execSignalLoss (p : Fin 16) (l : Fin 2) (lockOnly : Bool) (s : State) : Host.Outcome State Fault Refusal :=
  .next (signalLoss p l lockOnly s)

/-- PRESET_STEP: the next preset after 100 us without block lock (R304). -/
def execPresetStep (p : Fin 16) (l : Fin 2) (s : State) : Host.Outcome State Fault Refusal :=
  let x := laneOfPort s p l
  .next (if x.state == .acquire then
    let s := advanceTo s (x.stepAt + us 100)
    sendTrain (modLane s p l fun x => { x with preset := (x.preset + 1) % 16, stepAt := s.ct }) p l
  else s)

/-- BLOCK_LOCK: block lock and PRBS31 alignment, on a pair of swapped polarity too (R304, R308). -/
def execBlockLock (p : Fin 16) (l : Fin 2) (inverted : Bool) (s : State) : Host.Outcome State Fault Refusal :=
  .next (if (laneOfPort s p l).state == .acquire then
    sendTrain (modLane s p l fun x => { x with
      state := .screen, polInv := inverted, screening := 0, preset := 0, ranked := [], passMask := 0, failed := 0, stageAt := s.ct }) p l
  else s)

/-- A preset put into the ranking: score, highest first, ties by the lower number (R305). -/
def rankPreset (r : List (Nat × Nat)) (preset score : Nat) : List (Nat × Nat) :=
  r.filter (fun x => x.2 > score || (x.2 == score && x.1 < preset)) ++ (preset, score) ::
    r.filter (fun x => !(x.2 > score || (x.2 == score && x.1 < preset)))

/-- The highest-ranked preset not yet checked is taken; without one the lane parks with NO_PRESET (R305, R306). -/
def nextCheck (s : State) (p : Fin 16) (l : Fin 2) : State :=
  match (laneOfPort s p l).ranked with
  | [] => parkLane s p l 2
  | (k, _) :: _ => sendTrain (modLane s p l fun x => { x with state := .check, preset := k, stageAt := s.ct }) p l

/-- SCREEN_PRESET_DONE: 50 us and 2^17 blocks of one preset; after the sixteenth the checks begin (R305). -/
def screenPresetDone (p : Fin 16) (l : Fin 2) (errors score : Nat) (s : State) : State :=
  let x := laneOfPort s p l
  if x.state != .screen then s
  else
    let s := advanceTo s (x.stageAt + us 50 + ceilDiv (2 ^ 17 * blockTime x.rate) 100)
    let k := x.screening
    let s := modLane s p l fun x => { x with
      screening := k + 1, preset := min 15 (k + 1), stageAt := s.ct
      ranked := if errors = 0 then rankPreset x.ranked k score else x.ranked
      passMask := if errors = 0 then x.passMask + 2 ^ k else x.passMask }
    if k + 1 < 16 then sendTrain s p l else nextCheck s p l

def execScreenPresetDone (p : Fin 16) (l : Fin 2) (errors : Nat) (score : Fin 64) (s : State) : Host.Outcome State Fault Refusal :=
  .next (screenPresetDone p l errors score.val s)

/-- CT units that 10^9 bits take (R309). -/
def checkTime (rate : Nat) : Nat := if rate = 0 then ms 400 else if rate = 1 then ms 200 else ms 125

/-- READY with the far end READY or UP goes on to GO: eight GO are sent (R307, R308). -/
def tryGo (s : State) (p : Fin 16) (l : Fin 2) : State :=
  let x := laneOfPort s p l
  if x.state == .ready && x.farReady then
    sendTs (modLane s p l fun x => { x with state := .go }) p l 1 x.rate 0 8 true
  else s

/-- The receiver's preset has passed: READY is reported (R307). -/
def becomeReady (s : State) (p : Fin 16) (l : Fin 2) : State :=
  tryGo (sendTrain (modLane s p l fun x => { x with state := .ready, readyAt := s.ct }) p l) p l

/-- CHECK_DONE: a preset without error in 10^9 bits is kept; else the next one, at most three (R306, R308). -/
def checkDone (p : Fin 16) (l : Fin 2) (errors : Nat) (s : State) : State :=
  let x := laneOfPort s p l
  if x.state != .check then s
  else
    let s := advanceTo s (x.stageAt + checkTime x.rate)
    let score := match x.ranked with
      | (_, sc) :: _ => sc
      | [] => 0
    let s := modLane s p l fun x => { x with
      checks := min 3 (x.checks + 1), failed := if errors = 0 then x.failed else x.failed + 1, ranked := x.ranked.drop 1 }
    if errors = 0 then becomeReady (modLane s p l fun x => { x with margin := score }) p l
    else if x.failed + 1 ≥ 3 then parkLane s p l 2
    else nextCheck s p l

def execCheckDone (p : Fin 16) (l : Fin 2) (errors : Nat) (s : State) : Host.Outcome State Fault Refusal :=
  .next (checkDone p l errors s)

/-- ACQUIRE_TIMEOUT: 10 ms from signal detected (R308, R309). -/
def execAcquireTimeout (p : Fin 16) (l : Fin 2) (s : State) : Host.Outcome State Fault Refusal :=
  let x := laneOfPort s p l
  .next (if x.state == .acquire then parkLane (advanceTo s (x.acqAt + ms 10)) p l 1 else s)

/-- READY_TIMEOUT: 1 s from own READY (R308, R309). -/
def execReadyTimeout (p : Fin 16) (l : Fin 2) (s : State) : Host.Outcome State Fault Refusal :=
  let x := laneOfPort s p l
  .next (if x.state == .ready then parkLane (advanceTo s (x.readyAt + sec 1)) p l 3 else s)

/-- GO_COMPLETE: after the eighth GO the lane is in service (R307, R308, R315, R316, R329). -/
def goComplete (p : Fin 16) (l : Fin 2) (s : State) : State :=
  let x := laneOfPort s p l
  if x.state != .go then s
  else
    let s := modLane s p l fun x =>
      { stopTs s (freshLane x s.ct) with state := .up, attempts := 0, step := none, nextAt := 0, waking := false, why := 0 }
    let s := raise s 104 p.val x.why (w32 l.val) (w32 x.rate) (w32 x.preset) (w32 x.margin)
    let s := if x.why = 2 then raise s 108 p.val 1 (w32 l.val) 0 else s
    settleSleep (moveRate (portChange s p 0) p) p

def execGoComplete (p : Fin 16) (l : Fin 2) (s : State) : Host.Outcome State Fault Refusal := .next (goComplete p l s)

/-- BACKOFF_EXPIRY: the wait passes and a rethread attempt starts (R308, R315). -/
def execBackoffExpiry (p : Fin 16) (l : Fin 2) (s : State) : Host.Outcome State Fault Refusal :=
  let x := laneOfPort s p l
  .next (if x.state == .unthreaded then startAttempt (advanceTo s x.nextAt) p l else s)

/-- LANE_LOSS: invalid headers within 64 blocks, counted, of which 16 are a loss; or loss of the clock or the signal (R312, R328). -/
def laneLoss (p : Fin 16) (l : Fin 2) (why : LaneFault) (s : State) : State :=
  if laneUp s p l then
    match why with
    | .headers n =>
      let s := modLane s p l fun x => { x with errBlock := satAdd 0xFFFF x.errBlock n.val }
      if n.val ≥ 16 then laneLost s p l 1 else s
    | .lockOrSignal => laneLost s p l 2
  else s

def execLaneLoss (p : Fin 16) (l : Fin 2) (why : LaneFault) (s : State) : Host.Outcome State Fault Refusal := .next (laneLoss p l why s)

/-- RATE_ACK: the lane goes to RATE_SWITCH, stops sending frames and changes rate; its frames go on over the other lane (R308, R310)
[A 32]. -/
def rateAck (s : State) (p : Fin 16) (l : Fin 2) : State :=
  let x := laneOfPort s p l
  if x.state == .up && x.rateReq.isSome then
    leaveService (modLane s p l fun x => { x with why := 1, stageAt := s.ct }) p l .rateSwitch fun s _ => s
  else s

def execRateAckReceive (p : Fin 16) (l : Fin 2) (s : State) : Host.Outcome State Fault Refusal := .next (rateAck s p l)

/-- RATE_REQ_UNANSWERED: no RATE_ACK, or no far-end TS at the rate the lane trains at (R308, R324). -/
def execRateReqUnanswered (p : Fin 16) (l : Fin 2) (s : State) : Host.Outcome State Fault Refusal :=
  let x := laneOfPort s p l
  .next (if x.state == .up && x.rateReq.isSome then leaveService (modLane s p l fun x => { x with rateReq := none }) p l .unthreaded
      fun s _ => parkLane s p l 4
    else if training x then parkLane s p l 4
    else if x.state == .rateSwitch then parkLane (rateChanged s p l) p l 4
    else s)

/-! ## Sleep (R318-R320, R325, R326) -/

def dLanePanelOpen : Nat := 0x1001
def dLastLane : Nat := 0x1002
def dNoLoop : Nat := 0x1003
def dLaneBusy : Nat := 0x1004

/-- SLEEP: the receiver goes to sleep (R318). -/
def sleepTs (s : State) (p : Fin 16) (l : Fin 2) : State :=
  let x := laneOfPort s p l
  if (x.state == .up || x.state == .sleep) && !x.rxSleep then
    let s := modLane s p l fun x => { x with rxSleep := true, waking := false, rateReq := none }
    let ev (s : State) : State := raise s 108 p.val 0 (w32 l.val) (w32 (b2n x.txSleep + 2))
    let s := if x.state == .up then sendTrain (leaveService s p l .sleep fun s _ => ev s) p l else ev s
    settleSleep s p
  else s

def execSleepTsReceive (p : Fin 16) (l : Fin 2) (s : State) : Host.Outcome State Fault Refusal := .next (sleepTs s p l)

/-- WAKE_REQ: the head asks for the controller's transmitter, which leaves idle and sends the training stream (R320). -/
def wakeReq (s : State) (p : Fin 16) (l : Fin 2) : State :=
  let x := laneOfPort s p l
  if x.state == .sleep then
    sendTrain (modLane s p l fun x => { x with txSleep := false, waking := !x.rxSleep || x.waking, farReady := false, why := 2 }) p l
  else s

def execWakeReqReceive (p : Fin 16) (l : Fin 2) (s : State) : Host.Outcome State Fault Refusal := .next (wakeReq s p l)

/-- TS_RECEIVE: a training ordered set is checked and its report taken. On a lane in service RATE_ACK of the rate asked for and SLEEP have their
effect, GO belongs to the exchange until the first frame has come, and any other TS is a loss; a sleeping lane heeds WAKE_REQ (R301, R302, R304,
R307, R308, R310, R312, R318, R320) [A 31]. -/
def tsReceive (p : Fin 16) (l : Fin 2) (w : BitVec 64) (s : State) : State :=
  let x := laneOfPort s p l
  let kind := tsBits w 10 8
  if x.state == .disabled then s
  else if crc8 56 (w.toNat % 2 ^ 56) 0 != tsBits w 63 56 then modLane s p l fun x => { x with errTs := satAdd 0xFFFF x.errTs 1 }
  else if tsBits w 7 0 != 0xD2 || tsBits w 55 48 != 0 || (kind == 2 && tsBits w 20 19 == 3) then s
  else if tsBits w 12 12 != l.val then (if training x then parkLane s p l 5 else if x.state == .up then laneLost s p l 3 else s)
  else
    let far := tsBits w 15 13
    let s := modLane s p l fun x => { x with
      farRx := far, farRates := tsBits w 18 16, farPreset := tsBits w 24 21, farReady := x.farReady || far == 3 || far == 4 }
    if training x then (if tsBits w 18 16 / 2 ^ x.rate % 2 == 0 then parkLane s p l 4 else tryGo s p l)
    else if x.state == .up then
      if kind == 3 && x.rateReq == some (tsBits w 20 19) then rateAck s p l
      else if kind == 4 then sleepTs s p l
      else if kind == 1 && !x.rxOn then s
      else laneLost s p l 3
    else if x.state == .sleep then (if kind == 4 then sleepTs s p l else if kind == 6 then wakeReq s p l else s)
    else s

def execTsReceive (p : Fin 16) (l : Fin 2) (payload : BitVec 64) (s : State) : Host.Outcome State Fault Refusal :=
  .next (tsReceive p l payload s)

/-- A sleeping lane wakes in both directions: training stream, and WAKE_REQ while its receiver sleeps (R320). -/
def wakeSleeper (s : State) (p : Fin 16) (l : Fin 2) : State :=
  let x := laneOfPort s p l
  if x.state != .sleep then s
  else
    let s := sendTrain (modLane s p l fun x => { x with txSleep := false, waking := true, farReady := false, why := 2 }) p l
    if x.rxSleep then sendTs s p l 6 x.rate 1 1 true else s

/-- WAKE_CHECK_DONE: 2^12 blocks with the kept preset pass, and GO is exchanged as after any training; or a full rethread attempt follows
(R307, R320). -/
def wakeCheckDone (p : Fin 16) (l : Fin 2) (pass : Bool) (s : State) : State :=
  let x := laneOfPort s p l
  if x.state == .sleep && x.waking then
    let s := advance s (ceilDiv (2 ^ 12 * blockTime x.rate) 100)
    let s := modLane s p l fun x => { x with txSleep := false, rxSleep := false, waking := false }
    if pass then becomeReady s p l else startAttempt s p l
  else s

def execWakeCheckDone (p : Fin 16) (l : Fin 2) (pass : Bool) (s : State) : Host.Outcome State Fault Refusal := .next (wakeCheckDone p l pass s)

def portWord (c : Cmd) : Fin 16 := ⟨bits (pw c 0) 3 0, Nat.mod_lt _ (by decide)⟩
/-- Bit `l` of a lane mask at bit `lo` of word 0. -/
def maskHas (c : Cmd) (lo : Nat) (l : Fin 2) : Bool := bit (pw c 0) (lo + l.val)

/-- A lane that HLK.SET_SLEEP and HLK.LOOPBACK find busy (R326). -/
def laneBusy (s : State) (p : Fin 16) (l : Fin 2) : Bool :=
  let x := laneOfPort s p l
  x.state == .sleep || x.state == .loopback || x.state == .rateSwitch

def hlkSleepSpec : CmdSpec := fixedSpec 0x0603 [0xFF] (async := true)

/-- HLK.SET_SLEEP with a direction bit set; lanes not in service stay as they are (R318, R319, R326) [A 33]. -/
def hlkSetSleep (c : Cmd) (s : State) : CmdRes :=
  let p := portWord c
  let dirs := bits (pw c 0) 7 6
  let lanes := (indices 2).filter (maskHas c 4 ·)
  let mask := (lanes.map fun l => b2n (laneUp s p l) * 2 ^ l.val).sum
  firstFail s [chkS (inPanel s p) dLanePanelOpen, (lanes.any (laneBusy s p ·), stBusy, dLaneBusy)]
    (let s := lanes.foldl (fun s l =>
        if !laneUp s p l then s
        else
          let x := laneOfPort s p l
          let s := if dirs / 2 == 1 then sendTs s p l 5 x.rate 1 1 false else s
          if dirs % 2 == 1 then
            leaveService (modLane (sendTs s p l 4 x.rate 0 4 false) p l fun x => { x with txSleep := true, rateReq := none }) p l .sleep
              fun s _ => raise s 108 p.val 0 (w32 l.val) 1
          else s) s
     .started (touch (modHport s p fun h => { h with sleepCmds := h.sleepCmds ++ [(c.pair, c.tag, mask, dirs)] }) .hlk))

def execHlkSetSleep (c : Cmd) (s : State) : Host.Outcome State Fault Refusal :=
  .next (if bits (pw c 0) 7 6 = 0 then s else settleSleep (runCmd s hlkSleepSpec c (hlkSetSleep c)) (portWord c))

/-- HLK.SET_SLEEP with both direction bits 0 wakes the named lanes (R320, R326). -/
def hlkWake (c : Cmd) (s : State) : CmdRes :=
  let p := portWord c
  let lanes := (indices 2).filter (maskHas c 4 ·)
  firstFail s [chkS (inPanel s p) dLanePanelOpen]
    (.started (touch (lanes.foldl (wakeSleeper · p ·)
      (modHport s p fun h => { h with sleepCmds := h.sleepCmds ++ [(c.pair, c.tag, bits (pw c 0) 5 4, 0)] })) .hlk))

def execHlkSetSleepWake (c : Cmd) (s : State) : Host.Outcome State Fault Refusal :=
  .next (if bits (pw c 0) 7 6 = 0 then settleSleep (runCmd s hlkSleepSpec c (hlkWake c)) (portWord c) else s)

/-! ## Loopbacks (R321-R323, R325, R326) -/

/-- A loopback ends: TRAIN is sent and the lane trains from NO_SIGNAL, if it may train (R308, R322). -/
def endLoop (s : State) (p : Fin 16) (l : Fin 2) : State :=
  settleLane (sendTrain (modLane s p l fun x => { beginAttempt s x with loop := none, state := .noSignal, why := 3 }) p l) p l

/-- HLK.LOOPBACK (R321, R322, R326). -/
def hlkLoopback (c : Cmd) (s : State) : CmdRes :=
  let p := portWord c
  let l : Fin 2 := if bit (pw c 0) 4 then 1 else 0
  let kind := bits (pw c 0) 6 5
  let n := bits (pw c 0) 12 8
  firstFail s [chkW (kind = 3 || n < 12) 0, chkS (inPanel s p && laneUp s p l && !laneUp s p (1 - l)) dLastLane,
      (laneBusy s p l, stBusy, dLaneBusy)]
    (let up := laneUp s p l
     let s := modLane s p l fun x => { x with
       loop := some { pair := c.pair, tag := c.tag, kind := kind, log2n := n, since := s.ct }, rateReq := none }
     let s := if up then leaveService s p l .loopback fun s _ => s else modLane s p l fun x => { x with state := .loopback }
     .started (touch (sendTs s p l 7 (laneOfPort s p l).rate 0 1 true) .hlk))

def hlkLoopbackSpec : CmdSpec := fixedSpec 0x0604 [0x1F7F] (async := true)

def execHlkLoopback (c : Cmd) (s : State) : Host.Outcome State Fault Refusal :=
  .next (runCmd s hlkLoopbackSpec c (hlkLoopback c))

/-- LOOPBACK_DONE: the blocks have been checked (R321, R325). -/
def execLoopbackDone (p : Fin 16) (l : Fin 2) (errors : Nat) (first : Word) (s : State) : Host.Outcome State Fault Refusal :=
  .next (match (laneOfPort s p l).loop with
    | some r =>
      let s := advance s (2 ^ r.log2n * blockTime (laneOfPort s p l).rate / 100)
      finishLive (endLoop s p l) r.dead r.pair r.tag stOk 0
        [w32 (min 0xFFFFFFFF errors), if errors = 0 then 0xFFFFFFFF else first, w32 (min 0xFFFFFFFF (2 ^ r.log2n))]
    | none => s)

/-- LOOPBACK_TIMEOUT: no aligned check block of a far-end loopback within 1 ms (R323). -/
def execLoopbackTimeout (p : Fin 16) (l : Fin 2) (s : State) : Host.Outcome State Fault Refusal :=
  .next (match (laneOfPort s p l).loop with
    | some r => if r.kind = 2 then finishLive (endLoop (advanceTo s (r.since + ms 1)) p l) r.dead r.pair r.tag stFailed dNoLoop else s
    | none => s)

/-! ## HLK.SET_PORT and HLK.RETHREAD (R325, R326) -/

/-- The target rate of a port follows its head and RAISE. -/
def setTarget (s : State) (p : Fin 16) : State :=
  match (hport s p).rank with
  | some k =>
    let (r, short) := targetRate (hport s p).raise' k
    moveRate (modHport s p fun h => { h with target := r, ratesShort := short }) p
  | none => s

/-- A port's enables: its lanes follow them, and its target rate (R303, R308, R310). -/
def enablePort (s : State) (p : Fin 16) (en : Bool) (lanes : Nat) (up : Bool) : State :=
  let s := modHport s p fun h => { h with en := en, laneEn := #v[lanes % 2 == 1, lanes / 2 == 1], raise' := up }
  setTarget (settleSleep (settleLane (settleLane s p 0) p 1) p) p

/-- HLK.SET_PORT. -/
def hlkSetPort (c : Cmd) (s : State) : CmdRes :=
  let p := portWord c
  let en := bit (pw c 0) 4
  let lanes := bits (pw c 0) 6 5
  firstFail s [chkS (inPanel s p && (!en || lanes = 0)) dLanePanelOpen] (.ok (touch (enablePort s p en lanes (bit (pw c 0) 7)) .hlk))

def hlkSetPortSpec : CmdSpec := fixedSpec 0x0601 [0xFF]

def execHlkSetPort (c : Cmd) (s : State) : Host.Outcome State Fault Refusal :=
  .next (runCmd s hlkSetPortSpec c (hlkSetPort c))

/-- HLK.RETHREAD starts an attempt at once and resets the wait, on lanes neither in service nor asleep nor in loopback (R315, R326). -/
def hlkRethread (c : Cmd) (s : State) : CmdRes :=
  let p := portWord c
  .ok (touch ((indices 2).foldl (fun s l =>
    let x := laneOfPort s p l
    if !maskHas c 4 l || x.state == .up || x.state == .sleep || x.state == .loopback || x.state == .disabled then s
    else modLane (startAttempt s p l) p l fun x => { x with step := none, why := 0 }) s) .hlk)

def hlkRethreadSpec : CmdSpec := fixedSpec 0x0602 [0x3F]

def execHlkRethread (c : Cmd) (s : State) : Host.Outcome State Fault Refusal :=
  .next (runCmd s hlkRethreadSpec c (hlkRethread c))

end Sys2Proof.Machine
end

