-- ==== Sys2Proof/Machine/Head.lean ====
section
/-! DEFINITION. The frame layer: acknowledgement, HELLO, identification, time exchanges, head status, head memory (R330-R367). -/

namespace Sys2Proof.Machine

open Sys2Proof

/-! ## Acknowledgement (R335-R338, R362) -/

/-- Times of the last millisecond, with now. -/
def lastMs (s : State) (ts : List Nat) : List Nat := (s.ct :: ts).filter fun t => s.ct < t + ms 1

/-- The ACK frame of a port as it stands (R336). -/
def ackFrame (s : State) (p : Fin 16) (nak : Option (Fin 2)) : FrameBody :=
  .ack (laneOfPort s p 0).rxNext (laneOfPort s p 1).rxNext (laneUp s p 0) (laneUp s p 1) (nak == some 0) (nak == some 1)

/-- An ACK frame covers both lanes: nothing waits to be acknowledged. -/
def sendAck (s : State) (p : Fin 16) (l : Fin 2) (nak : Option (Fin 2)) : State :=
  let s := modHport s p fun h => { h with lanes := h.lanes.map fun x => { x with unacked := 0 } }
  sendOn s p l (ackFrame s p nak)

/-- A NAK for a lane, not again for the same NEXT within 8 us; more than NAK_LIMIT within 1 ms remove the lane (R337, R362). -/
def sendNak (s : State) (p : Fin 16) (l : Fin 2) : State :=
  let x := laneOfPort s p l
  let again := match x.nakAt with
    | some (n, t) => n == x.rxNext && s.ct < t + us 8
    | none => false
  if again then s
  else
    let times := lastMs s x.naksTx
    let s := modLane s p l fun x => { x with nakAt := some (x.rxNext, s.ct), naksTx := times }
    let s := modHport s p fun h => { h with naksSent := satAdd 0xFFFF h.naksSent 1 }
    let s := sendAck s p l (some l)
    if times.length > s.hlk.nakLimit then removeHere s p l 1 else s

/-- How far a number lies below NEXT; a frame up to 2048 below it is a duplicate (R337). -/
def below (next seq : Nat) : Nat := (next + 65536 - seq) % 65536

/-- A frame waits for acknowledgement; the sixteenth is acknowledged at once (R337). -/
def owesAck (s : State) (p : Fin 16) (l : Fin 2) : State :=
  let s := modLane s p l fun x => { x with unacked := x.unacked + 1, unackedAt := if x.unacked = 0 then s.ct else x.unackedAt }
  if (laneOfPort s p l).unacked ≥ 16 then sendAck s p l none else s

/-- A frame has come on a lane (R307). -/
def laneRx (s : State) (p : Fin 16) (l : Fin 2) : State := if laneUp s p l then modLane s p l fun x => { x with rxOn := true } else s

/-- A sequenced frame arrives whose CRC passes: accepted in its place; a duplicate is acknowledged again; any other is out of sequence
(R335, R337). -/
def takeSeq (s : State) (p : Fin 16) (l : Fin 2) (seq : Nat) : Bool × State :=
  let x := laneOfPort s p l
  if seq = x.rxNext then
    (true, owesAck (modLane s p l fun x => { x with rxNext := (x.rxNext + 1) % 65536, nakAt := none }) p l)
  else if below x.rxNext seq ≤ 2048 then (false, owesAck s p l)
  else (false, sendNak (modHport s p fun h => { h with errSeq := satAdd 0xFF h.errSeq 1 }) p l)

/-- BAD_FRAME_RECEIVE: a discarded part frame and a CRC that fails are answered with NAK; a malformed frame is acknowledged in its place and
discarded; a sound frame of the wrong number is a duplicate or out of sequence. A frame with none of these is carried by its own command
(R331, R333, R334, R337, R362). -/
def badFrame (p : Fin 16) (l : Fin 2) (why : BadFrame) (s : State) : State :=
  if !laneUp s p l then s
  else
    let s := laneRx s p l
    let crc (s : State) : State := sendNak (modHport s p fun h => { h with errCrc := satAdd 0xFF h.errCrc 1 }) p l
    match why with
    | .partial' => crc s
    | .bytes bs =>
      if !crcOk bs then crc s
      else if malformedFrame (hport s p).version bs then
        let s := modHport s p fun h => { h with errMalf := satAdd 0xFF h.errMalf 1 }
        let times := lastMs s (laneOfPort s p l).malf
        let s := modLane s p l fun x => { x with malf := times }
        let s := match frameSeq bs with
          | some q => (takeSeq s p l q).2
          | none => s
        if times.length > 16 then removeHere s p l 5 else s
      else match frameSeq bs with
        | some q => if q = (laneOfPort s p l).rxNext then s else (takeSeq s p l q).2
        | none => s

def execBadFrameReceive (p : Fin 16) (l : Fin 2) (why : BadFrame) (s : State) : Host.Outcome State Fault Refusal :=
  .next (badFrame p l why s)

/-- ACK_SEND: within 2 us of an unacknowledged frame, or after 16 (R337). -/
def execAckSend (p : Fin 16) (l : Fin 2) (s : State) : Host.Outcome State Fault Refusal :=
  .next (if laneUp s p l && (hport s p).lanes.any (·.unacked > 0) then sendAck s p l none else s)

/-- The oldest number that a lane holds, or the next it will send. -/
def oldestSeq (x : Lane) : Nat :=
  match x.held with
  | f :: _ => f.seq
  | [] => x.txSeq

/-- A NEXT lies beyond the last number sent on a lane in service (R362). -/
def ackBeyond (s : State) (p : Fin 16) (l : Fin 2) (next : Nat) : Bool :=
  let x := laneOfPort s p l
  let d := (next + 65536 - oldestSeq x) % 65536
  x.state == .up && x.held.length < d && d < 32768

/-- What an ACK says of one lane: frames below NEXT are released; a NAK sends again the held frames that MASK does not mark (R336, R338,
R362). -/
def ackLane (s : State) (p : Fin 16) (l : Fin 2) (next : Nat) (nak : Bool) (mask : Word) : State :=
  let x := laneOfPort s p l
  if x.state != .up then s
  else
      let d := (next + 65536 - oldestSeq x) % 65536
      let k := if d ≤ x.held.length then d else 0
      let s := if k = 0 then s else modLane s p l fun x => { x with
        held := x.held.drop k, ackAt := s.ct, timeouts := 0
        resend := x.resend.filter fun n => ((x.held.drop k).map (·.seq)).contains n }
      if !nak then pump s p
      else
        let times := lastMs s x.naksRx
        let marked (n : Nat) : Bool :=
          let o := (n + 65536 - (next + 1)) % 65536
          (hport s p).version ≥ 0x0200 && o < 32 && bit mask o
        let s := idleUp s p l
        let s := modLane s p l fun x => { x with
          naksRx := times, resend := (x.held.map (·.seq)).filter fun n => !marked n }
        let s := modHport s p fun h => { h with naksRcvd := satAdd 0xFFFF h.naksRcvd 1 }
        if times.length > s.hlk.nakLimit then removeLane s p l 2 next else pump s p

/-- ACK_RECEIVE: an ACK with a NEXT beyond the last number sent is ignored and removes that lane; what it says of each lane counts otherwise
(R336, R338, R362). -/
def ackReceive (p : Fin 16) (l : Fin 2) (m : AckMsg) (s : State) : State :=
  if !laneUp s p l then s
  else
    let s := laneRx s p l
    let badA := m.validA && ackBeyond s p 0 m.nextA.toNat
    let badB := m.validB && ackBeyond s p 1 m.nextB.toNat
    if badA || badB then
      let s := if badA then removeLane s p 0 4 m.nextA.toNat else s
      if badB then removeLane s p 1 4 m.nextB.toNat else s
    else
      let s := if m.validA then ackLane s p 0 m.nextA.toNat m.nakA m.maskA else s
      if m.validB then ackLane s p 1 m.nextB.toNat m.nakB m.maskB else s

def execAckReceive (p : Fin 16) (l : Fin 2) (m : AckMsg) (s : State) : Host.Outcome State Fault Refusal := .next (ackReceive p l m s)

/-- REPLAY_TIMEOUT: nothing advanced while frames are held; the fourth time in a row removes the lane (R338, R362). -/
def replayTimeout (p : Fin 16) (l : Fin 2) (s : State) : State :=
  let x := laneOfPort s p l
  if x.state != .up || x.held.isEmpty then s
  else
    let s := advanceTo s (x.ackAt + us s.hlk.replayUs)
    let s := modHport s p fun h => { h with errReplay := satAdd 0xFF h.errReplay 1 }
    if x.timeouts + 1 ≥ 4 then removeLane s p l 3 (oldestSeq x)
    else
      let s := idleUp s p l
      pump (modLane s p l fun x => { x with resend := x.held.map (·.seq), timeouts := x.timeouts + 1, ackAt := s.ct }) p

def execReplayTimeout (p : Fin 16) (l : Fin 2) (s : State) : Host.Outcome State Fault Refusal := .next (replayTimeout p l s)

/-! ## HELLO (R341-R343) -/

/-- The highest version of the controller's list that a head's list accepts (R110, R341). -/
def chooseVersion (head : List (BitVec 16)) : Option Nat :=
  rlVersions.reverse.find? fun v => head.any fun h => h.toNat / 256 == v / 256 && h.toNat % 256 ≥ v % 256

/-- The exchange is still to be completed on the lane. -/
def helloOpen (s : State) (p : Fin 16) (l : Fin 2) : Bool :=
  laneUp s p l && !((hport s p).helloDone && (laneOfPort s p l).hello)

/-- HELLO_SEND: every 100 us on each lane in service until complete (R341). -/
def execHelloSend (p : Fin 16) (s : State) : Host.Outcome State Fault Refusal :=
  .next (if portUp s p && (hport s p).helloFail.isNone && (helloOpen s p 0 || helloOpen s p 1) then
    let s := advanceTo s ((hport s p).helloSent + us 100)
    let s := modHport s p fun h => { h with helloSent := s.ct }
    (indices 2).foldl (fun s l => if helloOpen s p l then sendOn s p l (.hello (hport s p).chosen) else s) s
  else s)

/-- EV_HLK_HEAD (R367). -/
def headEvent (s : State) (p : Fin 16) (code : Nat) : State :=
  raise s (73 + 2 * p.val) 0 code (w32 (hport s p).maker) (w32 (hport s p).version)

/-- The ports whose head is ready, as GLB shows them, with one port's bit changed. -/
def headReady (s : State) (p : Fin 16) (b : Bool) : State :=
  let m : BitVec 16 := BitVec.ofNat 16 (2 ^ p.val)
  { s with glb := { s.glb with readyPorts := if b then s.glb.readyPorts ||| m else s.glb.readyPorts &&& ~~~m } }

/-- An exchange fails: the port is up, but no head is identified (R343). -/
def helloFails (s : State) (p : Fin 16) : State :=
  headEvent (headReady (modHport s p fun h => { h with helloFail := some s.ct, identified := false }) p false) p 2

/-- HELLO_RECEIVE: the controller chooses a version, or sees its choice echoed; on a port already up another echo removes the lane
(R341, R343, R362). -/
def helloReceive (p : Fin 16) (l : Fin 2) (versions : List (BitVec 16)) (chosen : Nat) (s : State) : State :=
  let s := laneRx s p l
  let h := hport s p
  if !laneUp s p l then s
  else if h.helloDone then
    if chosen = h.version then modLane s p l fun x => { x with hello := true }
    else if chosen = 0 then sendOn s p l (.hello h.version)
    else removeHere s p l 6
  else if h.helloFail.isSome then s
  else if chosen != 0 && chosen = h.chosen then
    modLane (modHport s p fun h => { h with helloDone := true, version := h.chosen, identDue := true }) p l fun x => { x with hello := true }
  else match chooseVersion versions with
    | some v => sendOn (modHport s p fun h => { h with chosen := v }) p l (.hello v)
    | none => helloFails s p

def execHelloReceive (p : Fin 16) (l : Fin 2) (versions : List (BitVec 16)) (chosen : BitVec 16) (s : State) :
    Host.Outcome State Fault Refusal := .next (helloReceive p l versions chosen.toNat s)

/-- HELLO_TIMEOUT (R343). -/
def execHelloTimeout (p : Fin 16) (s : State) : Host.Outcome State Fault Refusal :=
  let h := hport s p
  .next (if portUp s p && !h.helloDone && h.helloFail.isNone then
    let s := advanceTo s (h.helloAt + ms 10)
    helloFails s p
  else s)

/-- HELLO_RETRY: 1 s after a failed exchange it starts again (R343). -/
def execHelloRetry (p : Fin 16) (s : State) : Host.Outcome State Fault Refusal :=
  .next (match (hport s p).helloFail with
    | some t =>
      if portUp s p then
        let s := advanceTo s (t + sec 1)
        modHport s p fun h => { h with helloFail := none, helloAt := s.ct, chosen := 0 }
      else s
    | none => s)

/-! ## Head memory (R355-R360, R362-R364) -/

/-- Bytes of one transaction (R342). -/
def mgmtLimit (h : HlkPort) : Nat := if h.version ≥ 0x0200 then 1024 else 256

/-- Transactions outstanding on a port (R356). -/
def mgmtOut (h : HlkPort) : Nat := h.identOut.length + h.mgmt.countP (·.out.isSome)

/-- Transfer `m` of a port changed. -/
def modMgmt (s : State) (p : Fin 16) (m : Mgmt) (f : Mgmt → Mgmt) : State :=
  modHport s p fun h => { h with mgmt := h.mgmt.map fun x => if x.pair = m.pair ∧ x.tag = m.tag then f x else x }

/-- A transfer ends with the bytes done and the HSTATUS of its last transaction (R363, R364). -/
def endMgmt (s : State) (p : Fin 16) (m : Mgmt) (st det hst : Nat) : State :=
  let s := modHport s p fun h => { h with mgmt := h.mgmt.filter fun x => !(x.pair == m.pair && x.tag == m.tag) }
  finishTag s m.pair m.tag st det [w32 m.done, w32 hst]

/-- The next transaction of a transfer that has none out: ended when cancelled, held while four are out (R356, R364). -/
def nextMgmt (s : State) (p : Fin 16) (m : Mgmt) : State :=
  let h := hport s p
  if m.cancel then endMgmt s p m stAbandoned 0 0
  else if s.drc.frozen then endMgmt s p m stHwFault 0 0
  else if mgmtOut h ≥ 4 || !h.helloDone then s
  else if m.write && accessHeld s 1 then hold s (.mgmt p)
  else
    let n := min (mgmtLimit h) (m.len - m.done)
    let data := if m.write then memRead s.dram (m.dram + m.done) n else []
    let s := modMgmt s p m fun m => { m with out := some (h.nextTid, n, s.ct) }
    let s := modHport s p fun h => { h with nextTid := (h.nextTid + 1) % 256 }
    sendFrame s p { body := .mgmt h.nextTid m.write (m.addr + m.done) n data }

/-- The reads of an identification that wait for a place are sent (R356, R361). -/
def pumpIdent (s : State) (p : Fin 16) : State :=
  (hport s p).identWait.foldl (fun s r =>
    let h := hport s p
    if mgmtOut h ≥ 4 then s
    else
      let s := modHport s p fun h => { h with
        identWait := h.identWait.drop 1, identOut := h.identOut ++ [(h.nextTid, r.1, r.2)], nextTid := (h.nextTid + 1) % 256 }
      sendFrame s p { body := .mgmt h.nextTid false r.1 r.2 [] }) s

/-- Transactions that wait for a place start: those of an identification, then the transfers' next ones. -/
def pumpMgmt (s : State) (p : Fin 16) : State :=
  (hport s p).mgmt.foldl (fun s m => if m.out.isNone then nextMgmt s p m else s) (pumpIdent s p)

/-- A head whose memory or replies fail too often is de-identified: four faults within 1 s (R362). -/
def mgmtFault (s : State) (p : Fin 16) (tid : Nat) : State :=
  let times := (s.ct :: (hport s p).mgmtFaults).filter fun t => s.ct < t + sec 1
  let s := raise s 110 p.val 6 (hport s p).stWord (w32 tid)
  if times.length ≥ 4 then
    let s := modHport s p fun h => { h with mgmtFaults := [], identified := false, identDue := false }
    headEvent (headReady s p false) p 3
  else modHport s p fun h => { h with mgmtFaults := times }

/-- A transaction ends OK: its bytes count; a read's are stored in DRAM; the rank record written starts identification again (R360). -/
def mgmtDone (s : State) (p : Fin 16) (m : Mgmt) (n : Nat) (data : List Byte) : State :=
  let s := if m.write then s else dramPut s (m.dram + m.done) (data.take n)
  let m := { m with done := m.done + n, out := none }
  let s := modMgmt s p m fun _ => m
  if m.done ≥ m.len then
    let touched := m.write && m.addr < 0x200 && 0x100 < m.addr + m.len
    let s := endMgmt s p m stOk 0 0
    if touched then modHport s p fun h => { h with identDue := true } else s
  else nextMgmt s p m

/-- MGMT_REPLY: a reply completes its transaction, is a repeat and ignored, or is malformed and discarded (R335, R340, R355, R356, R362,
R364). -/
def mgmtReply (p : Fin 16) (l : Fin 2) (seq : Nat) (r : MgmtMsg) (s : State) : State :=
  if !laneUp s p l then s
  else
    let (ok, s) := takeSeq (laneRx s p l) p l seq
    if !ok then s
    else
      let h := hport s p
      let tid := r.tid.toNat
      let took (s : State) : State := modHport s p fun h => { h with mgmtPast := ((tid, r.write, r.len.toNat) :: h.mgmtPast).take 16 }
      if h.identOut.any (fun o => o.1 == tid && o.2.2 == r.len.toNat && !r.write) then
        pumpMgmt (modHport (took s) p fun h => { h with identOut := h.identOut.filter fun o => !(o.1 == tid) }) p
      else
        let hit (m : Mgmt) : Bool := match m.out with
          | some (t, n, _) => t == tid && m.write == r.write && n == r.len.toNat
          | none => false
        match h.mgmt.find? hit with
        | none =>
          if h.mgmtPast.contains (tid, r.write, r.len.toNat) then s
          else mgmtFault (modHport s p fun h => { h with mgmtBad := satAdd 0xFF h.mgmtBad 1 }) p tid
        | some m =>
          let s := took s
          let s := if s.drc.frozen then endMgmt s p m stHwFault 0 r.hstatus.toNat
            else if r.hstatus == 0 then mgmtDone s p m r.len.toNat r.data
            else endMgmt s p m stFailed 0x1005 r.hstatus.toNat
          pumpMgmt s p

def execMgmtReply (p : Fin 16) (l : Fin 2) (seq : BitVec 16) (m : MgmtMsg) (s : State) : Host.Outcome State Fault Refusal :=
  .next (mgmtReply p l seq.toNat m s)

/-- MGMT_TIMEOUT: no reply within 1 ms, to a command's transaction or to one that identifies the head (R361, R362, R364). -/
def mgmtTimeout (p : Fin 16) (tid : Nat) (s : State) : State :=
  let hit (m : Mgmt) : Bool := match m.out with
    | some (t, _, _) => t == tid
    | none => false
  match (hport s p).mgmt.find? hit with
  | none =>
    if (hport s p).identOut.any (·.1 == tid) then
      pumpMgmt (mgmtFault (modHport s p fun h => { h with
        mgmtTimeouts := satAdd 0xFF h.mgmtTimeouts 1, identOut := h.identOut.filter fun o => !(o.1 == tid) }) p tid) p
    else s
  | some m =>
    let at' := match m.out with
      | some (_, _, t) => t
      | none => s.ct
    let s := advanceTo s (at' + ms 1)
    let s := modHport s p fun h => { h with mgmtTimeouts := satAdd 0xFF h.mgmtTimeouts 1 }
    pumpMgmt (endMgmt (mgmtFault s p tid) p m stTimeout 0 0) p

def execMgmtTimeout (p : Fin 16) (tid : BitVec 8) (s : State) : Host.Outcome State Fault Refusal := .next (mgmtTimeout p tid.toNat s)

/-- The DRAM controller has frozen: transfers end, and ports holding spilled frames lose both lanes (R364, R525). -/
def linkFreeze (s : State) : State :=
  (indices 16).foldl (fun s p =>
    let s := (hport s p).mgmt.foldl (fun s m => endMgmt s p m stHwFault 0 0) s
    if spills (hport s p) then
      let s := modHport s p fun h => { h with lanes := h.lanes.map fun x => { x with queue := [] } }
      laneLost (laneLost s p 0 4) p 1 4
    else s) s

def dNoHead : Nat := 0x1007

/-- The checks HLK.MGMT_READ and HLK.MGMT_WRITE share (R363, R364). -/
def mgmtChecks (s : State) (c : Cmd) : List (Bool × Nat × Nat) :=
  let h := hport s (portWord c)
  let len := (pw c 2).toNat
  [chkW ((pw c 1).toNat % 4 != 0) 1, chkW (len < 4 || len > 65536 || len % 4 != 0) 2,
    chkW ((pw c 3).toNat % 64 != 0 || !inSpace s 1 (addr64 (pw c 3) (pw c 4)) len) 3, chkS (!h.helloDone) dNoHead]

def mgmtStart (s : State) (c : Cmd) (write : Bool) : CmdRes :=
  let p := portWord c
  let m : Mgmt := { pair := c.pair, tag := c.tag, write := write, addr := (pw c 1).toNat, len := (pw c 2).toNat
                    dram := addr64 (pw c 3) (pw c 4) }
  if s.drc.frozen then .done stHwFault 0 [0, 0] s
  else .started (nextMgmt (modHport s p fun h => { h with mgmt := h.mgmt ++ [m] }) p m)

def mgmtMasks : List Word := [0xF, 0xFFFFFF, 0xFFFFFFFF, 0xFFFFFFFF, 0xFFFFFFFF]

def hlkMgmtReadSpec : CmdSpec := fixedSpec 0x0611 mgmtMasks (async := true)

/-- HLK.MGMT_READ (R356, R363, R364). -/
def execHlkMgmtRead (c : Cmd) (s : State) : Host.Outcome State Fault Refusal :=
  .next (runCmd s hlkMgmtReadSpec c fun s => firstFail s (mgmtChecks s c) (mgmtStart s c false))

/-- A range touches the rank record. -/
def touchesRank (c : Cmd) : Bool := (pw c 1).toNat < 0x200 && 0x100 < (pw c 1).toNat + (pw c 2).toNat

/-- HLK.MGMT_WRITE: refused before it is sent where R360 says so (R356, R360, R363, R364). -/
def hlkMgmtWrite (c : Cmd) (s : State) : CmdRes :=
  let p := portWord c
  firstFail s (mgmtChecks s c ++
    [chkS (touchesRank c && inPanel s p) dLanePanelOpen, (!(headInWindow s p && dieBelowWarn s), stThermal, 0)])
    (mgmtStart s c true)

def hlkMgmtWriteSpec : CmdSpec :=
  { fixedSpec 0x0612 mgmtMasks (async := true) with
    priv := fun _ ws => (ws.getD 1 0).toNat < 0x200 && 0x100 < (ws.getD 1 0).toNat + (ws.getD 2 0).toNat }

def execHlkMgmtWrite (c : Cmd) (s : State) : Host.Outcome State Fault Refusal := .next (runCmd s hlkMgmtWriteSpec c (hlkMgmtWrite c))

/-- HLK.SET_TIMERS (R338, R352, R362, R363). -/
def hlkSetTimers (c : Cmd) (s : State) : CmdRes :=
  let r := bits (pw c 0) 7 0
  let n := bits (pw c 0) 15 8
  let t := bits (pw c 0) 21 16
  firstFail s [chkW (r < 4 || r > 100 || n < 4 || t < 4) 0]
    (.ok (touch { s with hlk := { s.hlk with replayUs := r, nakLimit := n, syncUs := t } } .hlk))

def hlkSetTimersSpec : CmdSpec := fixedSpec 0x0613 [0x3FFFFF] (priv := true)

def execHlkSetTimers (c : Cmd) (s : State) : Host.Outcome State Fault Refusal :=
  .next (runCmd s hlkSetTimersSpec c (hlkSetTimers c))

/-! ## Identification (R358, R359, R361) -/

/-- The identity block of R358. -/
def identityOk (b : List Byte) : Bool :=
  b.length == 64 && crc32c (b.take 0x3C) == (wordAt b 0x3C).toNat && bits (wordAt b 0) 15 0 == 0x0100 && bits (wordAt b 0) 31 16 != 0

/-- The rank record of R359. -/
def rankRecord (b : List Byte) : Rank :=
  { nrows := bits (wordAt b 0) 7 0, cw := bits (wordAt b 0) 10 8, maxRate := bits (wordAt b 4) 16 0
    jetLo := sbits (wordAt b 8) 15 0, jetHi := sbits (wordAt b 8) 31 16
    dropClass := bits (wordAt b 0xC) 3 0, ntemp := bits (wordAt b 0xC) 6 4, rates := bits (wordAt b 0xC) 10 8
    levelMap := BitVec.ofNat 64 (leNat ((b.drop 0x10).take 8))
    rows := (List.range 32).map fun n => (bits (wordAt b (0x28 + 4 * n)) 8 0, bits (wordAt b (0x28 + 4 * n)) 12 9) }

/-- Level k of a map. -/
def levelCode (m : BitVec 64) (k : Nat) : Nat := m.toNat / 2 ^ (4 * k) % 16

/-- A level map fits a code width of `b` bits (R154). -/
def levelMapOk (m : BitVec 64) (b : Nat) : Bool := levelCode m 0 == 0 && (List.range 16).all fun k => levelCode m k < 2 ^ b

/-- Every field range of R359 and R361. -/
def rankOk (b : List Byte) : Bool :=
  let k := rankRecord b
  b.length == 256 && crc32c (b.take 0xFC) == (wordAt b 0xFC).toNat && 1 ≤ k.nrows && k.nrows ≤ 32 && k.cw ≤ 2 &&
    1 ≤ k.maxRate && k.maxRate ≤ 80000 && k.ntemp ≤ 4 && (k.rows.take k.nrows).all (fun r => 1 ≤ r.1 && r.1 ≤ 384) &&
    levelMapOk k.levelMap (2 ^ k.cw)

/-- NROWS, NOZZLES, LAG and CODE_WIDTH (R361). -/
def sameGeometry (a b : Rank) : Bool := a.nrows == b.nrows && a.cw == b.cw && a.rows.take a.nrows == b.rows.take b.nrows

/-- HEAD_IDENTIFY: firmware reads the identity block and the rank record (R361, R489) [A 80]. -/
def startIdentify (s : State) (p : Fin 16) : State :=
  pumpIdent (modHport s p fun h => { h with
    identifying := true, identDue := false, identOut := [], identWait := [(0, 64), (0x100, 256)] }) p

def execHeadIdentify (p : Fin 16) (s : State) : Host.Outcome State Fault Refusal :=
  let h := hport s p
  .next (if portUp s p && h.helloDone && h.identDue && !h.identifying && fwRuns s then startIdentify s p else s)

/-- IDENTIFY_DONE: the blocks take what they need of the head, or the port has none (R154, R236, R310, R361). -/
def identifyDone (p : Fin 16) (identity rank : List Byte) (s : State) : State :=
  let h := hport s p
  if !h.identifying then s
  else
    let s := modHport s p fun h => { h with identifying := false, identOut := [], identWait := [], identCmd := none }
    if identityOk identity && rankOk rank then
      let k := rankRecord rank
      let changed := match h.rank with
        | some old => !sameGeometry old k && inPanel s p
        | none => false
      let maps := Vector.replicate 8 k.levelMap
      let s := modHport s p fun h => { h with
        identified := true, maker := bits (wordAt identity 0) 31 16, rank := some k, mgmtFaults := [], held := h.held || changed }
      let s := headEvent (headReady s p true) p 0
      let s := { s with pdp := { s.pdp with levelMap := vset s.pdp.levelMap p maps } }
      let s := pdpChange s 5 true [p]
      let s := onIdentified (setTarget s p) p
      let s := if changed then portChange (headEvent s p 4) p 0 else s
      match h.identCmd with
      | some (pr, tag) => finishTag s pr tag stOk 0 [w32 (hport s p).maker, w32 (hport s p).version]
      | none => s
    else
      let s := headEvent (headReady (modHport s p fun h => { h with identified := false }) p false) p 1
      match h.identCmd with
      | some (pr, tag) => finishTag s pr tag stFailed 0x1008
      | none => s

def execIdentifyDone (p : Fin 16) (identity rank : List Byte) (s : State) : Host.Outcome State Fault Refusal :=
  .next (identifyDone p identity rank s)

/-- HLK.IDENTIFY (R363, R364); a second one while one runs is BUSY [A 34]. -/
def hlkIdentify (c : Cmd) (s : State) : CmdRes :=
  let p := portWord c
  let h := hport s p
  firstFail s [chkS (!h.helloDone || !portUp s p) dNoHead, (h.identCmd.isSome, stBusy, 0)]
    (let s := modHport s p fun h => { h with identCmd := some (c.pair, c.tag) }
     .started (if h.identifying then s else startIdentify s p))

def hlkIdentifySpec : CmdSpec := fixedSpec 0x0610 [0xF] (async := true)

def execHlkIdentify (c : Cmd) (s : State) : Host.Outcome State Fault Refusal :=
  .next (runCmd s hlkIdentifySpec c (hlkIdentify c))

/-- Ports held down come back once no open panel maps them (R361). -/
def releaseHeld (s : State) : State :=
  (indices 16).foldl (fun s p =>
    if (hport s p).held && !inPanel s p then portChange (modHport s p fun h => { h with held := false }) p 0 else s) s

/-! ## Time exchanges (R351, R352) -/

/-- TIMESYNC_SEND: a request on each lane in service, stamped when it starts (R351, R352). -/
def execTimesyncSend (p : Fin 16) (s : State) : Host.Outcome State Fault Refusal :=
  .next (if portUp s p then
    let s := advanceTo s ((hport s p).syncAt + us s.hlk.syncUs)
    let id := (hport s p).syncId
    let s := modHport s p fun h => { h with syncAt := s.ct, syncId := (id + 1) % 256 }
    (indices 2).foldl (fun s l =>
      if laneUp s p l then
        sendOn s p l (.timesync id 0 (laneDelay (laneOfPort s p l)))
      else s) s
  else s)

/-- TIMESYNC_REPLY: the exchange's delay joins the last four, or is invalid (R352). -/
def timesyncReply (p : Fin 16) (l : Fin 2) (id : Nat) (t2 t3 t4 : Nat) (s : State) : State :=
  let x := laneOfPort s p l
  match x.syncs.find? (·.1 = id) with
  | none => s
  | some (_, t1) =>
    let d : Int := (((t4 : Int) - t1) - ((t3 : Int) - t2)) / 2
    let m := laneDelay x
    let ok := d ≥ 0 && (x.delays.isEmpty || (d - m).natAbs ≤ 64)
    modLane s p l fun x => { x with
      syncs := x.syncs.filter (·.1 != id)
      delays := if ok then (d.toNat :: x.delays).take 4 else x.delays
      badSyncs := if ok then x.badSyncs else x.badSyncs + 1 }

def execTimesyncReply (p : Fin 16) (l : Fin 2) (id : BitVec 8) (t2 t3 t4 : BitVec 64) (s : State) : Host.Outcome State Fault Refusal :=
  .next (if laneUp s p l then timesyncReply p l id.toNat t2.toNat t3.toNat t4.toNat (laneRx s p l) else s)

/-! ## Head status (R247, R348, R354, R362) -/

/-- A line a port has FIRED becomes UNFIRED there, and no longer counts as fired on every port (R185, R247). -/
def unfireLine (s : State) (p : Fin 16) (pan : Panel) (line : Nat) : State :=
  let s := modPpt s pan.num p fun x => { x with fired := x.fired - 1, unfired := x.unfired + 1, hits := removeLine x.hits line }
  let s := modPanel s pan.num fun pan => { pan with
    fired := if inRanges pan.whole line then pan.fired - 1 else pan.fired
    whole := removeLine pan.whole line, unf := insertRange pan.unf line (line + 1) }
  unfiredEvent s p.val (pan.endKind.getD 0) pan line 1

/-- A line of an open panel that a head reports missed, in whole or in part, is UNFIRED on the port: at once if it has FIRED there, else when
the last of its rows has fired, if it ends FIRED (R233, R247) [A 35]. -/
def missLine (s : State) (p : Fin 16) (num : BitVec 16) (line : Nat) : State :=
  match panelNamed s num with
  | none => raise s 25 p.val 0 (w32 line) 1 (w32 num.toNat)
  | some pan =>
    let abs := pan.base + line
    if pan.missed.contains (p, line) || !takes pan p || line ≥ pan.lines then s
    else
      let s := modPanel s num fun pan => { pan with missed := (p, line) :: pan.missed }
      if !inRanges (vget pan.ports p).hits line then s
      else
        let s := { s with fir := { s.fir with decs := s.fir.decs.map fun x =>
          if x.abs = abs then { x with anyUnfired := true, upUnfired := true } else x } }
        unfireLine s p pan line

/-- Missed records were lost: every line with a committed instant in the time they may belong to is UNFIRED (R362). -/
def lostMissed (s : State) (p : Fin 16) (since now : Nat) : State :=
  let hit (t : Nat) : Bool := since < t + portDelayCt s p && t ≤ now
  let done := (vget s.fir.recent p).filter fun r => r.2.2.any hit
  let open' := ((vget s.fir.commits p).filter fun c => hit c.at').map fun c => c.abs
  let s := done.foldl (fun s r => missLine s p r.1 r.2.1) s
  open'.foldl (fun s a => match panelAt s a with
    | some pan => missLine s p pan.num (a - pan.base)
    | none => s) s

/-- EV_HLK_HEAD_FAULT when a flag of STATUS becomes set (R362) [A 35]. -/
def statusFault (s : State) (p : Fin 16) (was now : Bool) (code : Nat) : State :=
  if now && !was then raise s 110 p.val code (hport s p).stWord 0 else s

/-- STATUS_RECEIVE: flags, temperatures and missed rows; a repeat after the loss of a lane is ignored (R340, R354, R362) [A 102]. -/
def statusReceive (p : Fin 16) (l : Fin 2) (f : SeqMark) (m : StatusMsg) (s : State) : State :=
  if !laneUp s p l then s
  else
    let (ok, s) := takeSeq (laneRx s p l) p l f.seq.toNat
    if !ok || (f.replay && (hport s p).statusPast.contains m) then s
    else
      let s := modHport s p fun h => { h with statusPast := (m :: h.statusPast).take 16 }
      let h := hport s p
      let w := m.word0
      let s := modHport s p fun h => { h with
        stWord := w, timeOk := bit w 0, statusAt := s.ct, silent := false
        temps := (m.temps.take (min 4 (bits w 27 24))).map fun t => signed 16 t.toNat
        missedCnt := sat32 h.missedCnt (min 4 (bits w 31 28)) }
      let s := statusFault s p (bit h.stWord 1) (bit w 1) 1
      let s := statusFault s p (bit h.stWord 2) (bit w 2) 2
      let s := statusFault s p (!h.timeOk) (!bit w 0) 3
      let s := if bit w 3 then lostMissed (raise s 110 p.val 5 w 0) p h.statusAt s.ct else s
      let s := (m.misses.take (min 4 (bits w 31 28))).foldl (fun s r => missLine s p r.panel r.line.toNat) s
      let keep (r : BitVec 16 × Nat × List Nat) : Bool := r.2.2.any fun t => s.ct < t + portDelayCt s p
      let s := { s with fir := { s.fir with recent := vmod s.fir.recent p (·.filter keep) } }
      onHeadTemps s p

def execStatusReceive (p : Fin 16) (l : Fin 2) (f : SeqMark) (m : StatusMsg) (s : State) : Host.Outcome State Fault Refusal :=
  .next (statusReceive p l f m s)

/-- STATUS_SILENT: no STATUS for 1 ms: the head's temperatures are invalid until it returns (R362). -/
def execStatusSilent (p : Fin 16) (s : State) : Host.Outcome State Fault Refusal :=
  let h := hport s p
  .next (if portUp s p && !h.silent then
    let s := advanceTo s (h.statusAt + ms 1)
    onHeadTemps (raise (modHport s p fun h => { h with silent := true }) 110 p.val 4 h.stWord 0) p
  else s)

end Sys2Proof.Machine
end

