-- ==== Sys2Proof/Machine/Panel.lean ====
section
/-! DEFINITION. Panels: opening, readiness, hem moves, aborts, the hem and the report (R131-R146, R161-R166, R183-R190, R220, R613, R614). -/

namespace Sys2Proof.Machine

open Sys2Proof

/-! ## DETAIL values (R171) -/

def dAlign : Nat := 0x1001
def dMapDuplicate : Nat := 0x1002
def dMapRange : Nat := 0x1003
def dMapOverlap : Nat := 0x1004
def dMapRedundant : Nat := 0x1005
def dSeamBad : Nat := 0x1006
def dLevelsFormat : Nat := 0x1007
def dCapNoAxis : Nat := 0x1008
def dReadyBackward : Nat := 0x1009
def dLevel0Nonzero : Nat := 0x100A
def dLevelCodeWide : Nat := 0x100B
def dPdpNoHead : Nat := 0x100C
def dHemBehindSent : Nat := 0x100D
def dPanelQueueFull : Nat := 0x100E
def dNotOpen : Nat := 0x100F
def dEbcHeader : Nat := 0x1010
def dRowSpan : Nat := 0x1011
def dNoFeed : Nat := 0x1012
def dFeedFault : Nat := 0x1013
def dGateActive : Nat := 0x1014
def dDramFrozen : Nat := 0x1015
def dShutdown : Nat := 0x1016
def dDramNotReady : Nat := 0x1017
def dHemPassed : Nat := 0x1018
def dAddrRange : Nat := 0x1019
/-- DETAIL of a set reserved bit (R99). -/
def dReserved : Nat := 0x0001

def nbands (lines : Nat) : Nat := ceilDiv lines 8
def nblk (width : Nat) : Nat := ceilDiv width 256

/-! ## Opening (R614) -/

/-- A panel structure's field out of its range: BAD_PARAM that nothing refines, DETAIL 0 (R99) [A 39]. -/
def chkField (bad : Bool) : Bool × Nat × Nat := (bad, stBadParam, 0)

/-- A 64-bit address of two words at an offset. -/
def addrAt (b : List Byte) (a : Nat) : Nat := addr64 (wordAt b a) (wordAt b (a + 4))
def allZero (b : List Byte) (lo hi : Nat) : Bool := ((b.drop lo).take (hi - lo)).all (· == 0)

/-- Header checks in offset order (R132, R162, R614 steps 8 to 10). -/
def headerChecks (s : State) (h : List Byte) : List (Bool × Nat × Nat) :=
  let w0 := wordAt h 0
  let np := bits w0 19 16
  let lines := (wordAt h 4).toNat
  let pol := wordAt h 0xC
  let n := wordAt h 0x30
  let nmap := bits n 9 0
  let nseam := bits n 22 16
  let nb := nbands lines
  [chkField (np < 1 || np > 8), chkP (bits w0 31 20 != 0) dReserved, chkField (lines < 1 || lines > 2 ^ 31),
    chkField ((wordAt h 8).toNat < 1 || (wordAt h 8).toNat > 196608), chkField (bits pol 1 0 == 3),
    chkP (bits pol 1 0 == 2 && s.fir.src != 1) dCapNoAxis, chkP (bits pol 31 4 != 0) dReserved,
    chkField ((wordAt h 0x14).toNat > nb),
    chkP (addrAt h 0x18 % 64 != 0) dAlign, chkP (!inSpace s 1 (addrAt h 0x18) (nb * np * 64)) dAddrRange,
    chkP (addrAt h 0x20 % 16 != 0) dAlign, chkP (nmap != 0 && !inSpace s 1 (addrAt h 0x20) (16 * nmap)) dAddrRange,
    chkP (nseam != 0 && addrAt h 0x28 % 16 != 0) dAlign, chkP (nseam != 0 && !inSpace s 1 (addrAt h 0x28) (16 * nseam)) dAddrRange,
    chkField (nmap < 1 || nmap > 512), chkP (bits n 15 10 != 0) dReserved, chkField (nseam > 64), chkP (bits n 31 23 != 0) dReserved,
    chkP (addrAt h 0x38 % 64 != 0) dAlign, chkP (!inSpace s 1 (addrAt h 0x38) 576) dAddrRange, chkP (!allZero h 0x40 0x80) dReserved]

/-- Raw block size of a plane of a FORMAT (R134). -/
def rawOf (format : Nat) : Nat := 256 * 2 ^ widthCode format

/-- Checks of one plane entry (R134, R154, R195, R196, R614 step 11). -/
def planeChecks (s : State) (h e : List Byte) : List (Bool × Nat × Nat) :=
  let w0 := wordAt e 0
  let f := bits w0 1 0
  let lv := bits w0 7 4
  let width := (wordAt h 8).toNat
  let left := (wordAt e 4).toNat
  let right := (wordAt e 8).toNat
  let sh := wordAt e 0x20
  [chkP (bits w0 3 2 != 0) dReserved, chkP (f != 0 && lv != 2 ^ (2 ^ (f - 1)) - 1) dLevelsFormat, chkField (lv < 1),
    chkP (bits w0 31 8 != 0) dReserved, chkField (left ≥ right || right > width), chkField (bits (wordAt e 0xC) 4 0 > 16),
    chkP (bits (wordAt e 0xC) 31 5 != 0) dReserved, chkP (addrAt e 0x10 % 64 != 0) dAlign,
    chkP ((wordAt e 0x18).toNat != 0 && !inSpace s 1 (addrAt e 0x10) ((wordAt e 0x18).toNat * rawOf f)) dAddrRange,
    chkP (wordAt e 0x1C != 0) dReserved, (bits sh 15 0 != 0x0100, stVersion, 0x03),
    chkP (bits sh 17 16 != widthCode f || bits sh 31 18 != 0 || (wordAt e 0x24).toNat != nblk width ||
      (wordAt e 0x28).toNat != nbands (wordAt h 4).toNat || wordAt e 0x2C != 0) dEbcHeader]

def seamOf (e : List Byte) : Seam :=
  let w := wordAt e 0
  { plane := bits w 2 0, left := ⟨bits w 7 4, Nat.mod_lt _ (by decide)⟩, right := ⟨bits w 11 8, Nat.mod_lt _ (by decide)⟩
    slot := ⟨bits w 17 16, Nat.mod_lt _ (by decide)⟩, start := (wordAt e 4).toNat, w := bits (wordAt e 8) 10 0 }

/-- The same plane and pair of ports (R144). -/
def samePair (a b : Seam) : Bool :=
  a.plane == b.plane && ((a.left == b.left && a.right == b.right) || (a.left == b.right && a.right == b.left))

def seamFieldChecks (np : Nat) (e : List Byte) (before : List Seam) : List (Bool × Nat × Nat) :=
  let w := wordAt e 0
  let x := seamOf e
  [chkP (bit w 3 || bits w 15 12 != 0 || bits w 31 18 != 0) dReserved, chkField (x.plane ≥ np),
    chkP (x.left == x.right || before.any (samePair x)) dSeamBad, chkField (x.w < 8 || x.w > 1024),
    chkP (bits (wordAt e 8) 31 11 != 0 || wordAt e 0xC != 0) dReserved]

def mapEntryOf (e : List Byte) : MapEntry :=
  let w := wordAt e 0
  { rowlane := ⟨bits w 8 0, Nat.mod_lt _ (by decide)⟩, redundant := bits w 10 9 == 1, down := bit w 11, plane := bits w 14 12
    step := bits w 17 16 + 1, x0 := sbits (wordAt e 4) 31 0, first := bits (wordAt e 8) 8 0, count := bits (wordAt e 8) 24 16 }

def mapFieldChecks (np : Nat) (e : List Byte) : List (Bool × Nat × Nat) :=
  let w := wordAt e 0
  let m := mapEntryOf e
  [chkField (bits w 10 9 > 1), chkField (m.plane ≥ np), chkP (bit w 15 || bits w 31 18 != 0) dReserved, chkField (m.first > 383),
    chkP (bits (wordAt e 8) 15 9 != 0) dReserved, chkField (m.count < 1 || m.count > 384),
    chkP (bits (wordAt e 8) 31 25 != 0 || wordAt e 0xC != 0) dReserved]

/-- Position of a map entry that prints dot `x` (R142). -/
def mapPos (m : MapEntry) (x : Nat) : Bool :=
  let d : Int := if m.down then m.x0 - x else x - m.x0
  d ≥ 0 && d % m.step = 0 && d / m.step < m.count

/-- Primary nozzles of a dot break R143: two of one port, two ports without a seam entry, three or more ports. -/
def overlapBad (map : List MapEntry) (seams : List Seam) (pl x : Nat) : Bool :=
  let ps := (map.filter fun m => m.plane = pl && !m.redundant && mapPos m x).map fun m => portOf m.rowlane
  match ps with
  | [] | [_] => false
  | [a, b] => a == b || !seams.any fun e => e.plane = pl && ((e.left == a && e.right == b) || (e.left == b && e.right == a))
  | _ => true

/-- The map rules of R143, then NO_HEAD, then ROW_SPAN (R224, R614 steps 13 and 14). -/
def mapChecks (s : State) (pan : Panel) : List (Bool × Nat × Nat) :=
  let gs := pan.map.map (·.rowlane)
  let xs := List.range pan.width
  let pls := List.range pan.nplanes
  let used := (indices 16).filter fun p => gs.any (portOf · == p)
  let span (gs : List (Fin 512)) : Nat := maxList (gs.map fun g => vget s.fir.rowOff g) - minList (gs.map fun g => vget s.fir.rowOff g)
  [chkP (decide ¬ gs.Nodup) dMapDuplicate,
    chkP (pan.map.any fun m => m.first + m.count > (if (hport s (portOf m.rowlane)).rank.isSome then
      rowNozzles s (portOf m.rowlane) (rowOf m.rowlane).val else 384)) dMapRange,
    chkP (pls.any fun pl => xs.any fun x => overlapBad pan.map pan.seams pl x) dMapOverlap,
    chkP (pls.any fun pl => xs.any fun x => (pan.map.countP fun m => m.plane = pl && m.redundant && mapPos m x) ≥ 2) dMapRedundant,
    chkS (used.any fun p => !(hport s p).identified) dPdpNoHead,
    chkP (used.any fun p => span (gs.filter (portOf · == p)) ≥ 65536) dRowSpan, chkP (span gs > 24 * 65536) dRowSpan]

/-- A panel as its structures in DRAM give it. -/
def panelOf (h : List Byte) (planes : List (List Byte)) (map : List MapEntry) (seams : List Seam) : Panel :=
  let pol := wordAt h 0xC
  { userId := wordAt h 0x34, lines := (wordAt h 4).toNat, width := (wordAt h 8).toNat, nplanes := planes.length
    overspeed := bits pol 1 0, degraded := bit pol 2, noCal := bit pol 3, gap := (wordAt h 0x10).toNat, ready := (wordAt h 0x14).toNat
    bandTable := addrAt h 0x18, report := addrAt h 0x38
    planes := planes.map fun e =>
      { format := bits (wordAt e 0) 1 0, levelsM1 := bits (wordAt e 0) 7 4, left := (wordAt e 4).toNat, right := (wordAt e 8).toNat
        taperLen := bits (wordAt e 0xC) 4 0, taper := (e.drop 0x30).take 16, ovf := addrAt e 0x10, ovfBlocks := (wordAt e 0x18).toNat }
    map := map, seams := seams
    ports := Vector.ofFn fun p : Fin 16 => { takes := map.any fun m => portOf m.rowlane == p } }

/-- A gate run is in progress (R283). -/
def gateRuns (s : State) : Bool := s.nhd.gates.any (·.run.isSome)

/-- ceil of a position with 32 fraction bits. -/
def ceil32 (x : Int) : Int := -((-x) / one32)

/-- The panel becomes active: its start is reported; while external-feed throttling lasts every line of it is UNFIRED (R183, R190, R240). -/
def panelStart (s : State) : State :=
  match s.pdp.active with
  | none => s
  | some pan =>
    let s := raise { s with fir := { s.fir with lagCeil := none } } 16 pan.num.toNat 0 pan.userId
    if throttleStop s then cutPanel (markStopped s pan false) pan s.fir.next 5 else s

/-- A port of a panel being opened that is already down, or out of its window, is no loss in it [A 97]. -/
def knownLocks (s : State) (pan : Panel) : State :=
  let lock (p : Fin 16) : Option Nat :=
    if takes pan p && (vget s.fir.portLock p).isNone then portLockOf s p else vget s.fir.portLock p
  { s with fir := { s.fir with portLock := Vector.ofFn lock } }

/-- A panel opens: active at once with fresh cursors, or queued behind the active one; sleeping lanes of its ports wake
(R162, R172, R220, R319). -/
def openPanel (s : State) (pan : Panel) : State :=
  let num := s.fw.nextPanel
  let s := knownLocks { s with fw := { s.fw with nextPanel := num + 1 } } pan
  let wake (s : State) : State := (partPorts pan).foldl (fun s p => wakeSleeper (wakeSleeper s p 0) p 1) s
  match s.pdp.active with
  | none =>
    let pan := { pan with num := num, base := 0, origin := ceil32 s.fir.hwm + pan.gap }
    let s := { s with
      pdp := { s.pdp with
        active := some pan, c := 0, starved := false, store := [], staging := []
        ports := s.pdp.ports.map fun q => { q with s := 0, f := 0, sentTop := 0, lines := [], ended := [], changes := [] } }
      fir := { s.fir with next := 0, decs := [], commits := Vector.replicate 16 [], stitches := Vector.replicate 16 [] } }
    panelStart (wake ((indices 16).foldl settlePort s))
  | some a =>
    wake { s with pdp := { s.pdp with
      queued := some { pan with num := num, base := panelEnd a, origin := a.origin + a.lines + pan.gap } } }

/-- The 128 bytes of a header, the entries of a list, and what JOB.OPEN_PANEL reads from DRAM (R131, R132, R134, R141, R144). -/
def openHeader (c : Cmd) (s : State) : List Byte := memRead s.dram (addr64 (pw c 0) (pw c 1)) 128
def openList (s : State) (at' n size : Nat) : List (List Byte) := (List.range n).map fun i => memRead s.dram (at' + size * i) size
def openPlaneCount (c : Cmd) (s : State) : Nat := bits (wordAt (openHeader c s) 0) 19 16
def openPlanes (c : Cmd) (s : State) : List (List Byte) := openList s (addr64 (pw c 0) (pw c 1) + 0x80) (openPlaneCount c s) 64
def openSeams (c : Cmd) (s : State) : List (List Byte) :=
  let h := openHeader c s
  openList s (addrAt h 0x28) (bits (wordAt h 0x30) 22 16) 16
def openMap (c : Cmd) (s : State) : List (List Byte) :=
  let h := openHeader c s
  openList s (addrAt h 0x20) (bits (wordAt h 0x30) 9 0) 16

/-- The panel that the structures describe. -/
def openedPanel (c : Cmd) (s : State) : Panel :=
  panelOf (openHeader c s) (openPlanes c s) ((openMap c s).map mapEntryOf) ((openSeams c s).map seamOf)

/-- Checks of R614 on the state, the address and the header, steps 1 to 10. -/
def openChecksHeader (c : Cmd) (s : State) : List (Bool × Nat × Nat) :=
  let a := addr64 (pw c 0) (pw c 1)
  let h := openHeader c s
  [chkS (!s.glb.ready.getLsbD 2) dDramNotReady, chkS s.drc.frozen dDramFrozen, chkS (shutdownOn s) dShutdown, chkS (gateRuns s) dGateActive,
    chkS (s.fir.src == 0) dNoFeed, chkS s.fir.feedFault dFeedFault, (s.pdp.queued.isSome, stNoResource, dPanelQueueFull),
    chkP (a % 64 != 0) dAlign, chkP (!inSpace s 1 a 128 || !inSpace s 1 a (128 + 64 * min 8 (openPlaneCount c s))) dAddrRange,
    (bits (wordAt h 0) 15 0 != 0x0100, stVersion, 0x04)] ++ headerChecks s h

/-- Checks of R614 on the plane, seam and map entries, steps 11 and 12. -/
def openChecksEntries (c : Cmd) (s : State) : List (Bool × Nat × Nat) :=
  let np := openPlaneCount c s
  let seamB := openSeams c s
  (openPlanes c s).flatMap (planeChecks s (openHeader c s)) ++
    (List.range seamB.length).flatMap (fun i => seamFieldChecks np (seamB.getD i []) ((seamB.map seamOf).take i)) ++
    (openMap c s).flatMap (mapFieldChecks np)

/-- JOB.OPEN_PANEL: the checks of R614 in their order, then the opening (R131, R162, R614). -/
def jobOpenPanel (c : Cmd) (s : State) : CmdRes :=
  firstFailThen s (openChecksHeader c s) fun _ => firstFailThen s (openChecksEntries c s) fun _ =>
    firstFail s (mapChecks s (openedPanel c s))
      (.ok (scheduleCmd (openPanel s (openedPanel c s)) c 0x0201) [pack [(s.fw.nextPanel.toNat, 0), (b2n s.pdp.active.isSome, 16)]])

def jobOpenPanelSpec : CmdSpec := fixedSpec 0x0201 [0xFFFFFFFF, 0xFFFFFFFF]

/-- The command waits while the DRC holds what it reads (R131, R512); before the DRAM is in service it is rejected (R614). -/
def openPanelCmd (c : Cmd) (s : State) : State :=
  if s.glb.ready.getLsbD 2 then runReading s jobOpenPanelSpec c (.openPanel c) (jobOpenPanel c)
  else runCmd s jobOpenPanelSpec c (jobOpenPanel c)

def execJobOpenPanel (c : Cmd) (s : State) : Host.Outcome State Fault Refusal := .next (openPanelCmd c s)

def numOf (w : Word) : BitVec 16 := BitVec.ofNat 16 w.toNat

/-- JOB.READY (R139, R163). -/
def jobReady (c : Cmd) (s : State) : CmdRes :=
  match panelNamed s (numOf (pw c 0)) with
  | none => .badState s dNotOpen
  | some pan =>
    let n := (pw c 1).toNat
    firstFail s [chkP (n < pan.ready) dReadyBackward, chkW (n > nbands pan.lines) 1]
      (.ok (scheduleCmd (modPanel s pan.num fun x => { x with ready := n }) c 0x0202))

def jobReadySpec : CmdSpec := fixedSpec 0x0202 [0xFFFF, 0xFFFFFFFF]

def execJobReady (c : Cmd) (s : State) : Host.Outcome State Fault Refusal :=
  .next (runCmd s jobReadySpec c (jobReady c))

/-- The cursors are cut back to a line, and lines from it on are forgotten (R164, R165). -/
def cutCursors (s : State) (cut : Nat) : State :=
  let s := { s with pdp := { s.pdp with
    c := min s.pdp.c cut
    ports := s.pdp.ports.map fun q => { q with
      s := min q.s cut, f := min q.f cut, sentTop := min q.sentTop cut, ended := clipRanges q.ended cut
      lines := q.lines.filter (·.abs < cut) } } }
  (indices 16).foldl settlePort s

/-- A panel's hem moves to line `h`; a queued panel behind it moves with it, and so does a swatch in that (R164, R220, R287). -/
def moveHem (s : State) (pan : Panel) (h : Nat) : State :=
  let cut := pan.base + h
  let behind := s.pdp.active.map (·.num) == some pan.num
  let s := modPanel s pan.num fun x => { x with lines := h }
  let s := if behind then
      { s with
        pdp := { s.pdp with queued := s.pdp.queued.map fun q => { q with base := cut, origin := pan.origin + h + q.gap } }
        nhd := { s.nhd with run := s.nhd.run.map fun r => if (s.pdp.queued.map (·.num)) == some r.panel then { r with base := cut } else r } }
    else s
  let s := { s with pdp := { s.pdp with store := s.pdp.store.filter fun b => b.panel != pan.num || b.band < nbands h } }
  cutCursors s cut

/-- JOB.HEM: the hem moves to line H while nothing at or beyond H is sent or decided (R164). -/
def jobHem (c : Cmd) (s : State) : CmdRes :=
  match panelNamed s (numOf (pw c 0)) with
  | none => .badState s dNotOpen
  | some pan =>
    let h := (pw c 1).toNat
    let cut := pan.base + h
    let sent := s.fir.next > cut || s.pdp.ports.any fun q => q.sentTop > cut
    firstFail s [chkW (h < 1 || h > pan.lines) 1, chkS sent dHemBehindSent] (.ok (scheduleCmd (moveHem s pan h) c 0x0203))

def jobHemSpec : CmdSpec := fixedSpec 0x0203 [0xFFFF, 0xFFFFFFFF]

def execJobHem (c : Cmd) (s : State) : Host.Outcome State Fault Refusal :=
  .next (runCmd s jobHemSpec c (jobHem c))

/-! ## The hem and the report (R166, R183-R186) -/

/-- The panel report of R185. -/
def reportBytes (s : State) (pan : Panel) : List Byte :=
  let first := match pan.unf with
    | (lo, _) :: _ => lo
    | [] => 0xFFFFFFFF
  let head := wordBytes [w32 pan.num.toNat, w32 (pan.endKind.getD 0), w32 pan.lines, w32 pan.fired, w32 pan.skipped, w32 (rangesCount pan.unf),
    w32 first, w32 pan.decodeErrors, w32 s.ct, w32 (s.ct / 2 ^ 32),
    pack [(pan.genFirst.getD s.pdp.gen % 65536, 0), (s.pdp.gen % 65536, 16)], s.seq.epoch, s.nhd.version, pan.userId, 0, 0]
  head ++ (indices 16).flatMap fun p =>
    let r := vget pan.ports p
    wordBytes [pack [(b2n r.takes, 0), (b2n r.wentDown, 1)], w32 r.fired, w32 r.skipped, w32 r.unfired, w32 r.unpicked, w32 r.stale,
      w32 (if r.takes then r.minSlack else 0), 0]

/-- A report put among those held, in panel order: a panel goes before those whose number is ahead of its own modulo 65,536 (R183). -/
def holdReport (held : List (BitVec 16 × Nat × List Byte)) (r : BitVec 16 × Nat × List Byte) : List (BitVec 16 × Nat × List Byte) :=
  let after (x : BitVec 16 × Nat × List Byte) : Bool := 0 < (x.1 - r.1).toInt
  let all := held.takeWhile (!after ·) ++ r :: held.dropWhile (!after ·)
  all.drop (all.length - 16)

/-- The report is accepted by the DRAM controller, or kept while it is frozen; then EV_PDP_HEM, and the commands that wait reply (R183). -/
def closePanel (s : State) (pan : Panel) : State :=
  let bs := reportBytes s pan
  let late := s.drc.frozen
  let s := if late then { s with pdp := { s.pdp with held := holdReport s.pdp.held (pan.num, pan.report, bs) } }
    else dramWrite s pan.report bs
  let kind := pan.endKind.getD 0
  let unf := rangesCount pan.unf
  let s := if s.nhd.run.any (·.panel == pan.num) then swatchSettle s true else s
  let s := raise s 17 pan.num.toNat (kind + 256 * b2n late) (w32 pan.fired) (w32 pan.skipped) (w32 unf) pan.userId
  let e : EndedPanel := { num := pan.num, kind := kind, fired := pan.fired, skipped := pan.skipped, unfired := unf }
  let mine := s.pdp.waits.filter fun w => w.2.2.1 == pan.num
  let s := { s with pdp := { s.pdp with
    past := (e :: s.pdp.past).take 16, waits := s.pdp.waits.filter fun w => !(w.2.2.1 == pan.num) } }
  mine.foldl (fun s w =>
    finishTag s w.1 w.2.1 stOk 0 (match w.2.2.2 with
      | some line => [w32 line]
      | none => [w32 kind, w32 pan.fired, w32 pan.skipped, w32 unf])) s

/-- What FIR has decided and committed from a line on is dropped, and the panel's stitch frames not yet sent (R165). -/
def dropDecisions (s : State) (num : BitVec 16) (cut : Nat) : State :=
  { s with fir := { s.fir with
    next := min s.fir.next cut, decs := s.fir.decs.filter (·.abs < cut)
    commits := s.fir.commits.map fun cs => cs.filter (·.abs < cut)
    stitches := s.fir.stitches.map fun ss => ss.filter fun st => st.flush || st.panel != num } }

/-- A queued panel is closed without becoming active: every line UNFIRED, and its heads drop what they hold of it (R165, R186, R349). -/
def closeQueued (s : State) (kind : Nat) : State :=
  match s.pdp.queued with
  | none => s
  | some q =>
    let q' : Panel := { q with
      endKind := some kind, unf := [(0, q.lines)], fired := 0, skipped := 0, whole := []
      ports := q.ports.map fun x => if x.takes then { x with fired := 0, skipped := 0, unfired := q.lines, hits := [] } else x }
    let s := dropDecisions { s with pdp := { s.pdp with queued := none } } q.num q.base
    let s := sendFlush (cutCursors s q.base) q
    closePanel (unfiredEvent s 0xFFFF kind q 0 q.lines) q'

/-- A panel is ended at its first line without a bar decision, the queued panel at its first line; with the active panel's own abort the queued one
may be closed with it (R165, R235, R349). -/
def abortPanel (c : Cmd) (pan : Panel) (s : State) : State :=
  let isActive := s.pdp.active.map (·.num) == some (numOf (pw c 0))
  let x := if isActive then min (max s.fir.next pan.base) (panelEnd pan) else pan.base
  let s := { s with pdp := { s.pdp with waits := s.pdp.waits ++ [(c.pair, c.tag, numOf (pw c 0), some (x - pan.base))] } }
  let s := if isActive then
      let s := if bit (pw c 0) 16 then closeQueued s 2 else s
      sendFlush (cutPanel s pan x 2) pan
    else s
  scheduleCmd s c 0x0204

/-- JOB.ABORT: the reply follows the panel's report (R165). -/
def jobAbort (c : Cmd) (s : State) : CmdRes :=
  match panelNamed s (numOf (pw c 0)) with
  | none => .badState s dNotOpen
  | some pan => .started (abortPanel c pan s)

/-- A queued panel whose abort has started is closed at once (R165). -/
def closeAborted (s : State) : State :=
  if s.pdp.queued.any fun q => s.pdp.waits.any fun w => w.2.2.1 == q.num && w.2.2.2.isSome then closeQueued s 2 else s

def jobAbortSpec : CmdSpec := fixedSpec 0x0204 [0x1FFFF] (async := true)

def execJobAbort (c : Cmd) (s : State) : Host.Outcome State Fault Refusal :=
  .next (closeAborted (runCmd s jobAbortSpec c (jobAbort c)))

/-- JOB.WAIT_HEM (R166). -/
def jobWaitHem (c : Cmd) (s : State) : CmdRes :=
  let num := numOf (pw c 0)
  if (panelNamed s num).isSome then .started { s with pdp := { s.pdp with waits := s.pdp.waits ++ [(c.pair, c.tag, num, none)] } }
  else match s.pdp.past.find? (·.num == num) with
    | some e => .ok s [w32 e.kind, w32 e.fired, w32 e.skipped, w32 e.unfired]
    | none => .badState s dNotOpen

def jobWaitHemSpec : CmdSpec := fixedSpec 0x0205 [0xFFFF] (async := true)

def execJobWaitHem (c : Cmd) (s : State) : Host.Outcome State Fault Refusal :=
  .next (runCmd s jobWaitHemSpec c (jobWaitHem c))

/-- Groups deferred for 30 s may run from this hem on, whatever the next panel's flag (R557). -/
def calHem (s : State) : State :=
  (indices 11).foldl (fun s g =>
    let x := vget s.cal.groups g
    if !(x.forced && x.due && !x.hem) then s
    else
      let s := { s with cal := { s.cal with groups := vmod s.cal.groups g fun x => { x with hem := true } } }
      raise s 237 g.val 1 (w32 ((s.ct - x.deferAt.getD s.ct) / sec 1))) s

/-! ## Table copies and the DRAM controller (R167, R169) -/

/-- Bytes a table command copies. -/
def tableBytes (j : TableJob) : Nat :=
  let w (i : Nat) : Word := j.words.getD i 0
  match j.op with
  | 0x0301 => 18 * (w 3).toNat
  | 0x0302 => 512
  | 0x0303 => 15 * (bits (w 2) 15 8 + 1) * (bits (w 2) 23 16 + 1)
  | 0x0304 => 4096
  | _ => 0

/-- The table a command loads (R169). -/
def tableOf (j : TableJob) : Option Table :=
  let w (i : Nat) : Word := j.words.getD i 0
  match j.op with
  | 0x0301 => some .curves
  | 0x0302 => some (.global (bits (w 2) 2 0))
  | 0x0303 => some (.screen (bits (w 2) 2 0))
  | 0x0304 => some (.seamMask (bits (w 2) 1 0))
  | _ => none

/-- The DRAM controller is frozen during a copy: HW_FAULT, and the table is invalid (R169, R525). -/
def tableFreeze (s : State) : State :=
  match s.pdp.job with
  | some j =>
    if j.copying && tableBytes j > 0 then
      let s := { s with pdp := { s.pdp with job := none, invalid := (s.pdp.invalid ++ (tableOf j).toList).eraseDups } }
      finishLive s j.dead j.pair j.tag stHwFault 0
    else s
  | none => s

/-- PANEL_HEM: every line has ended on every port that takes part: report, flush of a panel with unfired lines, the queued panel's start,
and what waited for the hem (R168, R183, R240, R242, R263, R349, R361). -/
def panelHem (s : State) : State :=
  match s.pdp.active with
  | none => s
  | some pan =>
    if !(partPorts pan).all fun p => (pport s p).f ≥ panelEnd pan then s
    else
      let s := if pan.unf.isEmpty || pan.endKind == some 2 then s else sendFlush s pan
      let s := { s with pdp := { s.pdp with active := none } }
      let s := closePanel s pan
      let job := s.pdp.job.map fun (j : TableJob) => { j with copying := true }
      let s := { s with
        pdp := { s.pdp with active := s.pdp.queued, queued := none, c := max s.pdp.c (panelEnd pan), job := job }
        fir := { s.fir with next := max s.fir.next (panelEnd pan) } }
      let s := if s.drc.frozen then tableFreeze s else s
      let s := { s with nhd := { s.nhd with writes := s.nhd.writes ++ s.nhd.hem.toList, hem := none } }
      let s := (indices 16).foldl settlePort s
      let s := releaseHeld s
      let capOn := s.pdp.active.any (·.overspeed == 2)
      let s := if s.fir.ceiling.isSome && !capOn then
          setAxisCeiling { s with fir := { s.fir with ceiling := none, tHeld := none } } s.fir.axis none
        else match s.fir.ceiling, s.fir.lagCeil, s.pdp.active with
          | some c, some _, some q => raise (setAxisCeiling s s.fir.axis (some c)) 41 q.num.toNat 0 (w32 c)
          | _, _, _ => s
      panelStart (calHem s)

def execPanelHem (s : State) : Host.Outcome State Fault Refusal := .next (panelHem s)

/-! ## Recomputation (R159, R175, R180, R262) -/

/-- A line of a port at or beyond S that a change or a return to service has left uncomputed (R175, R180). -/
def missing (s : State) (p : Fin 16) : Option Nat :=
  let q := pport s p
  ((List.range (s.pdp.c - q.s)).map (q.s + ·)).find? fun a =>
    !inRanges q.ended a && !q.lines.any (·.abs = a) && (match panelAt s a with
      | some pan => takes pan p
      | none => false)

/-- Recomputation is under way. -/
def recomputing (s : State) : Bool := (indices 16).any fun p => (missing s p).isSome || (pport s p).lines.any (·.unpick)

/-- No table copy and no map write is under way (R159, R262). -/
def mayCompute (s : State) : Bool := !s.pdp.job.any (·.copying) && s.nhd.writes.isEmpty && s.nhd.load.isNone

end Sys2Proof.Machine
end

