-- ==== Sys2Proof/Machine/Tables.lean ====
section
/-! DEFINITION. PDP's table commands: loads, level maps, selvedge, seams, and how they come into force (R149-R154, R158-R160,
R167-R170, R175). -/

namespace Sys2Proof.Machine

open Sys2Proof

/-! ## Modes and starting (R168, R169) -/

/-- Where the MODE of a table command stands: word and low bit (R167). -/
def tableModeAt (op : Nat) : Nat × Nat :=
  match op with
  | 0x0301 => (4, 0) | 0x0302 => (2, 8) | 0x0303 => (2, 24) | 0x0304 => (2, 8) | 0x0305 => (0, 16) | _ => (0, 24)

def tableMode (op : Nat) (ws : List Word) : Nat :=
  let (w, lo) := tableModeAt op
  bits (ws.getD w 0) (lo + 1) lo

/-- A table command is taken: it copies at once, or waits for the hem of the active panel in MODE HEM (R168). -/
def startTable (s : State) (c : Cmd) (op : Nat) : CmdRes :=
  let m := tableMode op c.words
  let wait := m == 2 && s.pdp.active.isSome
  .started (scheduleCmd { s with pdp := { s.pdp with
    job := some { pair := c.pair, tag := c.tag, op := op, words := c.words, mode := m, copying := !wait } } } c op)

/-- MODE 3 is reserved (R168). -/
def chkMode (c : Cmd) (op : Nat) : Bool × Nat × Nat := chkW (tableMode op c.words == 3) (tableModeAt op).1

/-- One table command at a time (R169). -/
def chkBusy (s : State) : Bool × Nat × Nat := (s.pdp.job.isSome, stBusy, 0)

/-- The checks of a DRAM source in the first two parameter words: alignment, then range (R167, R509, R612). -/
def sourceChecks (s : State) (c : Cmd) (align len : Nat) : List (Bool × Nat × Nat) :=
  let a := addr64 (pw c 0) (pw c 1)
  [chkP (a % align != 0) dAlign, chkW (!inSpace s 1 a len) 0]

/-- After the parameter words: one command at a time, and a frozen controller ends a load with HW_FAULT (R169). -/
def loadChecks (s : State) : List (Bool × Nat × Nat) := [chkBusy s, (s.drc.frozen, stHwFault, 0)]

/-- PDP.LOAD_CURVES (R149, R167). -/
def pdpLoadCurves (c : Cmd) (s : State) : CmdRes :=
  let first := (pw c 2).toNat
  let n := (pw c 3).toNat
  firstFail s (sourceChecks s c 2 (18 * n) ++ [chkW (first > 196607) 2, chkW (n < 1 || first + n > 196608) 3, chkMode c 0x0301] ++ loadChecks s)
    (startTable s c 0x0301)

def pdpLoadCurvesSpec : CmdSpec := fixedSpec 0x0301 [all32, all32, all32, all32, 0x3] (async := true)

def execPdpLoadCurves (c : Cmd) (s : State) : Host.Outcome State Fault Refusal :=
  .next (runCmd s pdpLoadCurvesSpec c (pdpLoadCurves c))

/-- PDP.LOAD_GLOBAL_CURVE (R149, R167). -/
def pdpLoadGlobalCurve (c : Cmd) (s : State) : CmdRes :=
  firstFail s (sourceChecks s c 64 512 ++ chkMode c 0x0302 :: loadChecks s) (startTable s c 0x0302)

def pdpLoadGlobalCurveSpec : CmdSpec := fixedSpec 0x0302 [all32, all32, 0x307] (async := true)

def execPdpLoadGlobalCurve (c : Cmd) (s : State) : Host.Outcome State Fault Refusal :=
  .next (runCmd s pdpLoadGlobalCurveSpec c (pdpLoadGlobalCurve c))

/-- PDP.LOAD_SCREEN (R152, R158, R167). -/
def pdpLoadScreen (c : Cmd) (s : State) : CmdRes :=
  let w := bits (pw c 2) 15 8 + 1
  let h := bits (pw c 2) 23 16 + 1
  firstFail s (sourceChecks s c 64 (15 * w * h) ++ chkMode c 0x0303 :: loadChecks s) (startTable s c 0x0303)

def pdpLoadScreenSpec : CmdSpec := fixedSpec 0x0303 [all32, all32, 0x3FFFF07, 0xFFFF] (async := true)

def execPdpLoadScreen (c : Cmd) (s : State) : Host.Outcome State Fault Refusal :=
  .next (runCmd s pdpLoadScreenSpec c (pdpLoadScreen c))

/-- PDP.LOAD_SEAM_MASK (R145, R167). -/
def pdpLoadSeamMask (c : Cmd) (s : State) : CmdRes :=
  firstFail s (sourceChecks s c 64 4096 ++ chkMode c 0x0304 :: loadChecks s) (startTable s c 0x0304)

def pdpLoadSeamMaskSpec : CmdSpec := fixedSpec 0x0304 [all32, all32, 0x303] (async := true)

def execPdpLoadSeamMask (c : Cmd) (s : State) : Host.Outcome State Fault Refusal :=
  .next (runCmd s pdpLoadSeamMaskSpec c (pdpLoadSeamMask c))

/-- The level map of words 1 and 2. -/
def levelsOf (ws : List Word) : BitVec 64 := BitVec.ofNat 64 ((ws.getD 1 0).toNat + 2 ^ 32 * (ws.getD 2 0).toNat)

/-- PDP.SET_LEVEL_MAP (R154, R167, R170). -/
def pdpSetLevelMap (c : Cmd) (s : State) : CmdRes :=
  let p := portWord c
  let m := levelsOf c.words
  firstFail s [chkS (!(hport s p).identified) dPdpNoHead, chkMode c 0x0305, chkP (levelCode m 0 != 0) dLevel0Nonzero,
    chkP (!levelMapOk m (codeWidth s p)) dLevelCodeWide, chkBusy s] (startTable s c 0x0305)

def pdpSetLevelMapSpec : CmdSpec := fixedSpec 0x0305 [0x3070F, all32, all32] (async := true)

def execPdpSetLevelMap (c : Cmd) (s : State) : Host.Outcome State Fault Refusal :=
  .next (runCmd s pdpSetLevelMapSpec c (pdpSetLevelMap c))

/-- MODE HEM of a setting that belongs to a panel names the queued one (R168). -/
def hemPassed (s : State) (op : Nat) (ws : List Word) (num : BitVec 16) : Bool :=
  tableMode op ws == 2 && s.pdp.active.map (·.num) == some num

/-- PDP.SET_SELVEDGE (R134, R151, R167, R170). -/
def pdpSetSelvedge (c : Cmd) (s : State) : CmdRes :=
  let num := numOf (w32 (bits (pw c 0) 15 0))
  match panelNamed s num with
  | none => .badState s dNotOpen
  | some pan =>
    let left := (pw c 1).toNat
    let right := (pw c 2).toNat
    firstFail s [chkW (bits (pw c 0) 18 16 ≥ pan.nplanes) 0, chkMode c 0x0306, chkS (hemPassed s 0x0306 c.words num) dHemPassed,
      chkW (left ≥ right) 1, chkW (right > pan.width) 2, chkW (bits (pw c 3) 4 0 > 16) 3, chkBusy s] (startTable s c 0x0306)

def pdpSetSelvedgeSpec : CmdSpec := fixedSpec 0x0306 [0x307FFFF, all32, all32, 0x1F, all32, all32, all32, all32] (async := true)

def execPdpSetSelvedge (c : Cmd) (s : State) : Host.Outcome State Fault Refusal :=
  .next (runCmd s pdpSetSelvedgeSpec c (pdpSetSelvedge c))

/-- PDP.SET_SEAM (R144, R167, R170). -/
def pdpSetSeam (c : Cmd) (s : State) : CmdRes :=
  let num := numOf (w32 (bits (pw c 0) 15 0))
  match panelNamed s num with
  | none => .badState s dNotOpen
  | some pan =>
    let w := bits (pw c 2) 10 0
    firstFail s [chkP (bits (pw c 0) 21 16 ≥ pan.seams.length) dSeamBad, chkMode c 0x0307, chkS (hemPassed s 0x0307 c.words num) dHemPassed,
      chkW (w < 8 || w > 1024) 2, chkBusy s] (startTable s c 0x0307)

def pdpSetSeamSpec : CmdSpec := fixedSpec 0x0307 [0x33FFFFF, all32, 0x307FF] (async := true)

def execPdpSetSeam (c : Cmd) (s : State) : Host.Outcome State Fault Refusal :=
  .next (runCmd s pdpSetSeamSpec c (pdpSetSeam c))

/-! ## Coming into force (R158, R159, R168, R175) -/

/-- Ports of the open panels with a row-lane mapped to a plane. -/
def planePorts (s : State) (pl : Nat) : List (Fin 16) :=
  (indices 16).filter fun p => (panels s).any fun pan => pan.map.any fun m => m.plane = pl && portOf m.rowlane == p

/-- Ports of the seams of the open panels that a test picks. -/
def seamPorts (s : State) (t : Seam → Bool) : List (Fin 16) :=
  (indices 16).filter fun p => (panels s).any fun pan => pan.seams.any fun e => t e && (e.left == p || e.right == p)

/-- An element of a list replaced. -/
def listSet {α : Type} (xs : List α) (i : Nat) (f : α → α) : List α :=
  xs.zipIdx.map fun p => if p.2 = i then f p.1 else p.1

/-- A table command's values put in place, its change kind, and the ports it affects (R158, R175, R190). -/
def applyTable (s : State) (j : TableJob) : State × Nat × List (Fin 16) :=
  let w (i : Nat) : Word := j.words.getD i 0
  let src := memRead s.dram (addr64 (w 0) (w 1)) (tableBytes j)
  let pl : Fin 8 := ⟨bits (w 2) 2 0, Nat.mod_lt _ (by decide)⟩
  let num := numOf (w32 (bits (w 0) 15 0))
  match j.op with
  | 0x0301 =>
    let first := (w 2).toNat
    let last := first + (w 3).toNat - 1
    (sramWrite s (18 * first) src, 1, (indices 16).filter fun p => first / 12288 ≤ p.val && p.val ≤ last / 12288)
  | 0x0302 => ({ s with pdp := { s.pdp with gcurve := vset s.pdp.gcurve pl src } }, 2, planePorts s pl.val)
  | 0x0303 =>
    let cw := bits (w 2) 15 8 + 1
    let ch := bits (w 2) 23 16 + 1
    let s := (List.range ch).foldl (fun s r =>
      sramWrite s (0x360000 + pl.val * 983040 + r * 256 * 15) ((src.drop (15 * cw * r)).take (15 * cw))) s
    let cfg : ScreenCfg := { w := cw, h := ch, sx := bits (w 3) 7 0, sy := bits (w 3) 15 8 }
    ({ s with pdp := { s.pdp with screen := vset s.pdp.screen pl cfg } }, 3, planePorts s pl.val)
  | 0x0304 =>
    let slot : Fin 4 := ⟨bits (w 2) 1 0, Nat.mod_lt _ (by decide)⟩
    ({ s with pdp := { s.pdp with seamMask := vset s.pdp.seamMask slot src } }, 4, seamPorts s fun e => e.slot == slot)
  | 0x0305 =>
    let p : Fin 16 := ⟨bits (w 0) 3 0, Nat.mod_lt _ (by decide)⟩
    let q : Fin 8 := ⟨bits (w 0) 10 8, Nat.mod_lt _ (by decide)⟩
    ({ s with pdp := { s.pdp with levelMap := vmod s.pdp.levelMap p fun m => vset m q (levelsOf j.words) } }, 5, [p])
  | 0x0306 =>
    let k := bits (w 0) 18 16
    let s' := modPanel s num fun pan => { pan with planes := listSet pan.planes k fun x => { x with
      left := (w 1).toNat, right := (w 2).toNat, taperLen := bits (w 3) 4 0, taper := wordBytes [w 4, w 5, w 6, w 7] } }
    (s', 6, (indices 16).filter fun p => (panelNamed s num).any fun pan => pan.map.any fun m => m.plane = k && portOf m.rowlane == p)
  | _ =>
    let k := bits (w 0) 21 16
    let s' := modPanel s num fun pan => { pan with seams := listSet pan.seams k fun e => { e with
      start := (w 1).toNat, w := bits (w 2) 10 0, slot := ⟨bits (w 2) 17 16, Nat.mod_lt _ (by decide)⟩ } }
    (s', 7, (indices 16).filter fun p => (panelNamed s num).any fun pan => (pan.seams[k]?).any fun e => e.left == p || e.right == p)

/-- TABLE_COPY_DONE: the copy at 16 GB/s ends, the table is in force, the affected lines are recomputed, the command replies (R159,
R168, R176). -/
def tableCopyDone (s : State) : State :=
  match s.pdp.job with
  | none => s
  | some j =>
    if !j.copying then s
    else if tableBytes j > 0 && !dramReady s then (if accessHeld s 1 then hold s .table else s)
    else
      let s := advance s (ceilDiv (tableBytes j) 40)
      let (s, kind, ports) := applyTable s j
      let inv := s.pdp.invalid.filter fun t => some t != tableOf j
      let s := { s with pdp := { s.pdp with job := none, invalid := inv } }
      finishLive (pdpChange s kind (j.mode != 1) ports) j.dead j.pair j.tag stOk 0

def execTableCopyDone (s : State) : Host.Outcome State Fault Refusal := .next (tableCopyDone s)

/-- An invalid table that a panel uses: curves, global curves and screens of its mapped contone planes, masks of its seams (R169). -/
def usesInvalid (s : State) (pan : Panel) : Bool :=
  let contone (pl : Nat) : Bool := (pan.planes.getD pl {}).format = 0 && pan.map.any (·.plane = pl)
  s.pdp.invalid.any fun t => match t with
    | .curves => (List.range pan.nplanes).any contone
    | .global pl => contone pl
    | .screen pl => contone pl
    | .seamMask k => pan.seams.any fun e => e.slot.val = k

end Sys2Proof.Machine
end

