-- ==== Sys2Proof/Machine/Bands.lean ====
section
/-! DEFINITION. Bands of a panel: what is fetched, staged, decoded and kept, for new lines and for recomputation (R135-R140, R148, R158, R178,
R198-R202, R613). -/

namespace Sys2Proof.Machine

open Sys2Proof

/-! ## Entries, headers, bitmaps (R135, R136, R198) -/

def panelSel (s : State) (queued : Bool) : Option Panel := if queued then s.pdp.queued else s.pdp.active

/-- The table entry of a band and plane, 64 bytes. -/
def bandEntry (s : State) (pan : Panel) (band pl : Nat) : List Byte := memRead s.dram (pan.bandTable + (band * pan.nplanes + pl) * 64) 64

/-- The band header is rejected (R198). -/
def bandHeaderBad (pan : Panel) (e : List Byte) (band pl : Nat) : Bool :=
  let w := wordAt e 0x20
  let f := (pan.planes.getD pl {}).format
  bits w 15 0 != 0x0100 || bits w 17 16 != widthCode f || bits w 19 18 != bits (wordAt e 0x14) 1 0 || bits w 23 21 != pl ||
    (wordAt e 0x24).toNat != band || (bit w 20 && (band == 0 || bits w 19 18 == 0)) || bits w 31 24 != 0 || wordAt e 0x28 != 0 ||
    wordAt e 0x2C != 0

/-- Bit `i` of an overflow bitmap, and the bits set below `i` (R136). -/
def mapBit (m : List Byte) (i : Nat) : Bool := (m.getD (i / 8) 0).toNat / 2 ^ (i % 8) % 2 == 1
def mapRank (m : List Byte) (i : Nat) : Nat := (List.range i).countP (mapBit m)

/-- Where a block's bytes lie, how many, and whether they are coded (R136). -/
def blockPlace (pd : Plane) (b : BandStore) (i : Nat) : Nat × Nat × Bool :=
  let raw := rawOf pd.format
  if mapBit b.bitmap i then (pd.ovf + (b.ovfFirst + mapRank b.bitmap i) * raw, raw, false)
  else (b.slot + i * (raw / 2 ^ b.slotKind), raw / 2 ^ b.slotKind, b.slotKind != 0)

/-! ## Faults (R137, R138, R185, R613) -/

/-- A fault of a band: its event and its count, once for the band and plane. -/
def bandFault (s : State) (pan : Panel) (band pl ev code count : Nat) (d1 : Word) : State :=
  match panelNamed s pan.num with
  | none => s
  | some x =>
    if x.bandsSeen.contains (band, pl) then s
    else
      let s := modPanel s pan.num fun x => { x with decodeErrors := x.decodeErrors + count, bandsSeen := (band, pl) :: x.bandsSeen }
      raise s ev pan.num.toNat code (w32 band) d1

/-- A block becomes zero ink: EV_PDP_DECODE_ERROR and its count, once for the block. -/
def blockFault (s : State) (num : BitVec 16) (band pl i code : Nat) : State :=
  match panelNamed s num with
  | none => s
  | some x =>
    if x.blocksSeen.contains (band, pl, i) then s
    else
      let s := modPanel s num fun x => { x with decodeErrors := x.decodeErrors + 1, blocksSeen := (band, pl, i) :: x.blocksSeen }
      raise s 19 num.toNat code (w32 band) (pack [(i, 0), (pl, 16)])

/-! ## Cursors (R140, R173, R175) -/

/-- The lowest S[p] of the ports that take part and are up, or else the lowest F[p] (R173). -/
def paceOf (s : State) (pan : Panel) : Nat :=
  let up := (partPorts pan).filter (portUp s)
  if up.isEmpty then minList ((partPorts pan).map fun p => (pport s p).f) else minList (up.map fun p => (pport s p).s)

/-- C passes lines that have ended on every port that takes part (R140, R175). -/
def settleC (s : State) : Nat → Nat → Nat
  | 0, c => c
  | fuel + 1, c =>
    match panelAt s c with
    | none => c
    | some pan =>
      let n := minList ((partPorts pan).map fun p => nextOn s p (pport s p).ended 6 (max c (pport s p).f))
      if n ≤ c then c else settleC s fuel n

/-- C as it stands now. -/
def nowC (s : State) : Nat := settleC s 4 s.pdp.c

/-! ## The port being recomputed (R177, R178) -/

/-- The port that recomputation has come to: the lowest with lines queued for unpick or discarded (R177, R178). -/
def workPort (s : State) : Option (Fin 16) :=
  (indices 16).find? fun p => (missing s p).isSome || (pport s p).lines.any (·.unpick)

/-- The line it works on there: the lowest one queued for unpick, or else the lowest discarded. -/
def workLine (s : State) : Option (Fin 16 × Nat) :=
  (workPort s).bind fun p =>
    match (pport s p).lines.find? (·.unpick) with
    | some l => some (p, l.abs)
    | none => (missing s p).map fun a => (p, a)

/-- The blocks of a plane that hold the dots of a port and those within 3 of them (R150, R178) [A 96]. -/
def segBlocks (pan : Panel) (p : Fin 16) (pl : Nat) : List Nat :=
  (List.range (nblk pan.width)).filter fun i => pan.map.any fun m =>
    let a := dotOf m m.first
    let b := dotOf m (m.first + m.count - 1)
    portOf m.rowlane == p && m.plane == pl && min a b - 3 ≤ 256 * i + 255 && 256 * i ≤ max a b + 3

/-- Every block of a band is in place, on every plane. -/
def bandReady (s : State) (pan : Panel) (band : Nat) : Bool :=
  (List.range pan.nplanes).all fun pl => (List.range (nblk pan.width)).all fun i => (blockOf s pan band pl i).isSome

/-- The blocks of a port's segment are. -/
def segReady (s : State) (pan : Panel) (band : Nat) (p : Fin 16) : Bool :=
  (List.range pan.nplanes).all fun pl => (segBlocks pan p pl).all fun i => (blockOf s pan band pl i).isSome

/-! ## Which bands are wanted (R148, R178) -/

/-- Nothing of the band is left to read or to decode. -/
def bandDone (b : BandStore) : Bool := b.want.isEmpty && b.coded.isEmpty

/-- The entries of the look-around store with what waits in staging for it, or those for recomputation. -/
def bandsOf (s : State) (recompute : Bool) : List BandStore := if recompute then s.pdp.staging else s.pdp.store
def setBands (s : State) (recompute : Bool) (bs : List BandStore) : State :=
  if recompute then { s with pdp := { s.pdp with staging := bs } } else { s with pdp := { s.pdp with store := bs } }
def modBand (s : State) (recompute : Bool) (b : BandStore) (f : BandStore → BandStore) : State :=
  setBands s recompute ((bandsOf s recompute).map fun x => if x.panel = b.panel ∧ x.band = b.band ∧ x.plane = b.plane then f x else x)

/-- Lines of the band are still to be computed, or its segment is needed for the line being recomputed. -/
def bandUsed (s : State) (recompute : Bool) (pan : Panel) (band : Nat) : Bool :=
  if recompute then (workLine s).any fun w => (panelAt s w.2).any fun x => x.num == pan.num && (w.2 - pan.base) / 8 == band
  else nowC s < min (panelEnd pan) (pan.base + 8 * band + 8)

/-- The band is used, or is the reference of a band that is wanted and not decoded (R200, R202). -/
def bandWanted (s : State) (recompute : Bool) (pan : Panel) (pl : Nat) : Nat → Nat → Bool
  | 0, _ => false
  | fuel + 1, band => bandUsed s recompute pan band ||
      ((bandsOf s recompute).any fun n => bandIs pan (band + 1) pl n && n.xref && !bandDone n) && bandWanted s recompute pan pl fuel (band + 1)

def wantedIn (s : State) (recompute : Bool) (b : BandStore) : Bool :=
  (panelNamed s b.panel).any fun pan => bandWanted s recompute pan b.plane ((bandsOf s recompute).length + 1) b.band

/-- Entries that are wanted no longer make room. -/
def dropBands (s : State) (recompute : Bool) : State := setBands s recompute ((bandsOf s recompute).filter (wantedIn s recompute))

/-- The blocks of a band to be read: all, or the segment of the port being recomputed as far as it is not in place. -/
def bandBlocks (s : State) (recompute : Bool) (pan : Panel) (band pl : Nat) : List Nat :=
  if recompute then match workPort s with
    | some p => (segBlocks pan p pl).filter fun i => (blockOf s pan band pl i).isNone
    | none => []
  else List.range (nblk pan.width)

/-- A band may be fetched: ready, entering the compute window or needed for recomputation, or the reference of such a band, and not fetched yet
(R139, R148, R178, R200). -/
def fetchable (s : State) (pan : Panel) (recompute : Bool) (band pl : Nat) : Bool :=
  let here := (bandsOf s recompute).find? (bandIs pan band pl)
  pl < pan.nplanes && band < pan.ready && band < nbands pan.lines && dramReady s &&
    bandWanted s recompute pan pl ((bandsOf s recompute).length + 1) band &&
    (if recompute then here.all bandDone && !(bandBlocks s true pan band pl).isEmpty
     else here.isNone && pan.base + 8 * band < paceOf s pan + 64)

/-! ## Staging (R148, R158, R613) -/

/-- Bytes that wait in EBC decode staging for the look-around store. -/
def stagedBytes (s : State) : Nat := (s.pdp.store.map fun b => (b.coded.map (·.2.length)).sum).sum

/-- One block of a band is read from DRAM: a flagged block of inconsistent entries and one out of range are zero ink (R137, R613). -/
def stageBlock (s : State) (recompute : Bool) (pan : Panel) (b : BandStore) (i : Nat) : State :=
  let (a, len, _) := blockPlace (pan.planes.getD b.plane {}) b i
  let zero (x : BandStore) : BandStore := { x with want := x.want.filter (· != i), blocks := x.blocks ++ [(i, none)] }
  if b.inconsistent && mapBit b.bitmap i then modBand s recompute b zero
  else if !inSpace s 1 a len then blockFault (modBand s recompute b zero) b.panel b.band b.plane i 0x35
  else modBand s recompute b fun x => { x with want := x.want.filter (· != i), coded := x.coded ++ [(i, memRead s.dram a len)] }

/-- The reference of a block is in place, or it has none (R200, R202). -/
def refReady (s : State) (pan : Panel) (b : BandStore) (i : Nat) : Bool := !b.xref || (blockOf s pan (b.band - 1) b.plane i).isSome

/-- The first line of a band, in the order in which bands are staged and decoded. -/
def bandFirst (s : State) (b : BandStore) : Nat := ((panelNamed s b.panel).map (·.base)).getD 0 + 8 * b.band

/-- Blocks are read into staging in rising order of lines while there is room: 832 KiB for new lines, and always one block of a band that has
none there; the rest of the 1024 KiB is left to recomputation (R158, R178) [A 96]. -/
def fillStaging (s : State) (recompute : Bool) : State :=
  if !dramReady s then s
  else ((bandsOf s recompute).mergeSort fun a b => bandFirst s a ≤ bandFirst s b).foldl (fun s b => b.want.foldl (fun s i =>
    match panelNamed s b.panel, (bandsOf s recompute).find? fun x => x.panel = b.panel ∧ x.band = b.band ∧ x.plane = b.plane with
    | some pan, some x =>
      let len := (blockPlace (pan.planes.getD x.plane {}) x i).2.1
      if refReady s pan x i && (recompute || x.coded.isEmpty || stagedBytes s + len ≤ 851968) then stageBlock s recompute pan x i else s
    | _, _ => s) s) s

/-- BAND_FETCH: header and bitmap are checked; faults make the band, or its flagged blocks, zero ink (R137, R138, R148, R178, R198, R613). -/
def bandFetch (queued recompute : Bool) (band : Nat) (pl : Fin 8) (s : State) : State :=
  match panelSel s queued with
  | none => s
  | some pan =>
    if !fetchable s pan recompute band pl.val then s
    else
      let e := bandEntry s pan band pl.val
      let pd := pan.planes.getD pl.val {}
      let n := nblk pan.width
      let mapA := addrAt e 8
      let mapLen := 8 * ceilDiv n 64
      let count := bits (wordAt e 0x14) 31 16
      let first := (wordAt e 0x10).toNat
      let beyond := first + count > pd.ovfBlocks
      let kept := ((bandsOf s recompute).find? (bandIs pan band pl.val)).map (·.blocks)
      let b : BandStore := { panel := pan.num, band := band, plane := pl.val, slot := addrAt e 0, slotKind := bits (wordAt e 0x14) 1 0
                             ovfFirst := first, xref := bit (wordAt e 0x20) 20, want := bandBlocks s recompute pan band pl.val
                             blocks := kept.getD [] }
      let (b, s) :=
        if bandHeaderBad pan e band pl.val then
          ({ b with zero := true, xref := false, want := [] },
            bandFault s pan band pl.val 19 0x34 n (pack [(0xFFFF, 0), (pl.val, 16)]))
        else if mapA = 0 then
          if count = 0 && !beyond then (b, s) else ({ b with inconsistent := true }, bandFault s pan band pl.val 20 0 0 (w32 pl.val))
        else if !inSpace s 1 mapA mapLen then
          ({ b with zero := true, xref := false, want := [] }, bandFault s pan band pl.val 20 1 n (w32 pl.val))
        else
          let m := memRead s.dram mapA mapLen
          let set := mapRank m n
          if set != count || beyond then
            ({ b with bitmap := m, inconsistent := true }, bandFault s pan band pl.val 20 0 set (w32 pl.val))
          else ({ b with bitmap := m }, s)
      let s := dropBands s recompute
      fillStaging (setBands s recompute (((bandsOf s recompute).filter fun x => !bandIs pan band pl.val x) ++ [b])) recompute

def execBandFetch (queued recompute : Bool) (band : Nat) (plane : Fin 8) (s : State) : Host.Outcome State Fault Refusal :=
  .next (bandFetch queued recompute band plane s)

/-! ## Decoding (R138, R148, R202, R210) -/

/-- The bands whose lines lie in the compute window, in their order. -/
def windowBands (s : State) : List (Panel × Nat) :=
  let c := nowC s
  (panels s).flatMap fun pan => ((List.range 10).map fun k => (c - pan.base) / 8 + k).filterMap fun b =>
    if b < nbands pan.lines && c < min (panelEnd pan) (pan.base + 8 * b + 8) && pan.base + 8 * b < paceOf s pan + 64 then some (pan, b) else none

/-- The look-around store has room for a band of a plane: it holds the band being consumed and the band being decoded, which is the first of
the window not yet decoded, or a reference it needs (R148). -/
def storeRoom (s : State) (pan : Panel) (band pl : Nat) : Bool :=
  let before := (windowBands s).takeWhile fun w => !(w.1.num == pan.num && w.2 == band)
  let others := s.pdp.store.countP fun b => b.plane == pl && !bandIs pan band pl b && !b.blocks.isEmpty && wantedIn s false b
  others < 2 && (!bandUsed s false pan band || before.all fun w => pl ≥ w.1.nplanes || s.pdp.store.any fun b => bandIs w.1 w.2 pl b && bandDone b)

/-- DECODE_BLOCK: a decoder takes a staged block, or a raw block is copied without decoding; a failing block is zero ink (R138, R148, R202,
R210). -/
def decodeBlock (e : Fin 2) (queued recompute : Bool) (band : Nat) (pl : Fin 8) (i : Nat) (s : State) : State :=
  match panelSel s queued with
  | none => s
  | some pan =>
    match (bandsOf s recompute).find? (bandIs pan band pl.val) with
    | none => s
    | some b =>
      match b.coded.find? (·.1 = i) with
      | none => s
      | some (_, src) =>
        if !refReady s pan b i || !(recompute || storeRoom s pan band pl.val) then s
        else
          let pd := pan.planes.getD pl.val {}
          let eng : Fin 4 := ⟨e.val, by omega⟩
          let ref := if b.xref then (blockOf s pan (band - 1) pl.val i).map fun r => r.getD (List.replicate (rawOf pd.format) 0) else none
          let fail (s : State) (code : Nat) : State := blockFault s pan.num band pl.val i code
          let (out, s) : Option (List Byte) × State :=
            if !(blockPlace pd b i).2.2 then (some src, s)
            else match ebcDecode (widthCode pd.format) src ref with
              | .ok raw => (some raw, engBlock s eng)
              | .short => (none, fail (engShort (engBlock s eng) eng) 0x33)
              | .overrun => (none, fail (engOverrun (engBlock s eng) eng) 0x32)
          let s := modBand s recompute b fun x => { x with coded := x.coded.filter (·.1 != i), blocks := x.blocks ++ [(i, out)] }
          fillStaging (dropBands s recompute) recompute

def execDecodeBlock (e : Fin 2) (queued recompute : Bool) (band : Nat) (plane : Fin 8) (block : Nat) (s : State) :
    Host.Outcome State Fault Refusal := .next (decodeBlock e queued recompute band plane block s)

end Sys2Proof.Machine
end

