-- ==== Sys2Proof/Machine/CamPix.lean ====
section
/-! DEFINITION. The camera pipeline's stages on the pixels of a frame: mosaic, black level, defects, flat field, reconstruction, colour
matrix, tone, the outputs' samples (R383-R393, R398, R399). -/

namespace Sys2Proof.Machine

open Sys2Proof

/-- R, G, B and X, or Y, Cb, Cr and 0. -/
abbrev Quad := Nat × Nat × Nat × Nat

/-- The channels of a quadruple by number: 0 R, 1 G, 2 B, 3 X. -/
def quadAt (q : Quad) : Nat → Nat
  | 0 => q.1 | 1 => q.2.1 | 2 => q.2.2.1 | _ => q.2.2.2

/-- Rounded mean of a non-empty list: (sum + n/2) / n. -/
def roundMean (xs : List Nat) : Nat := (xs.sum + xs.length / 2) / xs.length

/-- A 16-bit value reduced to 8 bits (R398). -/
def to8 (v : Nat) : Nat := min 255 ((v + 128) / 256)

/-! ## Mosaic (R385) -/

/-- Entry (y mod 4, x mod 4) of PATTERN: 0 R, 1 G, 2 B, 3 IR, 4 W. -/
def patAt (pat : BitVec 64) (x y : Nat) : Nat := pat.toNat / 2 ^ (16 * (y % 4) + 4 * (x % 4)) % 16
def patHas (pat : BitVec 64) (c : Nat) : Bool := (List.range 16).any fun i => pat.toNat / 2 ^ (4 * i) % 16 == c
/-- No reserved code, and not both IR and W. -/
def patOk (pat : BitVec 64) : Bool :=
  ((List.range 16).all fun i => pat.toNat / 2 ^ (4 * i) % 16 ≤ 4) && !(patHas pat 3 && patHas pat 4)
/-- The code that channel X stands for. -/
def patX (pat : BitVec 64) : Nat := if patHas pat 3 then 3 else 4

/-- The presets of R385; preset 0 is the user's pattern, 8 to 15 name none. -/
def patPreset (n : Nat) (user : BitVec 64) : Option (BitVec 64) :=
  match n with
  | 0 => some user
  | 1 => some 0x4444444444444444
  | 2 => some 0x2121101021211010
  | 3 => some 0x1212010112120101
  | 4 => some 0x1010212110102121
  | 5 => some 0x0101121201011212
  | 6 => some 0x3131101231311210
  | 7 => some 0x4142142440410414
  | _ => none

/-! ## Lines and windows (R387, R389) -/

def lineAt (ls : List CamLine) (y : Nat) : Option CamLine := ls.find? (·.y == y)
/-- The places of the square window of half-width `r` around a pixel, itself left out, none left of or above the frame. -/
def window (r x y : Nat) : List (Nat × Nat) :=
  (List.range (2 * r + 1)).flatMap fun j => (List.range (2 * r + 1)).filterMap fun i =>
    if (i = r ∧ j = r) ∨ x + i < r ∨ y + j < r then none else some (x + i - r, y + j - r)

/-- Black level of a raw sample (R386). -/
def blackLevel (prm : CamPrm) (x y v : Nat) : Nat := v - prm.bl.toList.getD (patAt prm.pattern x y) 0
def blackAt (ls : List CamLine) (x y : Nat) : Option Nat := (lineAt ls y).bind (·.black[x]?)

/-- The peers of a pixel (R387); lines never received have none. -/
def peers (ls : List CamLine) (prm : CamPrm) (x y : Nat) : List Nat :=
  ((window 2 x y).filter fun q => patAt prm.pattern q.1 q.2 == patAt prm.pattern x y && !prm.defects.contains q).filterMap
    fun q => blackAt ls q.1 q.2

/-- The pixel is defective (R387). -/
def defective (prm : CamPrm) (ps : List Nat) (x y v : Nat) : Bool :=
  prm.defects.contains (x, y) || (!ps.isEmpty &&
    ((prm.dpcHi != 0 && decide (v > ps.foldl max 0 + prm.dpcHi)) || (prm.dpcLo != 0 && decide (v + prm.dpcLo < ps.foldl min 65535))))

/-- Defect replacement (R387). -/
def dpcValue (ls : List CamLine) (prm : CamPrm) (x y v : Nat) : Nat :=
  let ps := peers ls prm x y
  if defective prm ps x y v && !ps.isEmpty then roundMean ps else v

/-- Flat-field gain, unsigned Q4.12 (R388). -/
def applyGain (v g : Nat) : Nat := min 65535 ((v * g + 2048) / 4096)
/-- The interpolated gain of R388 from the four entries around a pixel. -/
def gainAt (g00 g10 g01 g11 fx fy cs : Nat) : Nat :=
  let s := 2 ^ cs
  (g00 * (s - fx) * (s - fy) + g10 * fx * (s - fy) + g01 * (s - fx) * fy + g11 * fx * fy + s * s / 2) / 2 ^ (2 * cs)

/-- The mosaic value of a pixel after stages 2 to 4; none outside the frame. -/
def mosaicAt (ls : List CamLine) (x y : Nat) : Option Nat :=
  match lineAt ls y with
  | none => none
  | some l => (l.black[x]?).map fun v => applyGain (dpcValue ls l.prm x y v) (l.gains.getD x 4096)

/-! ## Reconstruction and IR subtraction (R389, R390) -/

/-- The pixels of a code in a window of half-width `r`. -/
def codeNear (ls : List CamLine) (pat : BitVec 64) (r c x y : Nat) : List Nat :=
  ((window r x y).filter fun q => patAt pat q.1 q.2 == c).filterMap fun q => mosaicAt ls q.1 q.2

/-- The value of a channel code at a pixel. -/
def channelAt (ls : List CamLine) (pat : BitVec 64) (c x y : Nat) : Nat :=
  if patAt pat x y = c then (mosaicAt ls x y).getD 0
  else if !patHas pat c then 0
  else
    let near := codeNear ls pat 1 c x y
    if !near.isEmpty then roundMean near
    else
      let far := codeNear ls pat 2 c x y
      if far.isEmpty then 0 else roundMean far

/-- Reconstruction: R, G, B, X; a pattern of X only gives X to all. -/
def reconAt (ls : List CamLine) (pat : BitVec 64) (x y : Nat) : Quad :=
  let w := channelAt ls pat (patX pat) x y
  if !patHas pat 0 && !patHas pat 1 && !patHas pat 2 then (w, w, w, w)
  else (channelAt ls pat 0 x y, channelAt ls pat 1 x y, channelAt ls pat 2 x y, w)

/-- Each colour loses a share of IR (R390). -/
def irSubtract (prm : CamPrm) (q : Quad) : Quad :=
  let w := q.2.2.2
  let less (v k : Nat) : Nat := v - (w * k + 512) / 1024
  if patHas prm.pattern 3 then (less q.1 prm.kr, less q.2.1 prm.kg, less q.2.2.1 prm.kb, w) else q

/-! ## Colour matrix and tone curve (R391, R392) -/

/-- A value held within 0 to 65,535. -/
def clamp16 (v : Int) : Nat := (max 0 (min 65535 v)).toNat

/-- Row `c` of the colour matrix. -/
def matrixRow (prm : CamPrm) (c : Nat) (q : Quad) : Nat :=
  let m (j : Nat) : Int := prm.m.toList.getD (4 * c + j) 0
  clamp16 ((m 0 * q.1 + m 1 * q.2.1 + m 2 * q.2.2.1 + m 3 * q.2.2.2 + 2048) / 4096 + prm.off.toList.getD c 0)

def matrixOut (prm : CamPrm) (q : Quad) : Quad := (matrixRow prm 0 q, matrixRow prm 1 q, matrixRow prm 2 q, q.2.2.2)

/-- A knot of a channel's curve; the identity when none is loaded. -/
def knotAt (prm : CamPrm) (ch k : Nat) : Nat := if prm.tone.isEmpty then min 65535 (1024 * k) else prm.tone.getD (65 * ch + k) 0

def toneOne (prm : CamPrm) (ch v : Nat) : Nat :=
  let a : Int := knotAt prm ch (v / 1024)
  let b : Int := knotAt prm ch (v / 1024 + 1)
  clamp16 (a + ((b - a) * (v % 1024 : Nat) + 512) / 1024)

def toneOut (prm : CamPrm) (q : Quad) : Quad := (toneOne prm 0 q.1, toneOne prm 1 q.2.1, toneOne prm 2 q.2.2.1, toneOne prm 3 q.2.2.2)

/-! ## A pixel after the stages (R383) -/

/-- What a pixel is at taps 0 to 3 and after the tone curve. -/
structure PixOut where
  unpacked : Nat := 0
  black : Nat := 0
  recon : Quad := (0, 0, 0, 0)
  matrix : Quad := (0, 0, 0, 0)
  tone : Quad := (0, 0, 0, 0)
  deriving DecidableEq, Repr

/-- A pixel of a stream of a kind: 0 raw and P0, 1 RGB888, 2 YUV422. -/
def pixOut (kind : Nat) (ls : List CamLine) (l : CamLine) (x : Nat) : PixOut :=
  let t := l.src.getD x (0, 0, 0)
  let q : Quad := (t.1, t.2.1, t.2.2, 0)
  match kind with
  | 0 =>
    let r := irSubtract l.prm (reconAt ls l.prm.pattern x l.y)
    let m := matrixOut l.prm r
    { unpacked := t.1, black := l.black.getD x 0, recon := r, matrix := m, tone := toneOut l.prm m }
  | 1 =>
    let m := matrixOut l.prm q
    { unpacked := t.1, black := t.1, recon := q, matrix := m, tone := toneOut l.prm m }
  | _ => { unpacked := t.1, black := t.1, recon := q, matrix := q, tone := q }

/-- Unpacking (R384): a raw sample of `n` bits, or the 8-bit components; the Cb and Cr of a YUV422 pixel are those of its pair. -/
def unpackLine (kind n : Nat) (px : List (Nat × Nat × Nat)) : List (Nat × Nat × Nat) :=
  match kind with
  | 0 => px.map fun t => (t.1 % 2 ^ n * 2 ^ (16 - n), 0, 0)
  | 1 => px.map fun t => (t.1 % 256 * 256, t.2.1 % 256 * 256, t.2.2 % 256 * 256)
  | _ => (List.range px.length).map fun i =>
    let c := px.getD (i / 2 * 2) (0, 0, 0)
    ((px.getD i (0, 0, 0)).1 % 256 * 256, c.2.1 % 256 * 256, c.2.2 % 256 * 256)

/-! ## Output samples (R398, R399) -/

/-- VISION's sample of a pixel. -/
def visionSample (src : Nat) (q : Quad) (yuv : Bool) : Nat :=
  if yuv then q.1
  else match src with
    | 0 => (77 * q.1 + 150 * q.2.1 + 29 * q.2.2.1 + 128) / 256
    | k => quadAt q (k - 1)

/-- The rounded mean over box `i` of `w` columns of rows, of one component. -/
def boxMean (rows : List (List (Nat × Nat × Nat))) (w i : Nat) (f : Nat × Nat × Nat → Nat) : Nat :=
  roundMean (rows.flatMap fun r => ((r.drop (w * i)).take w).map f)

/-- Y, Cb and Cr of 8-bit r, g, b (R399). -/
def toYcc (r g b : Nat) : Nat × Nat × Nat :=
  let y : Int := (66 * r + 129 * g + 25 * b + 128 : Nat) / 256 + 16
  let cb : Int := (-38 * r - 74 * g + 112 * b + 128 : Int) / 256 + 128
  let cr : Int := (112 * r - 94 * g - 18 * b + 128 : Int) / 256 + 128
  (y.toNat, cb.toNat, cr.toNat)

/-- PREVIEW's bytes of scaled pixels, Y0 Cb Y1 Cr per pair (R398, R399). -/
def previewPairs : List (Nat × Nat × Nat) → List Byte
  | a :: b :: ps => b8 a.1 :: b8 ((a.2.1 + b.2.1 + 1) / 2) :: b8 b.1 :: b8 ((a.2.2 + b.2.2 + 1) / 2) :: previewPairs ps
  | _ => []

/-- A line's bytes filled with 0 to a multiple of 64 (R398). -/
def padLine (bs : List Byte) : List Byte := bs ++ List.replicate ((64 - bs.length % 64) % 64) 0

def halfWords (vs : List Nat) : List Byte := vs.flatMap fun v => natLe v 2

/-! ## Statistics (R393) -/

/-- The zone of a place: the last zone whose start floor(z * n / 16) is at or below it. -/
def zoneOf (n k : Nat) : Nat := ((List.range 16).filter fun z => z * n / 16 ≤ k).length - 1

/-- Histogram, 4 channels of 256 bins, with a row's values added. -/
def addHist (h : List Nat) (row : List Quad) : List Nat :=
  (List.range 1024).map fun i => (h.getD i 0 + row.countP fun q => quadAt q (i / 256) / 256 == i % 256) % 2 ^ 32

/-- Zone sums, 4 channels of 16 by 16, with row `y` of a frame of w by h added; and the zones' pixel counts. -/
def addZones (zs : List Nat) (row : List Quad) (y w h : Nat) : List Nat :=
  let cells := (List.range row.length).zip row
  (List.range 1024).map fun i =>
    zs.getD i 0 + (if zoneOf h y = i / 16 % 16 then ((cells.filter fun c => zoneOf w c.1 == i % 16).map fun c => quadAt c.2 (i / 256)).sum else 0)
def addZoneN (zn : List Nat) (len y w h : Nat) : List Nat :=
  (List.range 256).map fun i =>
    zn.getD i 0 + (if zoneOf h y = i / 16 then (List.range len).countP fun x => zoneOf w x == i % 16 else 0)

end Sys2Proof.Machine
end

