-- ==== Sys2Proof/Machine/Rings.lean ====
section
/-! DEFINITION. Replies and events on their way into their rings, index write-back and timed interrupts (R37-R39, R63-R67, R117-R123). -/

namespace Sys2Proof.Machine

open Sys2Proof

def modPair (s : State) (p : Fin 4) (f : Pair → Pair) : State := { s with cmd := { s.cmd with pairs := vmod s.cmd.pairs p f } }
def modEvBob (s : State) (k : Fin 4) (f : EvBob → EvBob) : State := { s with evt := { s.evt with bobs := vmod s.evt.bobs k f } }

/-- Bytes written into consecutive entries of a ring from an index on, wrapping from the last entry to the first (R66). -/
def ringWrite (s : State) (r : Bobbin) : Nat → Nat → List Byte → State
  | _, 0, _ => s
  | i, k + 1, bs => ringWrite (spaceWrite s r.space (entryAddr r i) (bs.take 32)) r (i + 1) k (bs.drop 32)

/-- Bytes of consecutive entries of a ring from an index on. -/
def ringRead (s : State) (r : Bobbin) : Nat → Nat → List Byte
  | _, 0 => []
  | i, k + 1 => spaceRead s r.space (entryAddr r i) 32 ++ ringRead s r (i + 1) k

/-- Why an access to `k` entries from an index on fails at once, with the address of the entry that fails (R82). -/
def ringErr (s : State) (r : Bobbin) (i k : Nat) (isRead : Bool) : Option (Nat × Nat) :=
  (List.range k).findSome? fun j =>
    (accessErr s r.space (entryAddr r (i + j)) 32 isRead).map fun e => (e, entryAddr r (i + j))

/-- The part adds `k` entries to a ring it produces: the tail moves, the write-back falls due, each entry is signalled (R55, R63, R64). -/
def ringPush (s : State) (n : Fin 32) (k : Nat) : State :=
  let s := modRing s n fun r => { r with tail := idxAdd r r.tail k, wbDue := true }
  (List.range k).foldl (fun s _ => signalEntry s n) s

/-! ## Replies (R67, R97) -/

/-- The bytes of a reply. -/
def replyBytes (r : Reply) : List Byte :=
  wordBytes ([pack [(r.tag.toNat, 0), (r.op.toNat, 16)], pack [(r.status, 0), (r.detail, 16)],
    pack [(r.results.length, 0), (b2n r.interim, 16)], w32 r.ctDone] ++ r.results)

/-- The oldest staged reply of a pair is written to its reply bobbin when that works and has room; a failed access halts the bobbin
and the reply stays (R67, R80). -/
def postReply (s : State) (p : Fin 4) : State :=
  match (vget s.cmd.pairs p).staged with
  | [] => s
  | r :: rest =>
    let n := replyBob p
    let b := vget s.bob.rings n
    let k := replyEntries r
    if replyHeld s p then s
    else if accessHeld s b.space then hold s (.reply p)
    else match ringErr s b b.tail k false with
      | some (e, a) => haltBob s n e true b.space a true
      | none =>
        let s := ringWrite s b b.tail k (replyBytes r)
        markFull (ringPush (modPair s p fun q => { q with staged := rest, counted := q.counted - 1 }) n k) p

/-- REPLY_POST: the active sequencer posts the oldest staged reply of a pair (R67, R477). -/
def execReplyPost (p : Fin 4) (s : State) : Host.Outcome State Fault Refusal := .next (if fwRuns s then postReply s p else s)

/-- INDEX_WRITE_BACK: a changed index is written to its write-back address (R63). -/
def execIndexWriteBack (n : Fin 32) (s : State) : Host.Outcome State Fault Refusal := .next (flushWb s n)

/-- MOD_TIME_EXPIRY: MOD_TIME microseconds after the oldest pending entry completed, one message is sent (R64). -/
def execModTimeExpiry (n : Fin 32) (s : State) : Host.Outcome State Fault Refusal :=
  let r := vget s.bob.rings n
  .next (if r.irqEn && r.pend > 0 && r.modTime > 0 then sendBobMsix (advanceTo s (r.pendAt + us r.modTime)) n else s)

/-! ## Events (R37-R40, R117-R123) -/

/-- The event bobbin number `k` as a bobbin. -/
def evBob (k : Fin 4) : Fin 32 := ⟨24 + k.val, by omega⟩

/-- An event's route now: its own destination, or what EVT_ROUTE says of its number (R119, R120). -/
def routeOf (s : State) (e : Ev) : Option (Fin 4) :=
  match e.dest with
  | some k => some k
  | none =>
    match idx 256 e.num with
    | none => none
    | some i => let r := vget s.evt.routes i; if r.en then some r.bobbin else none

/-- An ordered event goes to the staging of its bobbin, or is discarded without a route; with 2048 records staged it is lost and
counted (R119, R121, R122). -/
def stageEvent (s : State) (e : Ev) : State :=
  match routeOf s e with
  | none => s
  | some k =>
    let b := vget s.evt.bobs k
    if b.staging.length < 2048 then modEvBob s k fun b => { b with staging := b.staging ++ [e] }
    else modEvBob s k fun b =>
      { b with lost := sat32 b.lost 1, pendLost := b.pendLost + 1
               firstLost := if b.pendLost = 0 then e.stamp else b.firstLost, lastLost := e.stamp }

/-- EVENT_ARRIVAL: event `i` of the network reaches EVT: it is held until its stamp plus 800, or delivered at once with LATE, which
EV_SYS_EVENT_LATE reports once for every stall of the source (R37-R39, R120). A stall of a source number lasts until an event of that number
arrives in time, and a stall of the network counts once for each number it makes late [A 83]. -/
def eventArrival (i : Nat) (s : State) : State :=
  match s.evt.net[i]? with
  | none => s
  | some e =>
    let s := { s with evt := { s.evt with net := s.evt.net.eraseIdx i } }
    if s.ct ≤ e.stamp + 800 then
      { s with evt := { s.evt with win := s.evt.win ++ [e], stalled := s.evt.stalled.filter (· != e.num) } }
    else
      let known := s.evt.stalled.contains e.num
      let route := routeOf s e
      let s := stageEvent s { e with late := true }
      if known then s
      else
        let rep : Ev := { num := 2, inst := e.num, stamp := s.ct, d0 := w32 (s.ct - (e.stamp + 800)), dest := route }
        { s with evt := { s.evt with stalled := e.num :: s.evt.stalled, net := s.evt.net ++ [rep] } }

def execEventArrival (i : Nat) (s : State) : Host.Outcome State Fault Refusal := .next (eventArrival i s)

/-- The earlier of two events: by stamp, then by source number (R38). -/
def evBefore (a b : Ev) : Bool := a.stamp < b.stamp || (a.stamp == b.stamp && a.num ≤ b.num)

/-- The place of the first event of the reorder window in delivery order. -/
def firstDue : List Ev → Option (Nat × Ev)
  | [] => none
  | e :: es =>
    match firstDue es with
    | none => some (0, e)
    | some (i, x) => if evBefore e x then some (0, e) else some (i + 1, x)

/-- EVENT_DELIVER: CT reaches the first event's stamp plus 800 and it leaves the window, routed as EVT_ROUTE says then (R38, R120). -/
def execEventDeliver (s : State) : Host.Outcome State Fault Refusal :=
  .next (match firstDue s.evt.win with
    | none => s
    | some (i, e) =>
      let s := advanceTo s (e.stamp + 800)
      if s.ct < e.stamp + 800 then s
      else stageEvent { s with evt := { s.evt with win := s.evt.win.eraseIdx i } } e)

/-- The bytes of an event record (R117). -/
def eventBytes (e : Ev) (seq : BitVec 16) : List Byte :=
  wordBytes [pack [(e.num % 256, 0), (b2n e.late, 8), (seq.toNat, 16)], pack [(e.inst % 65536, 0), (e.code % 65536, 16)],
    w32 e.stamp, w32 (e.stamp / 2 ^ 32), e.d0, e.d1, e.d2, e.d3]

/-- Once staging has room, the losses of a bobbin are reported behind the staged records (R122). -/
def reportLost (s : State) (k : Fin 4) : State :=
  let b := vget s.evt.bobs k
  if b.pendLost > 0 && b.staging.length < 2048 then
    let e : Ev :=
      { num := 3, inst := 24 + k.val, stamp := b.firstLost, d0 := w32 b.pendLost, d2 := w32 b.lastLost
        d3 := w32 (b.lastLost / 2 ^ 32), dest := some k }
    modEvBob s k fun b => { b with staging := b.staging ++ [e], pendLost := 0 }
  else s

/-- EVENT_STAGING_WRITE: the oldest staged record of an event bobbin is written when the bobbin works and has room (R118, R121). -/
def eventStagingWrite (k : Fin 4) (s : State) : State :=
  let b := vget s.evt.bobs k
  let n := evBob k
  let r := vget s.bob.rings n
  match b.staging with
  | [] => s
  | e :: rest =>
    if !ringLive r || ringFree r = 0 then s
    else if accessHeld s r.space then hold s (.event k)
    else match ringErr s r r.tail 1 false with
      | some (x, a) => haltBob s n x true r.space a true
      | none =>
        let s := ringWrite s r r.tail 1 (eventBytes e b.seq)
        let s := modEvBob s k fun b => { b with staging := rest, seq := b.seq + 1 }
        reportLost (ringPush s n 1) k

def execEventStagingWrite (k : Fin 4) (s : State) : Host.Outcome State Fault Refusal := .next (eventStagingWrite k s)

end Sys2Proof.Machine
end

