-- ==== Sys2Proof/Machine/Cam.lean ====
section
/-! DEFINITION. The camera pipeline: inputs, frames, the shared pipeline, buffers, statistics (R368-R404). -/

namespace Sys2Proof.Machine

open Sys2Proof

def camIn (s : State) (i : Fin 4) : CamIn := vget s.cam.ins i
def modIn (s : State) (i : Fin 4) (f : CamIn → CamIn) : State := { s with cam := { s.cam with ins := vmod s.cam.ins i f } }
def camCtx (s : State) (k : Fin 8) : CamCtx := vget s.cam.ctxs k
def modCtx (s : State) (k : Fin 8) (f : CamCtx → CamCtx) : State := { s with cam := { s.cam with ctxs := vmod s.cam.ctxs k f } }
/-- The frame of a number that a context has accepted and that has not ended. -/
def camFrame (s : State) (k : Fin 8) (num : BitVec 16) : Option CamFrame := (camCtx s k).frames.find? (·.num == num)
def modFrame (s : State) (k : Fin 8) (num : BitVec 16) (f : CamFrame → CamFrame) : State :=
  modCtx s k fun x => { x with frames := x.frames.map fun g => if g.num = num then f g else g }
/-- The output bobbins (R53). -/
def camBob (b : Fin 4) : Fin 32 := ⟨28 + b.val, by omega⟩
/-- A context is enabled (R512). -/
def contextOn (s : State) : Bool := s.cam.ctxs.toList.any (·.en)

/-- The context fed by a stream (R372): on P0 virtual channel and data type do not count. -/
def streamCtx (s : State) (i : Fin 4) (h : CsiHeader) : Option (Fin 8) :=
  (s.cam.map.toList.find? fun e => e.en && e.input == i && (i.val == 3 || (e.vc == h.vc.toNat && e.dt == h.dt.toNat))).map (·.ctx)
/-- The contexts whose stream a Frame Start or Frame End of a virtual channel frames (R368, R370). -/
def channelCtxs (s : State) (i : Fin 4) (h : CsiHeader) : List (Fin 8) :=
  (s.cam.map.toList.filter fun e => e.en && e.input == i && (i.val == 3 || e.vc == h.vc.toNat)).map (·.ctx)
/-- The map entry that feeds a context. -/
def feedEntry (s : State) (k : Fin 8) : Option (Fin 16) := (indices 16).find? fun e => (vget s.cam.map e).en && (vget s.cam.map e).ctx == k

/-! ## NHD's side of a bound frame (R287, R293, R400) -/

def modRun (s : State) (f : SwatchRun → SwatchRun) : State := { s with nhd := { s.nhd with run := s.nhd.run.map f } }

/-- The first frame of the swatch's context whose start stamp is at least DELAY after the last swatch line ended is the bound frame. -/
def swatchFrameStart (s : State) (k : Fin 8) (num : BitVec 16) : State :=
  match s.nhd.run, s.nhd.swatch with
  | some r, some d =>
    match r.firedAt with
    | some t => if d.context = k && r.frame.isNone && t + us d.delay ≤ s.ct && s.ct ≤ t + us d.delay + sec 1 then
        modRun s fun r => { r with frame := some num.toNat }
      else s
    | none => s
  | _, _ => s

/-- The frame is the bound frame and has not ended. -/
def isBound (s : State) (k : Fin 8) (num : BitVec 16) : Bool :=
  match s.nhd.run, s.nhd.swatch with
  | some r, some d => d.context == k && r.frame == some num.toNat && r.frameEnd.isNone
  | _, _ => false

/-- A row of the VISION stream of a frame reaches the detector. -/
def swatchRow (s : State) (k : Fin 8) (num : BitVec 16) (row : List Nat) : State :=
  if isBound s k num then modRun s fun r => { r with image := r.image ++ [row] } else s

/-- The swatch ends without a usable frame: 1 dropped, 2 SHORT, 3 none (R293). -/
def swatchLost (s : State) (code : Nat) : State :=
  match s.nhd.run with
  | none => s
  | some r =>
    let inst := (s.nhd.swatch.map (·.context.val)).getD 0
    let s := raise s 53 inst code (w32 r.panel.toNat) (w32 r.start)
    let s := { s with nhd := { s.nhd with run := none } }
    if code = 3 then finishLive s r.dead r.pair r.tag stTimeout 0 else finishLive s r.dead r.pair r.tag stFailed 0x1009

/-- A frame has ended: 0 in order, 1 dropped, 2 SHORT. -/
def swatchFrameEnd (s : State) (k : Fin 8) (num : BitVec 16) (how : Nat) : State :=
  if isBound s k num then (if how = 0 then modRun s fun r => { r with frameEnd := some 0 } else swatchLost s how) else s

/-! ## The write budget (R382) -/

/-- The budget as it stands now; it is counted in 1/400 byte, of which CAM_RATE gives RATE per CT unit. -/
def budgetNow (s : State) : Int := min (65536 * 400) (s.cam.budget + (s.cam.rate * (s.ct - s.cam.budgetAt) : Nat))
/-- Bytes are written against the budget. -/
def debit (s : State) (n : Nat) : State :=
  { s with cam := { s.cam with budget := budgetNow s - (400 * n : Nat), budgetAt := s.ct } }

/-! ## Input errors (R369, R409) -/

/-- EV_CAM_IN_ERROR, at most once per millisecond for each input and CODE. -/
def inError (s : State) (i : Fin 4) (code : Nat) : State :=
  let key := 8 * i.val + code
  let mine (e : Nat × Nat × Nat × Nat) : Bool := e.1 == 115 && e.2.1 == key
  let rest := s.evt.limits.filter (!mine ·)
  match s.evt.limits.find? mine with
  | some (_, _, t, held) =>
    if s.ct < t + ms 1 then { s with evt := { s.evt with limits := rest ++ [(115, key, t, held + 1)] } }
    else raise { s with evt := { s.evt with limits := rest ++ [(115, key, s.ct, 0)] } } 115 i.val code (w32 (held + 1))
  | none => raise { s with evt := { s.evt with limits := rest ++ [(115, key, s.ct, 0)] } } 115 i.val code 1

def sat8 (n : Nat) : Nat := satAdd 255 n 1

/-! ## Buffers (R68, R69, R396, R397) -/

def modOut (s : State) (k : Fin 8) (num : BitVec 16) (o : Fin 7) (f : OutRun → OutRun) : State :=
  modFrame s k num fun g => { g with outs := vmod g.outs o f }

/-- How a buffer ends: flags 22 to 26 of its entry but FIRST. -/
structure BufEnd where
  last : Bool := false
  short : Bool := false
  long : Bool := false
  aborted : Bool := false

/-- Bytes 0x10 to 0x1F of an entry (R68). -/
def entryTail (f : CamFrame) (k : Fin 8) (o : Fin 7) (b : CamBuf) (e : BufEnd) : List Byte :=
  wordBytes [w32 b.used,
    pack [(f.num.toNat, 0), (k.val, 16), (o.val, 19), (b2n b.first, 22), (b2n e.last, 23), (b2n e.short, 24), (b2n e.long, 25),
      (b2n e.aborted, 26), (1, 31)],
    w32 f.stamp, w32 (f.stamp / 2 ^ 32)]

/-- The head of an output bobbin advances over the complete entries it starts with (R396). -/
def settleClaims (s : State) (b : Fin 4) : State :=
  let cs := vget s.cam.claims b
  let n := (cs.takeWhile id).length
  if n = 0 then s
  else
    let s := { s with cam := { s.cam with claims := vset s.cam.claims b (cs.drop n) } }
    modRing s (camBob b) fun r => { r with head := idxAdd r r.head n, wbDue := true }

/-- A claimed entry is complete: marked, the head moves on, the entry is signalled (R63, R64, R396). -/
def claimDone (s : State) (b : Fin 4) (idx : Nat) : State :=
  let r := vget s.bob.rings (camBob b)
  let place := (idx + 2 * ringN r - r.head) % (2 * ringN r)
  let s := { s with cam := { s.cam with claims := vmod s.cam.claims b fun cs => cs.set place true } }
  signalEntry (settleClaims s b) (camBob b)

/-- An output's frame is cut off for want of a buffer: EV_CAM_NO_BUFFER and the count (R397); a buffer cut off by a disable, a halt or a
host-interface reset is reported the same way, with DATA2 1 [A 91]. -/
def outputLost (s : State) (k : Fin 8) (num : BitVec 16) (o : Fin 7) (b : Fin 4) (cut : Bool) : State :=
  let s := modOut s k num o fun x => { x with buf := none, lost := true, acc := [] }
  let s := modCtx s k fun x => { x with lostOuts := satAdd 0xFFFF x.lostOuts 1 }
  raise s 114 k.val o.val (w32 num.toNat) (w32 (28 + b.val)) (w32 (b2n cut))

/-- The buffer an output holds is cut off: its entry is completed ABORTED when it can still be written; one in a host-memory ring is counted at a
host-interface reset, and one in a frozen DRAM is lost (R84, R86, R404) [A 88]. -/
def cutOut (s : State) (k : Fin 8) (f : CamFrame) (o : Fin 7) (b : CamBuf) (hostReset : Bool) : State :=
  let r := vget s.bob.rings (camBob b.bob)
  let a := entryAddr r b.idx + 0x10
  let bs := entryTail f k o b { aborted := true }
  let s :=
    if hostReset && r.space == 0 then { s with bob := { s.bob with dmaAborted := satAdd 0xFFFF s.bob.dmaAborted 1 } }
    else if accessHeld s r.space then
      let s := queueReq s (.put (some 1) a bs)
      if hostReset then s else claimDone s b.bob b.idx
    else if (accessErr s r.space a 16 false).isNone then
      let s := spaceWrite s r.space a bs
      if hostReset then s else claimDone s b.bob b.idx
    else s
  outputLost s k f.num o b.bob true

/-- Every buffer in progress of an output bobbin is cut off: the bobbin is disabled, halts, or the host interface is reset (R68, R84, R404). Its
claims end with them: after a resume the entries from the head on are claimed anew, those completed out of order among them [A 90]. -/
def camCut (s : State) (n : Fin 32) (hostReset : Bool) : State :=
  match idx 4 (n.val - 28) with
  | none => s
  | some b =>
    let s := (indices 8).foldl (fun s k => (camCtx s k).frames.foldl (fun s f => (indices 7).foldl (fun s o =>
      match (vget f.outs o).buf with
      | some x => if x.bob = b then cutOut s k f o x hostReset else s
      | none => s) s) s) s
    { s with cam := { s.cam with claims := vset s.cam.claims b [] } }

/-- An output holds a claimed buffer of this bobbin (R615). -/
def camBufferHeld (s : State) (n : Fin 32) : Bool :=
  s.cam.ctxs.toList.any fun x => x.frames.any fun f => f.outs.toList.any fun o => match o.buf with
    | some b => n.val == 28 + b.bob.val
    | none => false

/-- A failed access of the camera pipeline halts an output bobbin, after the buffers in progress on it are cut off (R80, R404). -/
def camHalt (s : State) (b : Fin 4) (kind : Nat) (isWrite : Bool) (space addr : Nat) (ring : Bool) : State :=
  haltBob (camCut s (camBob b) false) (camBob b) kind isWrite space addr ring

/-- The buffer of an output is completed in its entry (R68, R69). -/
def completeBuf (s : State) (k : Fin 8) (f : CamFrame) (o : Fin 7) (b : CamBuf) (e : BufEnd) : State :=
  let r := vget s.bob.rings (camBob b.bob)
  let a := entryAddr r b.idx + 0x10
  match accessErr s r.space a 16 false with
  | some x => camHalt s b.bob x true r.space a true
  | none =>
    let s := if accessHeld s r.space then queueReq s (.put (some 1) a (entryTail f k o b e)) else spaceWrite s r.space a (entryTail f k o b e)
    claimDone (modOut s k f.num o fun x => { x with buf := none }) b.bob b.idx

/-- Whether a posted buffer can be filled: 64-byte aligned, at least 4096 bytes in whole 64s, within its space (R68, R509, R528). -/
def bufOk (s : State) (c : CamBuf) : Bool :=
  c.addr % 64 == 0 && c.cap ≥ 4096 && c.cap % 64 == 0 && inSpace s c.space c.addr c.cap

/-- The buffer an output bobbin's data goes to, when one is in progress on it (R82). -/
def bufOf (s : State) (b : Fin 4) : Option CamBuf :=
  s.cam.ctxs.toList.findSome? fun x => x.frames.findSome? fun f => f.outs.toList.findSome? fun o => o.buf.filter fun c => c.bob == b

/-- An output claims the next posted entry of its bobbin; none when there is none, its buffer breaks R68 [A 92], or the bobbin does not work
(R396, R397). -/
def claimBuf (s : State) (b : Fin 4) : State × Option CamBuf :=
  let r := vget s.bob.rings (camBob b)
  let n := (vget s.cam.claims b).length
  if !ringLive r || n ≥ ringUsed r || accessHeld s r.space then (s, none)
  else
    let i := idxAdd r r.head n
    let a := entryAddr r i
    match accessErr s r.space a 32 true with
    | some x => (camHalt s b x false r.space a true, none)
    | none =>
      let e := spaceRead s r.space a 16
      let w (j : Nat) : Word := w32 (leNat ((e.drop (4 * j)).take 4))
      let c : CamBuf := { bob := b, idx := i, addr := addr64 (w 0) (w 1), cap := (w 2).toNat, space := bits (w 3) 1 0 }
      if bufOk s c then ({ s with cam := { s.cam with claims := vmod s.cam.claims b (· ++ [false]) } }, some c) else (s, none)

/-- Bytes of an output go into its buffers, from one posted buffer into the next (R69, R396, R397). -/
def putBytes : Nat → State → Fin 8 → BitVec 16 → Fin 7 → Fin 4 → List Byte → State
  | 0, s, _, _, _, _, _ => s
  | fuel + 1, s, k, num, o, b, bs =>
    match camFrame s k num with
    | none => s
    | some f =>
      let x := vget f.outs o
      if x.lost || bs.isEmpty then s
      else match x.buf with
        | none =>
          let (s, c) := claimBuf s b
          match c with
          | none => outputLost s k num o b false
          | some c => putBytes fuel (modOut s k num o fun x => { x with buf := some { c with first := !x.begun }, begun := true }) k num o b bs
        | some c =>
          let room := c.cap - c.used
          if room = 0 then putBytes fuel (completeBuf s k f o c {}) k num o b bs
          else
            let part := bs.take room
            match accessErr s c.space (c.addr + c.used) part.length false with
            | some e => camHalt s c.bob e true c.space (c.addr + c.used) false
            | none =>
              let s := if accessHeld s c.space then queueReq s (.put (some 1) (c.addr + c.used) part) else spaceWrite s c.space (c.addr + c.used) part true
              let s := debit s part.length
              putBytes fuel (modOut s k num o fun x => { x with buf := some { c with used := c.used + part.length } }) k num o b (bs.drop room)

/-- An output's line goes out under the settings its line met; an output turned off or sent to another bobbin within a frame loses its
buffer in progress (R375) [A 51]. -/
def putLine (s : State) (k : Fin 8) (num : BitVec 16) (o : Fin 7) (cfg : OutCfg) (bs : List Byte) : State :=
  match camFrame s k num with
  | none => s
  | some f =>
    let s := match (vget f.outs o).buf with
      | some c => if !cfg.en || c.bob != cfg.bob then cutOut s k f o c false else s
      | none => s
    if cfg.en then putBytes (bs.length + 8) s k num o cfg.bob bs else s

/-! ## Rows that leave the stages (R396-R402) -/

/-- A row joins the bin or scale box of an output; the box's rows when it is full. -/
def boxRow (s : State) (k : Fin 8) (num : BitVec 16) (o : Fin 7) (n : Nat) (row : List (Nat × Nat × Nat)) :
    State × Option (List (List (Nat × Nat × Nat))) :=
  match camFrame s k num with
  | none => (s, none)
  | some f =>
    let acc := (vget f.outs o).acc ++ [row]
    if acc.length ≥ n then (modOut s k num o fun x => { x with acc := [] }, some acc)
    else (modOut s k num o fun x => { x with acc := acc }, none)

/-- The columns of a crop. -/
def cropRow {α : Type} (row : List α) (x w : Nat) : List α := (row.drop x).take w

/-- A full or last band of CODED: its blocks queue for the encoder, padded with samples of 0 (R401, R402). -/
def pushBand (s : State) (k : Fin 8) (num : BitVec 16) (cfg : OutCfg) (rows : List (List Byte)) : State :=
  modFrame s k num fun f =>
    let width := (rows.map (·.length)).foldl max 0
    let block (i : Nat) : List Byte := (List.range 8).flatMap fun j =>
      let part := ((rows.getD j []).drop (256 * i)).take 256
      part ++ List.replicate (256 - part.length) 0
    let raws := (List.range (ceilDiv width 256)).map block
    let blks := (List.range raws.length).map fun i =>
      { band := f.band, block := i, raw := raws.getD i [], ref := if f.band > 0 && cfg.level == 3 then f.prevBand[i]? else none
        ratio := cfg.ratio, level := cfg.level, tap := cfg.tap, bob := cfg.bob : CodedBlk }
    { f with band := f.band + 1, prevBand := raws, todo := f.todo ++ blks }

/-- A row of bytes of CODED. -/
def codedRow (s : State) (k : Fin 8) (num : BitVec 16) (cfg : OutCfg) (row : List Byte) : State :=
  if !cfg.en then s
  else
    let (s, rows) := boxRow s k num 2 8 (row.map fun b => (b.toNat, 0, 0))
    match rows with
    | some rs => pushBand s k num cfg (rs.map fun r => r.map fun t => b8 t.1)
    | none => s

/-- VISION's part of a row: the bin box, the detector, CODED from VISION, the output itself (R398, R400). -/
def visionRow (s : State) (k : Fin 8) (f : CamFrame) (l : CamLine) (pix : List PixOut) : State :=
  let g := f.geom
  let cfg := vget l.prm.outs (0 : Fin 7)
  let coded := vget l.prm.outs (2 : Fin 7)
  if g.cy ≤ l.y && l.y < g.cy + g.ch then
    let row := (cropRow pix g.cx g.cw).map fun p => (visionSample cfg.src (if l.prm.linear then p.matrix else p.tone) (f.kind == 2), 0, 0)
    let (s, box) := boxRow s k f.num 0 (2 ^ g.by') row
    match box with
    | none => s
    | some rows =>
      let vs := (List.range (g.cw / 2 ^ g.bx)).map fun i => boxMean rows (2 ^ g.bx) i (·.1)
      let s := swatchRow s k f.num (if cfg.depth8 then vs.map fun v => to8 v * 257 else vs)
      let s := if coded.tap then s else codedRow s k f.num coded (vs.map fun v => b8 (to8 v))
      putLine s k f.num 0 cfg (padLine (if cfg.depth8 then vs.map fun v => b8 (to8 v) else halfWords vs))
  else s

/-- PREVIEW's part of a row (R398, R399). -/
def previewRow (s : State) (k : Fin 8) (f : CamFrame) (l : CamLine) (pix : List PixOut) : State :=
  let g := f.geom
  let cfg := vget l.prm.outs (1 : Fin 7)
  if cfg.en && g.py ≤ l.y && l.y < g.py + g.ph then
    let (s, box) := boxRow s k f.num 1 (2 ^ g.sy) ((cropRow pix g.px g.pw).map fun p => (p.tone.1, p.tone.2.1, p.tone.2.2.1))
    match box with
    | none => s
    | some rows =>
      let ps := (List.range (g.pw / 2 ^ g.sx)).map fun i =>
        let c (h : Nat × Nat × Nat → Nat) : Nat := to8 (boxMean rows (2 ^ g.sx) i h)
        if f.kind = 2 then (c (·.1), c (·.2.1), c (·.2.2)) else toYcc (c (·.1)) (c (·.2.1)) (c (·.2.2))
      putLine s k f.num 1 cfg (padLine (previewPairs ps))
  else putLine s k f.num 1 cfg []

/-- The raw taps' part of a row, and CODED from tap 0. -/
def tapRows (s : State) (k : Fin 8) (f : CamFrame) (l : CamLine) (pix : List PixOut) : State :=
  let quads (qs : List Quad) : List Byte := halfWords (qs.flatMap fun q => [q.1, q.2.1, q.2.2.1, q.2.2.2])
  let coded := vget l.prm.outs (2 : Fin 7)
  let s :=
    if coded.tap && f.geom.cy ≤ l.y && l.y < f.geom.cy + f.geom.ch then
      codedRow s k f.num coded ((cropRow pix f.geom.cx f.geom.cw).map fun p => b8 (to8 p.unpacked))
    else s
  let s := putLine s k f.num 2 coded []
  let s := putLine s k f.num 3 (vget l.prm.outs (3 : Fin 7)) (padLine (halfWords (pix.map (·.unpacked))))
  let s := putLine s k f.num 4 (vget l.prm.outs (4 : Fin 7)) (padLine (halfWords (pix.map (·.black))))
  let s := putLine s k f.num 5 (vget l.prm.outs (5 : Fin 7)) (padLine (quads (pix.map (·.recon))))
  putLine s k f.num 6 (vget l.prm.outs (6 : Fin 7)) (padLine (quads (pix.map (·.matrix))))

/-- The statistics of a row (R393, R394). -/
def statRow (s : State) (k : Fin 8) (f : CamFrame) (y : Nat) (row : List Quad) : State :=
  let x := camCtx s k
  modFrame s k f.num fun g => { g with
    hist := addHist g.hist row, zsum := addZones g.zsum row y x.inW x.inH, zn := addZoneN g.zn row.length y x.inW x.inH
    clipped := sat32 g.clipped (row.countP fun q => q.1 == 65535 || q.2.1 == 65535 || q.2.2.1 == 65535) }

/-- The next row of a frame leaves the stages. -/
def emitRow (s : State) (k : Fin 8) (num : BitVec 16) : State :=
  match camFrame s k num with
  | none => s
  | some f =>
    match lineAt f.lines f.nextRow with
    | none => s
    | some l =>
      let s := modFrame s k num fun g => { g with nextRow := g.nextRow + 1 }
      let pix := (List.range l.src.length).map (pixOut f.kind f.lines l)
      let s := statRow s k f l.y (pix.map (·.matrix))
      tapRows (previewRow (visionRow s k f l pix) k f l pix) k f l pix

/-! ## How a frame ends (R394, R395, R403) -/

/-- The block of statistics of a frame (R394). -/
def statBlock (x : CamCtx) (k : Fin 8) (f : CamFrame) (valid short long : Bool) : List Byte :=
  let zone (i : Nat) : Nat := let n := f.zn.getD (i % 256) 0; if n = 0 then 0 else (f.zsum.getD i 0 + n / 2) / n
  wordBytes [pack [(f.num.toNat, 0), (k.val, 16), (b2n valid, 19), (b2n short, 20), (b2n long, 21), (b2n f.crcErr, 22),
      (b2n f.paramChanged, 23), (b2n (f.kind == 2), 24)],
    w32 f.sensor, pack [(f.rcvd, 0), (f.discarded, 16)], pack [(x.inW, 0), (x.inH, 16)], w32 f.stamp, w32 (f.stamp / 2 ^ 32),
    w32 f.endCt, w32 (f.endCt / 2 ^ 32), w32 f.clipped] ++ List.replicate 28 0
  ++ ((List.range 1024).flatMap fun i => natLe (f.hist.getD i 0) 4)
  ++ ((List.range 1024).flatMap fun i => natLe (zone i) 2)
  ++ natLe f.num.toNat 4 ++ List.replicate 60 0

/-- The statistics of a frame are written to buffer A or B in turn; the buffer used, none when there is none or the write fails, which
EV_CAM_TABLE_ERR reports (R394, R404). -/
def writeStats (s : State) (k : Fin 8) (f : CamFrame) (valid short long : Bool) : State × Option Nat :=
  let x := camCtx s k
  if !x.prm.statEn then (s, none)
  else
    let a := if x.statNext then x.prm.statB else x.prm.statA
    let s := modCtx s k fun x => { x with statNext := !x.statNext }
    match accessErr s x.prm.statSpace a 6272 false with
    | some _ => (raise s 118 k.val 2 (w32 f.num.toNat), none)
    | none =>
      let bs := statBlock x k f valid short long
      let s := if accessHeld s x.prm.statSpace then queueReq s (.put (some 1) a bs) else spaceWrite s x.prm.statSpace a bs
      (debit s 6272, some (b2n x.statNext))

/-- A frame ends whole or SHORT: its last buffers, its statistics, EV_CAM_FRAME_DONE (R403). -/
def finishFrame (s : State) (k : Fin 8) (f : CamFrame) : State :=
  let short := decide (f.rcvd < (camCtx s k).inH)
  let long := decide (f.discarded > 0)
  let valid := !short && !f.flatBad
  let s := (indices 7).foldl (fun s o => match camFrame s k f.num with
    | none => s
    | some g => match (vget g.outs o).buf with
      | some b => completeBuf s k g o b { last := true, short := short, long := long }
      | none => s) s
  let (s, buf) := writeStats s k f valid short long
  let s := modCtx s k fun x => { x with
    frames := x.frames.filter (·.num != f.num), shorts := if short then satAdd 0xFFFF x.shorts 1 else x.shorts }
  let s := raise s 112 k.val (b2n short + 2 * b2n long + 4 * b2n f.crcErr + 8 * b2n f.paramChanged + 16 * b2n valid)
    (w32 f.num.toNat) (w32 f.rcvd) (w32 (buf.getD 0xFFFFFFFF)) (w32 f.endCt)
  swatchFrameEnd s k f.num (if short then 2 else 0)

/-- Lines of a frame that wait in a FIFO. -/
def linesWaiting (s : State) (k : Fin 8) (f : CamFrame) : Bool :=
  (camIn s f.input).fifo.any fun l => l.ctx == k && l.frame == f.num

/-- Every line of a frame that will come has been taken up: the rows left and the last band leave the stages. -/
def flushFrame (s : State) (k : Fin 8) (f : CamFrame) : State :=
  let s := (List.range (f.taken - f.nextRow)).foldl (fun s _ => emitRow s k f.num) s
  match camFrame s k f.num, f.lines.head? with
  | some g, some l =>
    let acc := (vget g.outs (2 : Fin 7)).acc
    if acc.isEmpty then s
    else
      let s := modOut s k f.num 2 fun x => { x with acc := [] }
      pushBand s k f.num (vget l.prm.outs (2 : Fin 7)) (acc.map fun r => r.map fun t => b8 t.1)
  | _, _ => s

/-- The oldest frame of a context ends once it is closed, its lines are taken up and its coded blocks are done. -/
def settleOldest (s : State) (k : Fin 8) : State :=
  match (camCtx s k).frames with
  | [] => s
  | f :: _ =>
    if linesWaiting s k f || !(f.closed || f.taken == (camCtx s k).inH) then s
    else
      let s := flushFrame s k f
      match camFrame s k f.num with
      | some g => if g.closed && (g.todo.isEmpty || (vget g.outs (2 : Fin 7)).lost) then finishFrame s k g else s
      | none => s

/-- Frames of a context that can end do so, oldest first. -/
def settleCtx (s : State) (k : Fin 8) : State := (List.range (camCtx s k).frames.length).foldl (fun s _ => settleOldest s k) s

/-- A frame is dropped: its lines leave the FIFO, its buffers in progress end ABORTED, EV_CAM_FRAME_DROP (R381, R403). -/
def dropFrame (s : State) (k : Fin 8) (f : CamFrame) (code : Nat) : State :=
  let s := modIn s f.input fun c => { c with fifo := c.fifo.filter fun l => !(l.ctx == k && l.frame == f.num) }
  let s := (indices 7).foldl (fun s o => match camFrame s k f.num with
    | none => s
    | some g => match (vget g.outs o).buf with
      | some b => completeBuf s k g o b { aborted := true }
      | none => s) s
  let s := modCtx s k fun x => { x with frames := x.frames.filter (·.num != f.num), drops := satAdd 0xFFFF x.drops 1 }
  let s := raise s 113 k.val code (w32 f.num.toNat) (w32 f.input.val) (w32 f.taken)
  settleCtx (swatchFrameEnd s k f.num 1) k

/-- The stream's open frame ends at this point (R369, R403). -/
def closeFrame (s : State) (k : Fin 8) : State :=
  settleCtx (modCtx s k fun x => { x with open' := false, frames := x.frames.map fun f => { f with closed := true } }) k

/-! ## Packets (R368-R374, R378, R381) -/

/-- Kind of a stream and the bits of its raw samples: a data type, or P0's width (R368, R370, R384). -/
def streamKind (i : Fin 4) (dt : Nat) (p0 : Word) : Nat × Nat :=
  if i.val = 3 then (0, bits p0 4 0)
  else match dt with
    | 0x2A => (0, 8) | 0x2B => (0, 10) | 0x2C => (0, 12) | 0x2D => (0, 14) | 0x2E => (0, 16) | 0x1E => (2, 8) | _ => (1, 8)

/-- The context takes a frame that starts now (R371, R374). -/
def acceptFrame (s : State) (k : Fin 8) (i : Fin 4) (number : BitVec 16) : State :=
  let x := camCtx s k
  let dt := match feedEntry s k with
    | some e => (vget s.cam.map e).dt
    | none => 0
  let (kind, n) := streamKind i dt (camIn s i).p0
  let num := x.frame + 1
  let f : CamFrame := { num := num, sensor := if i.val = 3 then 0 else number.toNat, stamp := s.ct, input := i, kind := kind, rawBits := n }
  swatchFrameStart (modCtx s k fun x => { x with frame := num, frames := x.frames ++ [f] }) k num

/-- Fires that still wait for a frame (R378). -/
def liveFires (s : State) (x : CamCtx) : List Nat := x.fires.filter fun t => decide (s.ct ≤ t + us x.prm.armWin)

/-- A stream's frame starts: an open one ends here, an enabled context takes the new one, with ARM only within the window of a fire. -/
def openFrame (s : State) (k : Fin 8) (i : Fin 4) (number : BitVec 16) : State :=
  let s := if (camCtx s k).open' then inError (modIn (closeFrame s k) i fun c => { c with feMissing := sat8 c.feMissing }) i 4 else s
  let s := modCtx s k fun x => { x with open' := true, lineAt := s.ct, fires := liveFires s x }
  let x := camCtx s k
  if !x.en then s
  else if x.prm.arm = 0 then acceptFrame s k i number
  else match x.fires with
    | [] => s
    | _ :: rest => acceptFrame (modCtx s k fun x => { x with fires := rest }) k i number

/-- The header of a packet on a CSI-2 input is checked: none when it cannot be used (R369). -/
def headerCheck (s : State) (i : Fin 4) (h : CsiHeader) : Option State :=
  if !(camIn s i).en then none
  else if i.val = 3 then some s
  else match h.ecc with
    | .good => some s
    | .corrected => some (modIn s i fun c => { c with eccCorr := sat8 c.eccCorr })
    | .bad => none

/-- A packet whose header cannot be corrected is counted (R369). -/
def headerLost (s : State) (i : Fin 4) (h : CsiHeader) : State :=
  if (camIn s i).en && i.val != 3 && h.ecc == .bad then inError (modIn s i fun c => { c with eccErr := sat8 c.eccErr }) i 1 else s

/-- A packet matches no enabled map entry (R369). -/
def unmapped (s : State) (i : Fin 4) : State := modIn s i fun c => { c with unmappedAt := some s.ct }

/-- FRAME_START (R369, R371, R374, R378). -/
def frameStart (i : Fin 4) (h : CsiHeader) (number : BitVec 16) (s : State) : State :=
  match headerCheck s i h with
  | none => headerLost s i h
  | some s =>
    let s := if (camIn s i).started then s else raise (modIn s i fun c => { c with started := true }) 116 i.val 0
    match channelCtxs s i h with
    | [] => unmapped s i
    | ks => ks.foldl (fun s k => openFrame s k i number) s

def execFrameStart (i : Fin 4) (h : CsiHeader) (number : BitVec 16) (s : State) : Host.Outcome State Fault Refusal :=
  .next (frameStart i h number s)

/-- FRAME_END: Frame End, or the inactive edge of VSYNC (R369, R370, R403). -/
def frameEnd (i : Fin 4) (h : CsiHeader) (s : State) : State :=
  match headerCheck s i h with
  | none => headerLost s i h
  | some s =>
    match channelCtxs s i h with
    | [] => unmapped s i
    | ks => ks.foldl (fun s k => if (camCtx s k).open' then closeFrame s k else s) s

def execFrameEnd (i : Fin 4) (h : CsiHeader) (s : State) : Host.Outcome State Fault Refusal := .next (frameEnd i h s)

/-- FRAME_TIMEOUT: FRAME_TIMEOUT ms without a line end an accepted frame that has fewer than IN_H lines (R403). -/
def frameTimeout (k : Fin 8) (s : State) : State :=
  let x := camCtx s k
  match x.frames.find? (!·.closed) with
  | none => s
  | some f =>
    if !x.open' || f.rcvd ≥ x.inH then s
    else
      let s := advanceTo s (x.lineAt + ms x.prm.timeoutMs)
      if s.ct < x.lineAt + ms x.prm.timeoutMs then s
      else inError (modIn (closeFrame s k) f.input fun c => { c with timeout := sat8 c.timeout }) f.input 5

def execFrameTimeout (k : Fin 8) (s : State) : Host.Outcome State Fault Refusal := .next (frameTimeout k s)

/-- CSI_LANE_STATE: ULPS on every lane, or deskew done (R368, R409). -/
def csiLaneState (i : Fin 3) (e : CsiChange) (s : State) : State :=
  let j : Fin 4 := i.castSucc
  let c := camIn s j
  if !c.en then s
  else match e with
    | .ulpsEntered => if c.ulps then s else raise (modIn s j fun c => { c with ulps := true }) 116 j.val 1
    | .ulpsLeft => if c.ulps then raise (modIn s j fun c => { c with ulps := false }) 116 j.val 2 else s
    | .deskewDone => raise (modIn s j fun c => { c with deskewed := true }) 116 j.val 3

def execCsiLaneState (i : Fin 3) (e : CsiChange) (s : State) : Host.Outcome State Fault Refusal := .next (csiLaneState i e s)

/-- The lowest slot of a FIFO that holds no line [A 51]. -/
def freeSlot (ls : List FifoLine) : Nat := ((List.range 64).find? fun n => ls.all (·.slot != n)).getD 0

/-- A line's payload of an accepted frame is checked, fitted to IN_W and placed in the FIFO, or drops the frame (R369, R373, R381). -/
def fitLine (s : State) (i : Fin 4) (k : Fin 8) (f : CamFrame) (px : List (Nat × Nat × Nat)) : State :=
  let w := (camCtx s k).inW
  let s :=
    if px.length > w then inError (modIn s i fun c => { c with longLine := sat8 c.longLine }) i 6
    else if px.length < w then inError (modIn s i fun c => { c with shortLine := sat8 c.shortLine }) i 7
    else s
  let c := camIn s i
  if c.fifo.length ≥ 64 then dropFrame s k f 1
  else
    let l : FifoLine := { slot := freeSlot c.fifo, ctx := k, frame := f.num, y := f.rcvd, px := (px ++ List.replicate (w - px.length) (0, 0, 0)).take w }
    let s := modIn s i fun c => { c with fifo := c.fifo ++ [l], peak := max c.peak (c.fifo.length + 1) }
    modFrame s k f.num fun f => { f with rcvd := f.rcvd + 1 }

/-- LINE_PACKET (R369, R379, R381). -/
def linePacket (i : Fin 4) (h : CsiHeader) (px : List (Nat × Nat × Nat)) (s : State) : State :=
  match headerCheck s i h with
  | none => headerLost s i h
  | some s =>
    match streamCtx s i h with
    | none => unmapped s i
    | some k =>
      if !(camCtx s k).open' then inError (modIn s i fun c => { c with noFs := sat8 c.noFs }) i 3
      else
        let s := modCtx s k fun x => { x with lineAt := s.ct }
        match (camCtx s k).frames.find? (!·.closed) with
        | none => s
        | some f =>
          let bad := h.crcBad && i.val != 3
          let s := if bad then inError (modIn s i fun c => { c with crc := sat8 c.crc }) i 2 else s
          let s := modFrame s k f.num fun f => { f with crcErr := f.crcErr || bad }
          match camFrame s k f.num with
          | none => s
          | some f =>
            if f.rcvd ≥ (camCtx s k).inH then
              modCtx (modFrame s k f.num fun f => { f with discarded := satAdd 0xFFFF f.discarded 1 }) k fun x =>
                { x with beyond := satAdd 0xFFFF x.beyond 1 }
            else fitLine s i k f px

def execLinePacket (i : Fin 4) (h : CsiHeader) (px : List (Nat × Nat × Nat)) (s : State) : Host.Outcome State Fault Refusal :=
  .next (linePacket i h px s)

/-! ## The pipeline (R375, R377, R380, R382, R388) -/

/-- The input that gives the next line, and how many it has then given in its turn (R380). -/
def nextInput (s : State) : Option (Fin 4 × Nat) :=
  let t := s.cam.turn
  if !(camIn s t).fifo.isEmpty && s.cam.given < (camIn s t).weight then some (t, s.cam.given + 1)
  else
    ([1, 2, 3, 4].filterMap fun d => idx 4 ((t.val + d) % 4)).findSome? fun i => if (camIn s i).fifo.isEmpty then none else some (i, 1)

/-- Gains of a line from the flat-field table, one per pixel (R388). -/
def lineGains (s : State) (prm : CamPrm) (g : CamGeom) (w y : Nat) : List Nat :=
  let S := 2 ^ g.cs
  let entry (m gy gx : Nat) : Nat := leNat (spaceRead s g.space (g.table + ((m * g.gy + gy) * g.gx + gx) * 2) 2)
  (List.range w).map fun x =>
    let c := patAt prm.pattern x y
    let m := (List.range c).countP fun d => patHas prm.pattern d
    let gx := x / S
    let gy := y / S
    gainAt (entry m gy gx) (entry m gy (gx + 1)) (entry m (gy + 1) gx) (entry m (gy + 1) (gx + 1)) (x % S) (y % S) g.cs

/-- Bytes of a flat-field table. -/
def tableLen (prm : CamPrm) (g : CamGeom) : Nat := (List.range 5).countP (patHas prm.pattern) * g.gx * g.gy * 2

/-- The first line of a frame is taken up: a committed set comes into force and its commands complete (R376, R377). -/
def frameBoundary (s : State) (k : Fin 8) (num : BitVec 16) : State :=
  let x := camCtx s k
  let s := match x.next with
    | none => s
    | some (g, sw) =>
      let s := modCtx s k fun x => { x with geom := g, next := none, waits := [] }
      let s := match sw with
        | some d => { s with nhd := { s.nhd with swatchNow := some d } }
        | none => s
      let s := x.waits.foldl (fun s w => finishLive s w.dead w.pair w.tag stOk 0 (if w.isSwatch then [] else [w32 num.toNat])) s
      let code := if x.waits.all (·.isSwatch) then 1 else if x.waits.any (·.isSwatch) then 2 else 0
      raise s 117 k.val code (w32 num.toNat)
  modFrame s k num fun f => { f with geom := (camCtx s k).geom }

/-- A line enters the stages (R375, R383-R388). -/
def stageLine (s : State) (k : Fin 8) (num : BitVec 16) (l : FifoLine) : State :=
  match camFrame s k num with
  | none => s
  | some f =>
    let x := camCtx s k
    let prm := x.prm
    let src := unpackLine f.kind f.rawBits l.px
    let black := if f.kind = 0 then (List.range src.length).map fun i => blackLevel prm i l.y (src.getD i (0, 0, 0)).1 else []
    let wants := f.kind == 0 && f.geom.flat && !f.flatBad
    let fails := wants && (accessErr s f.geom.space f.geom.table (tableLen prm f.geom) true).isSome
    let gains := if wants && !fails then lineGains s prm f.geom x.inW l.y else []
    let changed := match f.lines.head? with
      | some p => p.prm != prm
      | none => false
    let s := if fails then raise s 118 k.val 1 (w32 num.toNat) else s
    modFrame s k num fun f => { f with
      taken := f.taken + 1, endCt := s.ct, flatBad := f.flatBad || fails, paramChanged := f.paramChanged || changed
      lines := { y := l.y, prm := prm, src := src, black := black, gains := gains } :: f.lines.take 8 }

/-- A line is taken up (R380). A row leaves the stages once the four lines after it are in, since defect replacement and reconstruction
each look two lines ahead, or once no more come [A 51]. -/
def takeLine (s : State) (i : Fin 4) (given : Nat) (l : FifoLine) : State :=
  let k := l.ctx
  let w := (camCtx s k).inW
  let s := modIn s i fun c => { c with fifo := c.fifo.drop 1 }
  let s := { s with cam := { s.cam with turn := i, given := given, busyAt := max s.cam.busyAt (2 * s.ct) + w / 2 + 16 } }
  let s := match camFrame s k l.frame with
    | some f => if f.taken = 0 then frameBoundary s k l.frame else s
    | none => s
  let s := stageLine s k l.frame l
  let s := match camFrame s k l.frame with
    | some f => if f.nextRow + 4 ≤ l.y then emitRow s k l.frame else s
    | none => s
  settleCtx s k

/-- What a context writes, or the rings it claims from, lie in DRAM. -/
def writesDram (s : State) (k : Fin 8) : Bool :=
  let x := camCtx s k
  (x.prm.statEn && x.prm.statSpace == 1) || (x.geom.flat && x.geom.space == 1) ||
    x.prm.outs.toList.any (fun o => o.en && (vget s.bob.rings (camBob o.bob)).space == 1) || x.frames.any fun f => f.outs.toList.any fun o => o.buf.any (·.space == 1)

/-- PIPELINE_LINE: once the line before it has passed, the pipeline takes up the next line in turn; it holds while the write budget is
empty, while the DRC holds what the line needs (R382, R510, R523), and while the encoder still works on an earlier frame of the same context [A 51]. -/
def pipelineLine (s : State) : State :=
  match nextInput s with
  | none => s
  | some (i, given) =>
    match (camIn s i).fifo with
    | [] => s
    | l :: _ =>
      if ((camCtx s l.ctx).frames.head?.map (·.num)) != some l.frame then s
      else if accessHeld s 1 && writesDram s l.ctx then hold s .camLine
      else
        let s := advanceTo s (ceilDiv s.cam.busyAt 2)
        if budgetNow s ≤ 0 then { s with cam := { s.cam with heldFrom := some (s.cam.heldFrom.getD s.ct) } }
        else if s.cam.heldFrom.isSome then s
        else takeLine s i given l

def execPipelineLine (s : State) : Host.Outcome State Fault Refusal := .next (pipelineLine s)

/-- CAM_BUDGET_REFILL: the budget holds a byte again and the pipeline goes on (R382). -/
def camBudgetRefill (s : State) : State :=
  match s.cam.heldFrom with
  | none => s
  | some t =>
    let s := advanceTo s (s.ct + ceilDiv (400 - budgetNow s).toNat (max 1 s.cam.rate))
    if budgetNow s < 400 then s
    else { s with cam := { s.cam with heldFrom := none, heldCt := s.cam.heldCt + (s.ct - t), budget := budgetNow s, budgetAt := s.ct } }

def execCamBudgetRefill (s : State) : Host.Outcome State Fault Refusal := .next (camBudgetRefill s)

/-! ## Tacks (R378) -/

/-- A tack's fire arms the contexts that wait for it. -/
def camTack (s : State) (n : Fin 32) : State :=
  (indices 8).foldl (fun s k =>
    if (camCtx s k).en && (camCtx s k).prm.arm == n.val + 1 then modCtx s k fun x => { x with fires := x.fires ++ [s.ct] } else s) s

/-- ARM_WIN_LAPSE: a fire lapses without report once its window has passed. -/
def armWinLapse (k : Fin 8) (s : State) : State :=
  let x := camCtx s k
  match x.fires with
  | [] => s
  | t :: _ =>
    let s := advanceTo s (t + us x.prm.armWin + 1)
    modCtx s k fun x => { x with fires := liveFires s x }

def execArmWinLapse (k : Fin 8) (s : State) : Host.Outcome State Fault Refusal := .next (armWinLapse k s)

/-! ## Memory errors (R529) -/

/-- An uncorrectable error in the input FIFOs drops the frame of the line in that slot. -/
def fifoError (s : State) (addr : Nat) : State :=
  let n := (addr - 0x1AA0000) / 7680
  match idx 4 (n / 64) with
  | none => s
  | some i =>
    match (camIn s i).fifo.find? (·.slot == n % 64) with
    | none => s
    | some l => match camFrame s l.ctx l.frame with
      | some f => dropFrame s l.ctx f 4
      | none => s

end Sys2Proof.Machine
end

