-- ==== Sys2Proof/Machine/CamCmd.lean ====
section
/-! DEFINITION. The CAM commands (R372-R378, R385-R392, R396-R398, R406, R407). -/

namespace Sys2Proof.Machine

open Sys2Proof

/-- DETAIL values of R407. -/
def dCtxEnabled : Nat := 0x1001
def dMapConflict : Nat := 0x1002
def dDtUnsupported : Nat := 0x1003
def dWidthLimit : Nat := 0x1004
def dGeometry : Nat := 0x1005
def dCodedDepth : Nat := 0x1006
def dDefectList : Nat := 0x1007
def dPattern : Nat := 0x1008

/-- The context word 0 names. -/
def camCtxOf (c : Cmd) : Fin 8 := ⟨bits (pw c 0) 2 0, Nat.mod_lt _ (by decide)⟩
/-- Low and high half of a word. -/
def lo16 (w : Word) : Nat := bits w 15 0
def hi16 (w : Word) : Nat := bits w 31 16

/-! ## Inputs and streams -/

/-- The contexts an input feeds. -/
def fedBy (s : State) (i : Fin 4) : List (Fin 8) := (s.cam.map.toList.filter fun e => e.en && e.input == i).map (·.ctx)

/-- The lanes in use come from different pin pairs (R368). -/
def laneMapOk (n : Nat) (m : Word) : Bool :=
  ((List.range n).map fun k => bits m (2 * k + 1) (2 * k)).Nodup

/-- CAM.SET_INPUT (R368, R370, R380, R407); turning an input off drops the frames it has in progress, CODE 3 [A 51]. -/
def camSetInput (c : Cmd) (s : State) : CmdRes :=
  let w := pw c 0
  let i : Fin 4 := ⟨bits w 1 0, Nat.mod_lt _ (by decide)⟩
  let lanes := bits w 5 3
  let p0 := i.val = 3
  let n := bits (pw c 2) 4 0
  let x := camIn s i
  let changes := if p0 then x.p0 != pw c 2 else x.lanes != lanes || x.laneMap.toNat != bits (pw c 1) 7 0
  firstFail s
    [chkW ((!p0 && !(lanes == 1 || lanes == 2 || lanes == 4)) || bits w 11 8 == 0) 0, chkW (!p0 && !laneMapOk lanes (pw c 1)) 1,
      chkW (p0 && (n < 8 || n > 16)) 2, chkS (changes && (fedBy s i).any fun k => (camCtx s k).en) dCtxEnabled]
    (let on := bit w 2
     let s := modIn s i fun x => { x with
       en := on, lanes := lanes, weight := bits w 11 8, laneMap := BitVec.ofNat 8 (pw c 1).toNat, p0 := pw c 2
       started := x.started && x.en && on, deskewed := x.deskewed && x.en && on, ulps := x.ulps && on }
     let s := if on then s else (fedBy s i).foldl (fun s k =>
       let s := (camCtx s k).frames.foldl (fun s f => dropFrame s k f 3) s
       modCtx s k fun x => { x with open' := false }) s
     .ok (touch s .cam))

def camSetInputSpec : CmdSpec := fixedSpec 0x0701 [0xF3F, 0xFF, 0xFFFF03FF]

def execCamSetInput (c : Cmd) (s : State) : Host.Outcome State Fault Refusal :=
  .next (runCmd s camSetInputSpec c (camSetInput c))

/-- The data types of R368. -/
def dtOk (dt : Nat) : Bool := [0x2A, 0x2B, 0x2C, 0x2D, 0x2E, 0x1E, 0x24].contains dt

/-- The largest IN_W of a stream (R373). -/
def maxWidth (s : State) (i : Fin 4) (dt : Nat) : Nat :=
  if i.val = 3 then (if bits (camIn s i).p0 4 0 > 8 then 3840 else 4096)
  else if dt = 0x24 then 2560 else if dt = 0x2E || dt = 0x1E then 3840 else 4096

/-- Two enabled entries name the same stream or the same context (R372). -/
def entriesClash (a b : CamMap) : Bool :=
  a.en && b.en && (a.ctx == b.ctx || (a.input == b.input && (a.input.val == 3 || (a.vc == b.vc && a.dt == b.dt))))

/-- CAM.SET_MAP (R372, R373, R407). -/
def camSetMap (c : Cmd) (s : State) : CmdRes :=
  let w := pw c 0
  let n : Fin 16 := ⟨bits w 3 0, Nat.mod_lt _ (by decide)⟩
  let e : CamMap :=
    { en := bit w 4, input := ⟨bits w 6 5, Nat.mod_lt _ (by decide)⟩, vc := bits w 11 8, dt := bits w 21 16
      ctx := ⟨bits w 26 24, Nat.mod_lt _ (by decide)⟩ }
  let old := vget s.cam.map n
  firstFail s
    [chkP (e.en && e.input.val != 3 && !dtOk e.dt) dDtUnsupported,
      chkP ((indices 16).any fun m => m != n && entriesClash e (vget s.cam.map m)) dMapConflict,
      chkP (e.en && (camCtx s e.ctx).inW > maxWidth s e.input e.dt) dWidthLimit,
      chkS (e != old && ((old.en && (camCtx s old.ctx).en) || (e.en && (camCtx s e.ctx).en))) dCtxEnabled]
    (let s := { s with cam := { s.cam with map := vset s.cam.map n e } }
     let s := if e != old && old.en then modCtx s old.ctx fun x => { x with open' := false } else s
     .ok (touch s .cam))

def camSetMapSpec : CmdSpec := fixedSpec 0x0702 [0x073F0F7F]

def execCamSetMap (c : Cmd) (s : State) : Host.Outcome State Fault Refusal :=
  .next (runCmd s camSetMapSpec c (camSetMap c))

/-! ## Contexts -/

/-- A shadowed set fits a frame of w by h (R388, R398). -/
def geomOk (g : CamGeom) (w h : Nat) : Bool :=
  let S := 2 ^ g.cs
  g.cx + g.cw ≤ w && g.cy + g.ch ≤ h && g.px + g.pw ≤ w && g.py + g.ph ≤ h &&
  g.cw % 2 ^ g.bx == 0 && g.ch % 2 ^ g.by' == 0 && g.pw % (2 * 2 ^ g.sx) == 0 && g.ph % 2 ^ g.sy == 0 &&
  (!g.flat || (g.gx ≤ 65 && g.gy ≤ 65 && ceilDiv w S + 1 ≤ g.gx && ceilDiv h S + 1 ≤ g.gy))

/-- The stream that feeds a context has YUV422 pixels. -/
def ctxYuv (s : State) (k : Fin 8) : Bool :=
  match feedEntry s k with
  | some e => (vget s.cam.map e).input.val != 3 && (vget s.cam.map e).dt == 0x1E
  | none => false

def ctxMaxWidth (s : State) (k : Fin 8) : Nat :=
  match feedEntry s k with
  | some e => maxWidth s (vget s.cam.map e).input (vget s.cam.map e).dt
  | none => 4096

/-- CAM.SET_CONTEXT (R373, R374, R378, R403, R407). -/
def camSetContext (c : Cmd) (s : State) : CmdRes :=
  let k := camCtxOf c
  let x := camCtx s k
  let w := lo16 (pw c 1)
  let h := hi16 (pw c 1)
  let t := lo16 (pw c 2)
  let arm := bits (pw c 3) 5 0
  firstFail s
    [chkW (w % 2 == 1 || w < 16 || h < 16) 1, chkP (w > ctxMaxWidth s k) dWidthLimit, chkW (t < 1 || t > 1000) 2, chkW (arm > 32) 3,
      chkP ((w != x.inW || h != x.inH) && !geomOk x.geom w h) dGeometry,
      chkS (x.en && (w != x.inW || h != x.inH)) dCtxEnabled]
    (let on := bit (pw c 0) 3
     let s := if on then s else x.frames.foldl (fun s f => dropFrame s k f 2) s
     let s := modCtx s k fun x => { x with
       en := on, inW := w, inH := h
       prm := { x.prm with linear := bit (pw c 0) 4, timeoutMs := t, arm := arm, armWin := hi16 (pw c 3) }
       fires := if on && arm == x.prm.arm then x.fires else [] }
     .ok (touch s .cam))

def camSetContextSpec : CmdSpec := fixedSpec 0x0703 [0x1F, all32, 0xFFFF, 0xFFFF003F]

def execCamSetContext (c : Cmd) (s : State) : Host.Outcome State Fault Refusal :=
  .next (runCmd s camSetContextSpec c (camSetContext c))

/-- CAM.SET_SENSOR (R385-R387, R390, R407). -/
def camSetSensor (c : Cmd) (s : State) : CmdRes :=
  let k := camCtxOf c
  let x := camCtx s k
  match patPreset (bits (pw c 0) 7 4) (BitVec.ofNat 64 (addr64 (pw c 1) (pw c 2))) with
  | none => .badParam s 0
  | some pat =>
    firstFail s [chkP (!patOk pat) dPattern, chkS (x.en && pat != x.prm.pattern) dCtxEnabled]
      (.ok (touch (modCtx s k fun x => { x with prm := { x.prm with
        pattern := pat, bl := #v[lo16 (pw c 3), hi16 (pw c 3), lo16 (pw c 4), hi16 (pw c 4), lo16 (pw c 5)]
        dpcHi := lo16 (pw c 6), dpcLo := hi16 (pw c 6)
        kr := bits (pw c 7) 11 0, kg := bits (pw c 7) 27 16, kb := bits (pw c 8) 11 0 } }) .cam))

def camSetSensorSpec : CmdSpec := fixedSpec 0x0704 [0xF7, all32, all32, all32, all32, 0xFFFF, all32, 0x0FFF0FFF, 0xFFF]

def execCamSetSensor (c : Cmd) (s : State) : Host.Outcome State Fault Refusal :=
  .next (runCmd s camSetSensorSpec c (camSetSensor c))

/-- Half `i` of the words from word 1 on, signed. -/
def halfAt (c : Cmd) (i : Nat) : Int :=
  let w := pw c (1 + i / 2)
  if i % 2 = 0 then sbits w 15 0 else sbits w 31 16

/-- CAM.SET_MATRIX (R391). -/
def camSetMatrix (c : Cmd) (s : State) : CmdRes :=
  .ok (touch (modCtx s (camCtxOf c) fun x => { x with prm := { x.prm with
    m := Vector.ofFn fun i : Fin 12 => halfAt c i.val
    off := #v[sbits (pw c 7) 15 0, sbits (pw c 7) 31 16, sbits (pw c 8) 15 0] } }) .cam)

def camSetMatrixSpec : CmdSpec := fixedSpec 0x0705 [0x7, all32, all32, all32, all32, all32, all32, all32, 0xFFFF]

def execCamSetMatrix (c : Cmd) (s : State) : Host.Outcome State Fault Refusal :=
  .next (runCmd s camSetMatrixSpec c (camSetMatrix c))

/-- Little-endian halves of memory. -/
def halvesAt (m : Mem) (a n : Nat) : List Nat := (List.range n).map fun i => leNat (memRead m (a + 2 * i) 2)

/-- CAM.LOAD_TONE: the whole table switches between two lines (R375, R392, R407). -/
def camLoadTone (c : Cmd) (s : State) : CmdRes :=
  let a := addr64 (pw c 1) (pw c 2)
  firstFail s [chkW (a % 64 != 0 || !inSpace s 1 a 520) 1, (s.drc.frozen, stHwFault, 0)]
    (.ok (touch (modCtx s (camCtxOf c) fun x => { x with prm := { x.prm with tone := halvesAt s.dram a 260 } }) .cam))

def camLoadToneSpec : CmdSpec := fixedSpec 0x0706 [0x7, all32, all32] (async := true)

def loadToneCmd (c : Cmd) (s : State) : State := runReading s camLoadToneSpec c (.loadTone c) (camLoadTone c)

def execCamLoadTone (c : Cmd) (s : State) : Host.Outcome State Fault Refusal := .next (loadToneCmd c s)

/-- The entries ascend by y and then by x (R387). -/
def defectsRise : List (Nat × Nat) → Bool
  | a :: b :: ds => (a.2 < b.2 || (a.2 == b.2 && a.1 < b.1)) && defectsRise (b :: ds)
  | _ => true

/-- CAM.SET_DEFECTS (R375, R387, R407). -/
def camSetDefects (c : Cmd) (s : State) : CmdRes :=
  let k := camCtxOf c
  let n := (pw c 1).toNat
  let a := addr64 (pw c 2) (pw c 3)
  let ds := (List.range n).map fun i => let w := memWord s.dram (a + 4 * i); (lo16 w, hi16 w)
  if n > 4096 then .badParam s 1
  else firstFail s
    [chkW (a % 64 != 0 || !inSpace s 1 a (4 * n)) 2, (s.drc.frozen, stHwFault, 0),
      chkP (!(defectsRise ds && ds.all fun d => d.1 < (camCtx s k).inW && d.2 < (camCtx s k).inH)) dDefectList]
    (.ok (touch (modCtx s k fun x => { x with prm := { x.prm with defects := ds } }) .cam))

def camSetDefectsSpec : CmdSpec := fixedSpec 0x0707 [0x7, all32, all32, all32] (async := true)

def setDefectsCmd (c : Cmd) (s : State) : State := runReading s camSetDefectsSpec c (.setDefects c) (camSetDefects c)

def execCamSetDefects (c : Cmd) (s : State) : Host.Outcome State Fault Refusal := .next (setDefectsCmd c s)

/-! ## Outputs, geometry, statistics -/

/-- Reserved bits of word 1 depend on the output (R406). -/
def setOutputSpec : CmdSpec where
  op := 0x0708
  lenOk ws := ws.length == 2
  rsvOk ws :=
    let o := bits (ws.getD 0 0) 5 3
    only (ws.getD 0 0) 0x1FF && only (ws.getD 1 0) (if o = 0 then 0xF else if o = 2 then 0x37 else 0)

/-- CAM.SET_OUTPUT (R396, R398, R402, R407). -/
def camSetOutput (c : Cmd) (s : State) : CmdRes :=
  let k := camCtxOf c
  let w := pw c 0
  let v := pw c 1
  let prm := (camCtx s k).prm
  let on := bit w 6
  let b : Fin 4 := ⟨bits w 8 7, Nat.mod_lt _ (by decide)⟩
  match idx 7 (bits w 5 3) with
  | none => .badParam s 0
  | some o =>
    let vision := vget prm.outs (0 : Fin 7)
    let coded := vget prm.outs (2 : Fin 7)
    let cfg : OutCfg := { en := on, bob := b }
    let cfg := if o.val = 0 then { cfg with src := bits v 2 0, depth8 := bit v 3 }
      else if o.val = 2 then { cfg with tap := bit v 0, ratio := bits v 2 1, level := bits v 5 4 } else cfg
    firstFail s
      [chkW (o.val == 0 && (cfg.src > 4 || (ctxYuv s k && cfg.src != 0))) 1, chkW (o.val == 2 && cfg.ratio == 0) 1,
        chkP ((o.val == 2 && on && !cfg.tap && !vision.depth8) || (o.val == 0 && coded.en && !coded.tap && !cfg.depth8)) dCodedDepth]
      (.ok (touch (modCtx s k fun x => { x with prm := { x.prm with outs := vset x.prm.outs o cfg } }) .cam))

def execCamSetOutput (c : Cmd) (s : State) : Host.Outcome State Fault Refusal := .next (runCmd s setOutputSpec c (camSetOutput c))

/-- CAM.SET_GEOMETRY stages (R376, R398). -/
def camSetGeometry (c : Cmd) (s : State) : CmdRes :=
  let w := pw c 3
  firstFail s [chkW (bits w 1 0 == 3 || bits w 3 2 == 3) 3]
    (.ok (touch (modCtx s (camCtxOf c) fun x => { x with staged := { x.staged with
      cx := lo16 (pw c 1), cy := hi16 (pw c 1), cw := lo16 (pw c 2), ch := hi16 (pw c 2)
      bx := bits w 1 0, by' := bits w 3 2, sx := bits w 5 4, sy := bits w 7 6
      px := lo16 (pw c 4), py := hi16 (pw c 4), pw := lo16 (pw c 5), ph := hi16 (pw c 5) } }) .cam))

def camSetGeometrySpec : CmdSpec := fixedSpec 0x0709 [0x7, all32, all32, 0xFF, all32, all32]

def execCamSetGeometry (c : Cmd) (s : State) : Host.Outcome State Fault Refusal :=
  .next (runCmd s camSetGeometrySpec c (camSetGeometry c))

/-- CAM.SET_FLATFIELD stages (R376, R388, R406). -/
def camSetFlatfield (c : Cmd) (s : State) : CmdRes :=
  let on := bit (pw c 0) 3
  let sp := bits (pw c 0) 5 4
  let a := addr64 (pw c 1) (pw c 2)
  let gx := bits (pw c 3) 6 0
  let gy := bits (pw c 3) 14 8
  let cs := bits (pw c 3) 19 16
  firstFail s
    [chkW (on && !(sp == 1 || sp == 2)) 0, chkW (on && (a % 64 != 0 || !inSpace s sp a (2 * gx * gy))) 1,
      chkW (on && (cs < 4 || cs > 8 || gx > 65 || gy > 65)) 3]
    (.ok (touch (modCtx s (camCtxOf c) fun x => { x with staged := { x.staged with
      flat := on, space := sp, table := a, gx := gx, gy := gy, cs := cs } }) .cam))

def camSetFlatfieldSpec : CmdSpec := fixedSpec 0x070A [0x3F, all32, all32, 0xF7F7F]

def execCamSetFlatfield (c : Cmd) (s : State) : Host.Outcome State Fault Refusal :=
  .next (runCmd s camSetFlatfieldSpec c (camSetFlatfield c))

/-- The staged set of a context is committed: it joins a commit that waits (R376, R377). -/
def commitSet (s : State) (k : Fin 8) (sw : Option SwatchDef) (w : CamWait) : State :=
  modCtx s k fun x => { x with
    next := some (x.staged, match sw with
      | some d => some d
      | none => x.next.bind (·.2))
    waits := x.waits ++ [w] }

/-- The staged set does not fit the context (R377). -/
def stagedBad (s : State) (k : Fin 8) : Bool := !geomOk (camCtx s k).staged (camCtx s k).inW (camCtx s k).inH

/-- CAM.COMMIT (R376, R377, R407). -/
def camCommit (c : Cmd) (s : State) : CmdRes :=
  let k := camCtxOf c
  firstFail s [chkP (stagedBad s k) dGeometry] (.started (touch (commitSet s k none { pair := c.pair, tag := c.tag }) .cam))

def camCommitSpec : CmdSpec := fixedSpec 0x070B [0x7] (async := true)

def execCamCommit (c : Cmd) (s : State) : Host.Outcome State Fault Refusal :=
  .next (runCmd s camCommitSpec c (camCommit c))

/-- SYS.CANCEL of a waiting CAM.COMMIT: ABANDONED unless an NHD.SET_SWATCH has joined it (R407); none when it does not end. -/
def camCancel (s : State) (p : Fin 4) (tag : BitVec 16) : State :=
  (indices 8).foldl (fun s k =>
    let x := camCtx s k
    if x.waits.any (fun w => w.pair == p && w.tag == tag && !w.dead && !w.isSwatch) && !x.waits.any (·.isSwatch) then
      let left := x.waits.filter fun w => !(w.pair == p && w.tag == tag && !w.dead)
      finishTag (modCtx s k fun x => { x with waits := left, next := if left.isEmpty then none else x.next }) p tag stAbandoned 0
    else s) s

/-- CAM.SET_STATS (R394, R406). -/
def camSetStats (c : Cmd) (s : State) : CmdRes :=
  let on := bit (pw c 0) 3
  let sp := bits (pw c 0) 5 4
  let a := addr64 (pw c 1) (pw c 2)
  let b := addr64 (pw c 3) (pw c 4)
  firstFail s
    [chkW (on && !(sp == 1 || sp == 2)) 0, chkW (on && (a % 64 != 0 || !inSpace s sp a 6272)) 1,
      chkW (on && (b % 64 != 0 || !inSpace s sp b 6272)) 3]
    (.ok (touch (modCtx s (camCtxOf c) fun x => { x with
      prm := { x.prm with statEn := on, statSpace := sp, statA := a, statB := b }, statNext := false }) .cam))

def camSetStatsSpec : CmdSpec := fixedSpec 0x070C [0x3F, all32, all32, all32, all32]

def execCamSetStats (c : Cmd) (s : State) : Host.Outcome State Fault Refusal :=
  .next (runCmd s camSetStatsSpec c (camSetStats c))

/-- CAM.SET_RATE (R382). -/
def camSetRate (c : Cmd) (s : State) : CmdRes :=
  let r := bits (pw c 0) 11 0
  firstFail s [chkW (r < 250 || r > 2000) 0]
    (.ok (touch { s with cam := { s.cam with rate := r, budget := budgetNow s, budgetAt := s.ct } } .cam))

def camSetRateSpec : CmdSpec := fixedSpec 0x070D [0xFFF]

def execCamSetRate (c : Cmd) (s : State) : Host.Outcome State Fault Refusal :=
  .next (runCmd s camSetRateSpec c (camSetRate c))

end Sys2Proof.Machine
end

