-- ==== Sys2Proof/Machine/Nhd.lean ====
section
/-! DEFINITION. The nozzle map: staging, commits, whole-map copies, kernels, policy (R257-R267, R272, R294, R295). -/

namespace Sys2Proof.Machine

open Sys2Proof

def modNhd (s : State) (f : Nhd → Nhd) : State := { s with nhd := f s.nhd }

/-- DETAIL values of R295. -/
def dStagedFull : Nat := 0x1002
def dIndexRange : Nat := 0x1003
def dStateReserved : Nat := 0x1004
def dHemPending : Nat := 0x100C

/-- Nozzles of the map. -/
def nozzles : Nat := 196608

/-! ## Commits (R261-R266) -/

/-- Effective state as R259 gives it, without the reading of DEVIATED with DEV 0 that darning adds. -/
def heldState (s : State) (n : Nat) : Nat :=
  let e := entryState (mapEntry s n)
  if badWord s (nozzleMapBase + 2 * n) || s.nhd.overlay.getLsbD (n / 384 / 32) || e ≥ 5 then 3 else e

/-- What a commit changes of a nozzle: effective state, TRIM, DEV (R264). -/
def nozzleLook (s : State) (n : Nat) : Nat × Int × Int := (heldState s n, entryTrim (mapEntry s n), entryDev (mapEntry s n))

/-- Entries written from nozzle `n` on: the SRAM words they touch lose their error marks (R259, R264). -/
def writeEntries (s : State) (n : Nat) (bs : List Byte) : State :=
  let a := nozzleMapBase + 2 * n
  { s with
    sram := memWrite s.sram a bs
    drcx := { s.drcx with sramBad := s.drcx.sramBad.filter fun w => !(decide (w < a + bs.length ∧ a < w + 8)) } }

/-- Bytes of `k` entries of one value. -/
def entryBytes (v : BitVec 16) (k : Nat) : List Byte := (List.replicate k (natLe v.toNat 2)).flatten

/-- A staged item is written; the item staged later wins (R261). -/
def writeItem (s : State) (i : Staged) : State :=
  match i with
  | .entry n v => writeEntries s n (entryBytes v 1)
  | .range f c v => writeEntries s f (entryBytes v c)

/-- The nozzles of the map words an item touches. -/
def itemNozzles (i : Staged) : List Nat :=
  let (f, c) := match i with
    | .entry n _ => (n, 1)
    | .range f c _ => (f, c)
  List.range' (f / 4 * 4) ((f + c + 3) / 4 * 4 - f / 4 * 4)

/-- A plane's kernel replaced. -/
def putKernel (ks : Vector Kernel 8) (k : Nat × Kernel) : Vector Kernel 8 :=
  match idx 8 k.1 with
  | some p => vset ks p k.2
  | none => ks

/-- A commit's entries, kernels and overlay change in force. -/
def applyCommit (s : State) (j : CommitJob) : State :=
  let s := match j.image with
    | some bs => writeEntries s 0 bs
    | none => j.items.foldl writeItem s
  let s := modNhd s fun n => { n with kernels := j.kernels.foldl putKernel n.kernels }
  match j.overlay with
  | some (p, enter) =>
    let m : BitVec 16 := BitVec.ofNat 16 (2 ^ p.val)
    modNhd s fun n => { n with overlay := if enter then n.overlay ||| m else n.overlay &&& ~~~m }
  | none => s

/-- The dot and plane that a nozzle prints in a panel; off the panel it prints none (R142). -/
def dotsPrinted (pan : Panel) (n : Nat) : List (Nat × Int) :=
  pan.map.filterMap fun m =>
    let x := dotOf m (n % 384)
    if m.rowlane.val = n / 384 && m.first ≤ n % 384 && n % 384 < m.first + m.count && 0 ≤ x && x < pan.width then some (m.plane, x) else none

/-- A map entry prints a dot of the panel, in a plane, within 3 dots of `x` (R142, R264). -/
def within3 (pan : Panel) (m : MapEntry) (pl : Nat) (x : Int) : Bool :=
  m.plane == pl && (List.range 7).any fun d => x + d ≥ 3 && x + d - 3 < pan.width && (posAt m (x + d - 3).toNat).isSome

/-- Ports with a nozzle within reach of a dot of an open panel. -/
def portsNear (pan : Panel) (dots : List (Nat × Int)) : List (Fin 16) :=
  (indices 16).filter fun p => pan.map.any fun m => portOf m.rowlane == p && dots.any fun d => within3 pan m d.1 d.2

/-- The ports a commit affects (R264, R265). -/
def affected (s : State) (j : CommitJob) (changed : List Nat) : List (Fin 16) :=
  let near (pan : Panel) : List (Fin 16) := portsNear pan (changed.flatMap (dotsPrinted pan))
  let kern (pan : Panel) (p : Fin 16) : Bool := pan.map.any fun m => portOf m.rowlane == p && j.kernels.any (·.1 == m.plane)
  let overlaid (pan : Panel) : List (Fin 16) := match j.overlay with
    | some (q, _) => portsNear pan ((mappedLanes pan q).flatMap fun g => (List.range 384).flatMap fun k => dotsPrinted pan (nozzleOf g k))
    | none => []
  (indices 16).filter fun p => inPanel s p && (j.image.isSome ||
    (panels s).any fun pan => (near pan).contains p || kern pan p || (overlaid pan).contains p || j.overlay.any (·.1 == p))

def sourceCodeOf : CommitSource → Nat
  | .host => 0 | .gate => 1 | .swatch => 2 | .port => 3 | .load => 4

def portMask (ps : List (Fin 16)) : Nat := ((indices 16).filter ps.contains).foldl (fun m p => m + 2 ^ p.val) 0

/-- The command a commit completes: NHD.COMMIT_MAP and NHD.LOAD_MAP with version, tc and ports; a gate run or swatch with the version in
its own results (R294). -/
def commitReply (s : State) (j : CommitJob) (ports : Nat) : State :=
  finishOpt s j.cmd stOk 0 (match j.results with
    | some ws => ws.set (if j.source = .gate then 4 else 3) s.nhd.version
    | none => [s.nhd.version, w32 s.nhd.commitCt, w32 ports])

/-- A commit passed to PDP is a schedule write with the pair and tag of its command; an automatic one carries pair 0xFF and tag 0 (R267). -/
def scheduleCommit (s : State) (j : CommitJob) : State :=
  let (pair, tag) : BitVec 8 × BitVec 16 := match j.source, j.cmd with
    | .host, some c => (BitVec.ofNat 8 c.1.val, c.2)
    | .load, some c => (BitVec.ofNat 8 c.1.val, c.2)
    | _, _ => (0xFF, 0)
  schedule s pair tag 0x0503 [w32 j.mode]

/-- COMMIT_WRITE_END: the commit under way ends its write: version, tc, generation and recomputation of the affected ports, events, reply
(R176, R262-R264, R267, R268, R297). A commit's time is not counted [A 52]. -/
def commitWriteEnd (s : State) : State :=
  match s.nhd.writes with
  | [] => s
  | j :: rest =>
    let touched := if j.image.isSome then List.range nozzles else (j.items.flatMap itemNozzles).eraseDups
    let s1 := applyCommit (modNhd s fun n => { n with writes := rest }) j
    let changed := touched.filter fun n => nozzleLook s n != nozzleLook s1 n
    let s2 := modNhd s1 fun n => { n with version := n.version + 1, commitCt := s1.ct }
    let ports := affected s2 j changed
    let s3 := pdpChange (scheduleCommit s2 j) 8 (j.mode != 1) ports
    let s4 := raise s3 48 (sourceCodeOf j.source) j.mode s3.nhd.version (w32 changed.length) (w32 (portMask ports)) (w32 s3.nhd.commitCt)
    let s5 := match j.overlay with
      | some (p, enter) => raise s4 56 p.val (b2n (!enter)) s4.nhd.version
      | none => s4
    commitReply s5 j (portMask ports)

def execCommitWriteEnd (s : State) : Host.Outcome State Fault Refusal := .next (commitWriteEnd s)

/-- A commit starts its write, or waits for the hem of the active panel in MODE HEM (R168, R263). -/
def queueCommit (s : State) (j : CommitJob) : State :=
  if j.mode = 2 && s.pdp.active.isSome then modNhd s fun n => { n with hem := some j }
  else modNhd s fun n => { n with writes := n.writes ++ [j] }

/-- A HEM commit waits, or NHD.LOAD_MAP copies for one. -/
def hemTaken (s : State) : Bool :=
  s.nhd.hem.isSome || match s.nhd.load with
    | some (_, ws) => bits (ws.getD 2 0) 1 0 == 2
    | none => false

/-- The checks of a MODE word (R168, R263). -/
def commitModeChecks (s : State) (w : Word) (i : Nat) : List (Bool × Nat × Nat) :=
  [chkW (bits w 1 0 == 3) i, (bits w 1 0 == 2 && hemTaken s, stBusy, dHemPending)]

/-- NHD.COMMIT_MAP (R262, R263). -/
def nhdCommitMap (c : Cmd) (s : State) : CmdRes :=
  firstFail s (commitModeChecks s (pw c 0) 0)
    (let j : CommitJob := { mode := bits (pw c 0) 1 0, items := s.nhd.staged, kernels := s.nhd.stagedKernels, cmd := some (c.pair, c.tag) }
     .started (touch (queueCommit (modNhd s fun n => { n with staged := [], stagedKernels := [] }) j) .nhd))

def nhdCommitMapSpec : CmdSpec := fixedSpec 0x0503 [0x3] (async := true)

def execNhdCommitMap (c : Cmd) (s : State) : Host.Outcome State Fault Refusal :=
  .next (runCmd s nhdCommitMapSpec c (nhdCommitMap c))

/-! ## Staging (R261, R290, R295) -/

/-- Staged nozzle entries and ranges. -/
def stagedEntries (s : State) : Nat := s.nhd.staged.countP fun i => match i with
  | .entry _ _ => true
  | .range _ _ _ => false
def stagedRanges (s : State) : Nat := s.nhd.staged.length - stagedEntries s

/-- The item is the staged entry of a nozzle. -/
def isEntryOf (n : Nat) : Staged → Bool
  | .entry m _ => m == n
  | .range _ _ _ => false

/-- A nozzle is staged: it replaces its earlier entry, and clears its evidence (R261, R290). -/
def stageEntry (s : State) (n : Nat) (v : BitVec 16) : State :=
  modNhd s fun x => { x with
    staged := x.staged.filter (!isEntryOf n ·) ++ [.entry n v], evidence := x.evidence.filter (·.nozzle != n) }

/-- The entries of an NHD.SET_NOZZLES packet. -/
def nozzlePairs (c : Cmd) : List (Nat × BitVec 16) :=
  (List.range ((c.words.length - 1) / 2)).map fun i => ((pw c (2 * i + 1)).toNat, (pw c (2 * i + 2)).setWidth 16)

/-- Word 0 gives the number of entries that follow, two words each, the reserved bits of each clear (R294). -/
def setNozzlesSpec : CmdSpec where
  op := 0x0501
  lenOk ws := ws.length ≥ 1 && ws.length == 1 + 2 * (ws.getD 0 0).toNat
  rsvOk ws := (List.range (ws.length - 1)).all fun i => only (ws.getD (i + 1) 0) (if i % 2 = 0 then 0x3FFFF else 0xFFFF)

/-- NHD.SET_NOZZLES. -/
def nhdSetNozzles (c : Cmd) (s : State) : CmdRes :=
  let ps := nozzlePairs c
  let fresh := (ps.map (·.1)).eraseDups.filter fun n => !s.nhd.staged.any (isEntryOf n)
  let checks := [chkW (ps.length < 1 || ps.length > 1020) 0] ++
    ps.flatMap fun p => [chkP (p.1 ≥ nozzles) dIndexRange, chkP (entryState p.2 ≥ 5) dStateReserved]
  firstFail s checks
    (if stagedEntries s + fresh.length > 4096 then
      .done stNoResource dStagedFull [] (raise s 58 c.pair.val 0 (w32 ps.length) 0 0)
    else .ok (touch (ps.foldl (fun s p => stageEntry s p.1 p.2) s) .nhd))

def execNhdSetNozzles (c : Cmd) (s : State) : Host.Outcome State Fault Refusal := .next (runCmd s setNozzlesSpec c (nhdSetNozzles c))

/-- NHD.SET_RANGE. -/
def nhdSetRange (c : Cmd) (s : State) : CmdRes :=
  let f := (pw c 0).toNat
  let k := (pw c 1).toNat
  let v : BitVec 16 := (pw c 2).setWidth 16
  firstFail s [chkP (f ≥ nozzles) dIndexRange, chkW (k < 1) 1, chkP (f + k > nozzles) dIndexRange, chkP (entryState v ≥ 5) dStateReserved]
    (if stagedRanges s ≥ 64 then .done stNoResource dStagedFull [] (raise s 58 c.pair.val 1 0 1 (w32 k))
    else .ok (touch (modNhd s fun x => { x with
      staged := x.staged ++ [.range f k v], evidence := x.evidence.filter fun e => !(f ≤ e.nozzle && e.nozzle < f + k) }) .nhd))

def nhdSetRangeSpec : CmdSpec := fixedSpec 0x0502 [all32, all32, 0xFFFF]

def execNhdSetRange (c : Cmd) (s : State) : Host.Outcome State Fault Refusal :=
  .next (runCmd s nhdSetRangeSpec c (nhdSetRange c))

/-- NHD.DISCARD_STAGED. -/
def nhdDiscardStaged (_ : Cmd) (s : State) : CmdRes :=
  .ok (touch (modNhd s fun x => { x with staged := [], stagedKernels := [] }) .nhd) [w32 (stagedEntries s)]

def nhdDiscardStagedSpec : CmdSpec := fixedSpec 0x0504 []

def execNhdDiscardStaged (c : Cmd) (s : State) : Host.Outcome State Fault Refusal :=
  .next (runCmd s nhdDiscardStagedSpec c (nhdDiscardStaged c))

/-- NHD.SET_KERNEL (R272, R294). -/
def nhdSetKernel (c : Cmd) (s : State) : CmdRes :=
  let p := bits (pw c 0) 2 0
  let k : Kernel := { w1 := bits (pw c 1) 7 0, w2 := bits (pw c 1) 15 8, w3 := bits (pw c 1) 23 16, wr := bits (pw c 2) 8 0
                      weakGive := bits (pw c 2) 24 16, devMove := bits (pw c 3) 4 0 }
  firstFail s [chkW (k.wr > 256 || k.weakGive > 256) 2, chkW (k.devMove < 1 || k.devMove > 16) 3]
    (.ok (touch (modNhd s fun x => { x with stagedKernels := x.stagedKernels.filter (·.1 != p) ++ [(p, k)] }) .nhd))

def nhdSetKernelSpec : CmdSpec := fixedSpec 0x0507 [0x7, 0xFFFFFF, 0x01FF01FF, 0x1F]

def execNhdSetKernel (c : Cmd) (s : State) : Host.Outcome State Fault Refusal :=
  .next (runCmd s nhdSetKernelSpec c (nhdSetKernel c))

/-- NHD_POLICY is written; with PORT_OVERLAY cleared every port leaves the overlay (R260, R296) [A 52]. -/
def setPolicy (s : State) (w : Word) : State :=
  let s := modNhd s fun x => { x with autoGate := bit w 0, autoSwatch := bit w 1, autoMode := bits w 3 2, portOverlay := bit w 4 }
  if bit w 4 then s else (indices 16).foldl (fun s p => overlayChange s p false) s

/-- NHD.SET_POLICY, privileged (R260, R294, R296). -/
def nhdSetPolicy (c : Cmd) (s : State) : CmdRes :=
  firstFail s [chkW (bits (pw c 0) 3 2 == 3) 0] (.ok (touch (setPolicy s (pw c 0)) .nhd))

def nhdSetPolicySpec : CmdSpec := fixedSpec 0x0508 [0x1F] (priv := true)

def execNhdSetPolicy (c : Cmd) (s : State) : Host.Outcome State Fault Refusal :=
  .next (runCmd s nhdSetPolicySpec c (nhdSetPolicy c))

/-! ## Whole-map copies (R265, R266, R295) -/

def mapBusy (s : State) : Bool × Nat × Nat := (s.nhd.load.isSome || s.nhd.read.isSome, stBusy, 0)

/-- NHD.LOAD_MAP. -/
def nhdLoadMap (c : Cmd) (s : State) : CmdRes :=
  let a := addr64 (pw c 0) (pw c 1)
  firstFail s ([chkW (a % 64 != 0 || !inSpace s 1 a 393216) 0] ++ commitModeChecks s (pw c 2) 2 ++ [mapBusy s, (s.drc.frozen, stHwFault, 0)])
    (.started (touch (modNhd s fun x => { x with load := some (some (c.pair, c.tag), c.words) }) .nhd))

def nhdLoadMapSpec : CmdSpec := fixedSpec 0x0505 [all32, all32, 0x3] (async := true)

def execNhdLoadMap (c : Cmd) (s : State) : Host.Outcome State Fault Refusal :=
  .next (runCmd s nhdLoadMapSpec c (nhdLoadMap c))

/-- MAP_COPY_DONE: the image has been copied and is committed with its MODE (R265). -/
def mapCopyDone (s : State) : State :=
  match s.nhd.load with
  | none => s
  | some (cmd, ws) =>
    if !dramReady s then (if accessHeld s 1 then hold s .mapLoad else s)
    else
      let bs := memRead s.dram (addr64 (ws.getD 0 0) (ws.getD 1 0)) 393216
      queueCommit (modNhd s fun x => { x with load := none })
        { source := .load, mode := bits (ws.getD 2 0) 1 0, image := some bs, cmd := cmd }

def execMapCopyDone (s : State) : Host.Outcome State Fault Refusal := .next (mapCopyDone s)

/-- NHD.READ_MAP. -/
def nhdReadMap (c : Cmd) (s : State) : CmdRes :=
  let a := addr64 (pw c 0) (pw c 1)
  let f := (pw c 2).toNat
  let k := (pw c 3).toNat
  firstFail s [chkW (a % 64 != 0 || !inSpace s 1 a (2 * k)) 0, chkP (f ≥ nozzles || f + k > nozzles) dIndexRange, mapBusy s,
      (s.drc.frozen, stHwFault, 0)]
    (.started (touch (modNhd s fun x => { x with read := some (some (c.pair, c.tag), c.words) }) .nhd))

def nhdReadMapSpec : CmdSpec := fixedSpec 0x0506 [all32, all32, all32, all32] (async := true)

def execNhdReadMap (c : Cmd) (s : State) : Host.Outcome State Fault Refusal :=
  .next (runCmd s nhdReadMapSpec c (nhdReadMap c))

/-- MAP_READ_DONE: the range as it stands has been copied; the reply gives the version of the copy (R266). -/
def mapReadDone (s : State) : State :=
  match s.nhd.read with
  | none => s
  | some (cmd, ws) =>
    if !dramReady s then (if accessHeld s 1 then hold s .mapRead else s)
    else
      let w (i : Nat) : Word := ws.getD i 0
      let s := dramWrite s (addr64 (w 0) (w 1)) (memRead s.sram (nozzleMapBase + 2 * (w 2).toNat) (2 * (w 3).toNat))
      finishOpt (modNhd s fun x => { x with read := none }) cmd stOk 0 [s.nhd.version]

def execMapReadDone (s : State) : Host.Outcome State Fault Refusal := .next (mapReadDone s)

/-- A frozen DRAM controller ends both copies with HW_FAULT; a failed load commits nothing (R295). -/
def mapFreeze (s : State) : State :=
  let s := match s.nhd.load with
    | some (cmd, _) => finishOpt (modNhd s fun x => { x with load := none }) cmd stHwFault 0
    | none => s
  match s.nhd.read with
  | some (cmd, _) => finishOpt (modNhd s fun x => { x with read := none }) cmd stHwFault 0
  | none => s

/-! ## Map memory errors (R259, R529) -/

/-- EV_NHD_MAP_ECC for a map word: corrected, or uncorrectable, which leaves its nozzles MISSING. DATA0 is the word's first nozzle [A 52]. -/
def mapEcc (s : State) (addr : Nat) (uncorrectable : Bool) : State :=
  let s := modNhd s fun x =>
    if uncorrectable then { x with eccUnc := satAdd 0xFFFF x.eccUnc 1 } else { x with eccCorr := satAdd 0xFFFF x.eccCorr 1 }
  raise s 55 0 (b2n uncorrectable) (w32 ((addr / 8 * 8 - nozzleMapBase) / 2))

end Sys2Proof.Machine
end

