-- ==== Sys2Proof/Machine/Gate.lean ====
section
/-! DEFINITION. The two detectors: optical gates (R277-R284) and swatches (R285-R293). -/

namespace Sys2Proof.Machine

open Sys2Proof

def gateOf (s : State) (g : Fin 2) : Gate := vget s.nhd.gates g
def modGate (s : State) (g : Fin 2) (f : Gate → Gate) : State := modNhd s fun n => { n with gates := vmod n.gates g f }
def modGateRun (s : State) (g : Fin 2) (f : GateRun → GateRun) : State := modGate s g fun x => { x with run := x.run.map f }

/-- DETAIL values of R295. -/
def dNhdPanelOpen : Nat := 0x1001
def dGateBusy : Nat := 0x1005
def dGateInterlock : Nat := 0x1006
def dSwatchBehind : Nat := 0x1007
def dSwatchLayer : Nat := 0x1008
def dNhdNoHead : Nat := 0x100B
def dCodeWide : Nat := 0x100D
def dNoSwatch : Nat := 0x100E
def dNhdPortDown : Nat := 0x100F

/-- NHD.SET_GATE (R277, R294). -/
def nhdSetGate (c : Cmd) (s : State) : CmdRes :=
  let g : Fin 2 := ⟨bits (pw c 0) 0 0, Nat.mod_lt _ (by decide)⟩
  .ok (touch (modGate s g fun x => { x with sink := bits (pw c 0) 3 1, thresh := bits (pw c 1) 11 0, delay := bits (pw c 2) 15 0 }) .nhd)

def nhdSetGateSpec : CmdSpec := fixedSpec 0x0509 [0xF, 0xFFF, 0xFFFF]

def execNhdSetGate (c : Cmd) (s : State) : Host.Outcome State Fault Refusal :=
  .next (runCmd s nhdSetGateSpec c (nhdSetGate c))

/-- T_lim of the head on a port (R236, R295). -/
def headTLim (s : State) (p : Fin 16) : Nat :=
  match (hport s p).rank with
  | some r => tLimOf (min 80000 r.maxRate)
  | none => 0

/-- The conditions of a gate run in the order of R283, each with its status. -/
def gateConditions (s : State) (p : Fin 16) (code : Nat) : List (Bool × Nat × Nat) :=
  [chkS (!(hport s p).identified) dNhdNoHead, chkP (code ≥ 2 ^ codeWidth s p) dCodeWide, (!jetOk s, stInterlock, 0),
    chkS (!portUp s p) dNhdPortDown, (!headInWindow s p, stThermal, 0), chkS (panelOpen s) dNhdPanelOpen]

/-- The rows a run names. -/
def gateRows (w : Word) : List (Fin 32) := (indices 32).filter fun r => bit w r.val

/-- The earliest instant a drop started now can fire at: lead, one way of the link and the guard of a stitch frame (R230) [A 52]. -/
def gateReach (s : State) (p : Fin 16) : Nat := s.ct + s.fir.lead + portDelayCt s p + 400

/-- NHD.GATE_RUN (R278-R284, R294, R295). -/
def nhdGateRun (c : Cmd) (s : State) : CmdRes :=
  let w := pw c 0
  let g : Fin 2 := ⟨bits w 0 0, Nat.mod_lt _ (by decide)⟩
  let p : Fin 16 := ⟨bits w 7 4, Nat.mod_lt _ (by decide)⟩
  let drops := bits w 16 12
  let hitMin := bits w 21 17
  let rows := gateRows (pw c 1)
  let first := bits (pw c 2) 8 0
  let count := bits (pw c 2) 24 16
  let period := (pw c 3).toNat
  let (lo, hi) := (lo16 (pw c 4), hi16 (pw c 4))
  let buf := addr64 (pw c 7) (pw c 8)
  let other : Fin 2 := ⟨1 - g.val, by omega⟩
  let busy := (gateOf s g).run.isSome || (match (gateOf s other).run with
    | some r => r.port == p
    | none => false)
  let ns := rows.flatMap fun r => (List.range count).map fun k => nozzleOf (laneOf p r) (first + k)
  firstFail s (gateConditions s p (bits w 11 8) ++
    [(busy, stBusy, dGateBusy), chkW (drops < 1 || drops > 16 || hitMin < 1 || hitMin > drops) 0,
      chkW (rows.isEmpty || rows.any fun r => rowNozzles s p r.val == 0) 1,
      chkW (count < 1 || count > 384 || rows.any fun r => first + count > rowNozzles s p r.val) 2,
      chkW (period < headTLim s p) 3, chkW (hi < lo || 4 * (hi - lo) ≥ period) 4, chkW (!inSpace s 1 buf (8 * ns.length)) 7])
    (let r : GateRun := { pair := c.pair, tag := c.tag, port := p, panel := s.fw.nextPanel, code := bits w 11 8, drops := drops, hitMin := hitMin
                          nozzles := ns, period := period, tofLo := lo, tofHi := hi, tofMin := lo16 (pw c 5), tofMax := hi16 (pw c 5)
                          ampWeak := bits (pw c 6) 11 0, buf := buf, nextAt := max (s.ct + 800) (gateReach s p) }
     let s := { s with fw := { s.fw with nextPanel := s.fw.nextPanel + 1 } }
     .started (touch (modGate s g fun x => { x with run := some r, pos := ns.headD 0 }) .nhd))

def nhdGateRunSpec : CmdSpec := fixedSpec 0x050A [0x3FFFF1, all32, 0x01FF01FF, all32, all32, all32, 0xFFF, all32, all32] (async := true)

def execNhdGateRun (c : Cmd) (s : State) : Host.Outcome State Fault Refusal :=
  .next (runCmd s nhdGateRunSpec c (nhdGateRun c))

/-- Every condition of R283 still holds during the run. -/
def gateHolds (s : State) (p : Fin 16) : Bool :=
  (hport s p).identified && jetOk s && portUp s p && headInWindow s p

/-- The run stands at a nozzle boundary. -/
def atBoundary (r : GateRun) : Bool := r.fired % r.drops == 0

/-- GATE_DROP: the next drop of a run goes out as a one-nozzle line with its data and stitch frames (R278, R283, R284). -/
def gateDrop (g : Fin 2) (s : State) : State :=
  match (gateOf s g).run with
  | none => s
  | some r =>
    if r.fired ≥ r.drops * r.nozzles.length || r.pausedAt.isSome || r.stop == some true || (atBoundary r && (r.pauseReq || r.stop.isSome)) then s
    else
      let s := advanceTo s (r.nextAt - s.fir.lead - portDelayCt s r.port - 400)
      if !gateHolds s r.port then modGateRun s g fun r => { r with stop := some true }
      else
        let n := r.nozzles.getD (r.fired / r.drops) 0
        let row : Fin 32 := ⟨n / 384 % 32, Nat.mod_lt _ (by decide)⟩
        let at' := max r.nextAt (gateReach s r.port)
        let codes := (List.range (rowNozzles s r.port row.val)).map fun k => if k = n % 384 then r.code else 0
        let s := sendLine s r.port r.panel r.fired [(row.val, packRow (codeWidth s r.port) codes)] s.pdp.gen none
        let st : Stitch := { panel := r.panel, line := r.fired, epoch := (vget s.ep (epIdx .nhd)).epoch, rows := [(row, at')] }
        let s := giveStitch s r.port st
        modGate (modGateRun s g fun r => { r with fired := r.fired + 1, shots := r.shots ++ [at'], nextAt := at' + r.period }) g
          fun x => { x with pos := n }

def execGateDrop (g : Fin 2) (s : State) : Host.Outcome State Fault Refusal := .next (gateDrop g s)

/-- GATE_CROSSING: the signal falls more than THRESH below the baseline; the stamp, less DELAY, belongs to the drop in whose window it
lies, which counts its first crossing (R277, R279). -/
def gateCrossing (g : Fin 2) (baseline depth : Nat) (s : State) : State :=
  let s := modGate s g fun x => { x with baseline := baseline }
  let x := gateOf s g
  match x.run with
  | none => s
  | some r =>
    let t := s.ct - x.delay
    let hit := (List.range r.shots.length).find? fun i =>
      let f := r.shots.getD i 0
      f + 4 * r.tofLo ≤ t && t ≤ f + 4 * r.tofHi && !r.hits.any (·.1 == i)
    match hit with
    | some i => if depth > x.thresh then modGateRun s g fun r => { r with hits := r.hits ++ [(i, t - r.shots.getD i 0, depth)] } else s
    | none => s

def execGateCrossing (g : Fin 2) (baseline depth : BitVec 12) (s : State) : Host.Outcome State Fault Refusal :=
  .next (gateCrossing g baseline.toNat depth.toNat s)

/-- GATE_RESUME: 250 us after a pause for calibration the run goes on with the next nozzle (R284). -/
def gateResume (g : Fin 2) (s : State) : State :=
  match (gateOf s g).run with
  | none => s
  | some r =>
    match r.pausedAt with
    | none => s
    | some t =>
      let s := advanceTo s (t + 100000)
      modGateRun s g fun r => { r with pausedAt := none, pauseReq := false, nextAt := max r.nextAt (gateReach s r.port) }

def execGateResume (g : Fin 2) (s : State) : Host.Outcome State Fault Refusal := .next (gateResume g s)

/-- Class of a tested nozzle: 0 OK, 1 INTERMITTENT, 2 LOW, 3 SLOW, 4 FAST, 5 ABSENT (R280). -/
def gateClass (r : GateRun) (hits : List (Nat × Nat × Nat)) : Nat :=
  let tof := median (hits.map (·.2.1))
  let depth := (hits.map (·.2.2)).sum / max 1 hits.length
  if hits.length < r.hitMin then 5
  else if tof > 4 * r.tofMax then 3
  else if tof < 4 * r.tofMin then 4
  else if hits.length < r.drops then 1
  else if depth < r.ampWeak then 2
  else 0

/-- The change proposed for a nozzle of effective state `st` and a class: never for a DISABLED nozzle, TRIM and DEV kept, none when the entry
stays (R258, R259, R280). -/
def gateProposal (e : BitVec 16) (st cls : Nat) : Option (BitVec 16) :=
  let with' (st : Nat) : Option (BitVec 16) :=
    let v := BitVec.ofNat 16 (e.toNat / 8 * 8 + st)
    if v = e then none else some v
  if st = 4 then none
  else if cls = 5 || cls = 3 || cls = 4 then with' 3
  else if cls = 1 || cls = 2 then with' 1
  else if st = 0 || st = 2 then none else with' 0

/-- The record of nozzle `j` of the run, with its proposal (R281). -/
def gateRecord (s : State) (r : GateRun) (done j : Nat) : GateRec × Option (BitVec 16) :=
  let n := r.nozzles.getD j 0
  if j ≥ done then ({ nozzle := n }, none)
  else
    let hits := r.hits.filter fun h => h.1 / r.drops == j
    let cls := gateClass r hits
    let prop := gateProposal (mapEntry s n) (heldState s n) cls
    ({ nozzle := n, cls := cls, changed := prop.isSome, hits := hits.length, tof := min 0xFFFF (median (hits.map (·.2.1)) / 4)
       depth := (hits.map (·.2.2)).sum / max 1 hits.length }, prop)

def gateRecBytes (x : GateRec) : List Byte :=
  wordBytes [pack [(x.nozzle, 0), (x.cls, 18), (b2n x.changed, 21), (x.hits, 22)], pack [(x.tof, 0), (x.depth, 16)]]

/-- GATE_RUN_END: the last window has passed, a condition was lost, or the run is cancelled: records, proposals, event, status
(R279-R284, R297). -/
def gateRunEnd (g : Fin 2) (s : State) : State :=
  match (gateOf s g).run with
  | none => s
  | some r =>
    let all := r.fired ≥ r.drops * r.nozzles.length
    let lost := r.stop == some true
    let cancelled := r.stop == some false && atBoundary r
    if !(all || lost || cancelled) then s
    else
      let s := advanceTo s (r.shots.getLastD 0 + 4 * r.tofHi)
      let done := if all then r.nozzles.length else r.fired / r.drops
      let rs := (List.range r.nozzles.length).map (gateRecord s r done)
      let recs := rs.map (·.1)
      let items := rs.filterMap fun x => x.2.map fun v => Staged.entry x.1.nozzle v
      let n (f : Nat → Bool) : Nat := recs.countP fun x => f x.cls
      let counts := [w32 done, w32 (n (· == 5)), w32 (n fun k => k == 3 || k == 4), w32 (n fun k => k == 1 || k == 2)]
      let code := if all then 0 else if lost then 1 else 2
      let s := modGate s g fun x => { x with run := none }
      let frozen := s.drc.frozen
      let s := if frozen then s else dramPut s r.buf (recs.flatMap gateRecBytes)
      let commit := s.nhd.autoGate && !items.isEmpty && code != 2
      let s := modNhd s fun x => { x with proposed := if commit then 0 else min 0xFFFF items.length }
      let s := raise s 49 g.val code (w32 done) (counts.getD 1 0) (counts.getD 2 0) (counts.getD 3 0)
      let replies := code == 0 && !frozen
      let job : CommitJob := { source := .gate, items := items, cmd := if replies && !r.dead then some (r.pair, r.tag) else none
                               results := some (counts ++ [0]) }
      let s := if commit then queueCommit s job else s
      if commit && replies then s
      else if frozen then finishLive s r.dead r.pair r.tag stHwFault 0
      else if code = 0 then finishLive s r.dead r.pair r.tag stOk 0 (counts ++ [0])
      else if code = 1 then finishLive s r.dead r.pair r.tag stFailed dGateInterlock
      else finishLive s r.dead r.pair r.tag stAbandoned 0

def execGateRunEnd (g : Fin 2) (s : State) : Host.Outcome State Fault Refusal := .next (gateRunEnd g s)

/-! ## Swatches -/

/-- Word 9 gives the number of row-lanes that follow (R294). -/
def setSwatchSpec : CmdSpec where
  op := 0x050B
  lenOk ws := ws.length ≥ 10 && ws.length == 10 + (ws.getD 9 0).toNat
  rsvOk ws :=
    (ws.zip [0x0FFF1F3F, 0x7, all32, all32, all32, all32, all32, 0x3F3FFFFF, 0x0771FFFF]).all (fun p => only p.1 p.2) &&
      (ws.drop 10).all fun w => only w 0x7FF

/-- The definition of a packet. -/
def swatchOf (c : Cmd) : SwatchDef :=
  let w := pw c 0
  { stride := bits w 5 0, dash := bits w 12 8, pitch := bits w 23 16, code := bits w 27 24
    context := ⟨bits (pw c 1) 2 0, Nat.mod_lt _ (by decide)⟩, delay := (pw c 2).toNat
    u0 := sbits (pw c 3) 31 0, du := sbits (pw c 4) 31 0, v0 := (pw c 5).toNat, dv := (pw c 6).toNat
    missFrac := bits (pw c 7) 7 0, weakFrac := bits (pw c 7) 15 8, devLimit := bits (pw c 7) 21 16, trimHyst := bits (pw c 7) 29 24
    bg := bits (pw c 8) 15 0, pol := bit (pw c 8) 16, confirmBad := bits (pw c 8) 22 20, confirmGood := bits (pw c 8) 26 24
    rows := (c.words.drop 10).map fun v => (⟨bits v 8 0, Nat.mod_lt _ (by decide)⟩, bits v 10 9) }

/-- NHD.SET_SWATCH: defines the swatch and commits the context's shadowed set; it completes at the frame boundary
(R285, R287, R376, R377) [A 53]. -/
def nhdSetSwatch (c : Cmd) (s : State) : CmdRes :=
  let d := swatchOf c
  firstFail s
    [(s.nhd.run.isSome, stBusy, 0),
      chkW (d.stride < 4 || d.stride > 32 || d.dash < 2 || d.pitch < d.dash + 2 || d.code < 1) 0, chkW (d.du == 0) 4, chkW (d.dv == 0) 6,
      chkW (d.confirmBad < 1 || d.confirmGood < 1) 8, chkW (d.rows.length < 1 || d.rows.length > 512) 9, chkP (stagedBad s d.context) dGeometry]
    (.started (touch (commitSet (modNhd s fun n => { n with swatch := some d }) d.context (some d)
      { pair := c.pair, tag := c.tag, isSwatch := true }) .nhd))

def execNhdSetSwatch (c : Cmd) (s : State) : Host.Outcome State Fault Refusal := .next (runCmd s setSwatchSpec c (nhdSetSwatch c))

/-- The dots a listed row-lane prints in a panel, with their plane; none off the panel (R142). -/
def laneDots (pan : Panel) (g : Fin 512) : List (Nat × Int) :=
  match pan.map.find? (·.rowlane == g) with
  | some m => ((List.range m.count).map fun i => (m.plane, dotOf m (m.first + i))).filter fun d => 0 ≤ d.2 && d.2 < pan.width
  | none => []

/-- Two row-lanes of one layer print the same dot of one plane (R285). -/
def layersClash (pan : Panel) : List (Fin 512 × Nat) → Bool
  | [] => false
  | (g, l) :: rest => rest.any (fun h => h.2 == l && (laneDots pan g).any ((laneDots pan h.1).contains ·)) || layersClash pan rest

/-- NHD.PRINT_SWATCH (R285, R292, R295). -/
def nhdPrintSwatch (c : Cmd) (s : State) : CmdRes :=
  let num : BitVec 16 := (pw c 0).setWidth 16
  let start := (pw c 1).toNat
  let buf := addr64 (pw c 2) (pw c 3)
  match s.nhd.swatch with
  | none => .badState s dNoSwatch
  | some d =>
    if s.nhd.run.isSome then .reject s stBusy 0
    else match panelNamed s num with
      | none => .badParam s 0
      | some pan =>
        let ports := (indices 16).filter fun p => d.rows.any fun g => portOf g.1 == p
        let total := (d.rows.map fun g => rowNozzles s (portOf g.1) (rowOf g.1).val).sum
        firstFail s
          [chkS (pan.base + start < nowC s) dSwatchBehind, chkW (start + swatchLen d > pan.lines) 1,
            chkP (ports.any fun p => d.code ≥ 2 ^ codeWidth s p) dCodeWide, chkP (layersClash pan d.rows) dSwatchLayer,
            chkW (!inSpace s 1 buf (8 * total)) 2]
          (let r : SwatchRun :=
             { pair := c.pair, tag := c.tag, panel := num, base := pan.base, map := pan.map, width := pan.width, start := start, buf := buf }
           .started (scheduleCmd (touch (modNhd s fun n => { n with run := some r }) .nhd) c 0x050C))

def nhdPrintSwatchSpec : CmdSpec := fixedSpec 0x050C [0xFFFF, all32, all32, all32] (async := true)

def execNhdPrintSwatch (c : Cmd) (s : State) : Host.Outcome State Fault Refusal :=
  .next (runCmd s nhdPrintSwatchSpec c (nhdPrintSwatch c))

/-- Division rounded to the nearest integer, halves away from zero; the divisor is positive (R288). -/
def roundAway (n d : Int) : Int := if n ≥ 0 then (2 * n + d) / (2 * d) else -((-2 * n + d) / (2 * d))

/-- A pixel of the image; none outside it. -/
def pixelAt (img : List (List Nat)) (u v : Int) : Option Nat :=
  if u < 0 || v < 0 then none
  else match img[v.toNat]? with
    | some row => row[u.toNat]?
    | none => none

/-- What the detector measures of a nozzle's dash: s and the moment m in 2^-16; none when its window leaves the frame (R288). -/
def dashSums (d : SwatchDef) (img : List (List Nat)) (x : Int) (sLine : Nat) : Option (Nat × Int) :=
  let uc : Int := d.u0 + x * d.du
  let wide : Int := (d.du.natAbs * d.stride : Nat)
  let ulo := roundAway (2 * uc - wide) (2 * 65536)
  let uhi := roundAway (2 * uc + wide) (2 * 65536)
  let vlo := roundAway ((d.v0 + (sLine + 1) * d.dv : Nat) : Int) 65536
  let vhi := roundAway ((d.v0 + (sLine + d.dash - 1) * d.dv : Nat) : Int) 65536
  let cells := (List.range (vhi - vlo).toNat).flatMap fun j => (List.range (uhi - ulo).toNat).map fun i => (ulo + (i : Nat), vlo + (j : Nat))
  if cells.any fun q => (pixelAt img q.1 q.2).isNone then none
  else some (cells.foldl (fun acc q =>
    let p := (pixelAt img q.1 q.2).getD 0
    let a := if d.pol then p - d.bg else d.bg - p
    (acc.1 + a, acc.2 + a * (q.1 * 65536 - uc))) (0, (0 : Int)))

/-- A value held within bounds. -/
def clampInt (lo hi v : Int) : Int := max lo (min hi v)

/-- dev in 1/16 dot (R288). -/
def dashDev (d : SwatchDef) (sm : Nat × Int) : Int :=
  if sm.1 = 0 then 0
  else
    let den : Int := sm.1 * d.du
    let num : Int := 16 * sm.2
    clampInt (-64) 63 (if den < 0 then roundAway (-num) (-den) else roundAway num den)

/-- TRIM_meas (R288). -/
def dashTrim (sRef s : Nat) : Int := if s = 0 then 31 else clampInt (-32) 31 (roundAway (64 * sRef : Nat) s - 64)

/-- A nozzle of the swatch: index, plane, what was measured. -/
structure SwatchNoz where
  nozzle : Nat := 0
  plane : Nat := 0
  disabled : Bool := false
  sums : Option (Nat × Int) := none

/-- The nozzles of the listed row-lanes in ascending index, each measured unless DISABLED, unmapped, off the panel, not fired or outside the
frame (R142, R286, R288, R289, R291). -/
def swatchNozzles (s : State) (r : SwatchRun) (d : SwatchDef) : List SwatchNoz :=
  let lanes := (indices 512).filterMap fun g => (d.rows.find? (·.1 == g))
  lanes.flatMap fun (g, layer) => (List.range (rowNozzles s (portOf g) (rowOf g).val)).map fun k =>
    let n := nozzleOf g k
    let off := effState s n == 4
    match r.map.find? fun m => m.rowlane == g && m.first ≤ k && k < m.first + m.count with
    | none => { nozzle := n, disabled := off }
    | some m =>
      let x := dotOf m k
      if x < 0 || x ≥ r.width then { nozzle := n, disabled := off }
      else
        let sLine := (layer * d.stride + (x % d.stride).toNat) * d.pitch
        let fired := (List.range d.dash).all fun i => r.ended.contains (portOf g, r.start + sLine + i, true)
        { nozzle := n, plane := m.plane, disabled := off, sums := if fired && !off then dashSums d r.image x sLine else none }

/-- S_ref of a plane: the lower median of s over its measured nozzles (R288). -/
def sRefOf (ns : List SwatchNoz) (pl : Nat) : Nat := median (ns.filterMap fun n => if n.plane = pl then n.sums.map (·.1) else none)

/-- The class of R289; 4 DISABLED, 7 NOT_MEASURED. -/
def swatchClass (d : SwatchDef) (sRef : Nat) (n : SwatchNoz) : Nat :=
  if n.disabled then 4
  else match n.sums with
    | none => 7
    | some sm =>
      if sm.1 * 256 < sRef * d.missFrac then 3
      else if (dashDev d sm).natAbs ≥ d.devLimit then 2
      else if sm.1 * 256 < sRef * d.weakFrac then 1
      else 0

/-- An entry from its fields (R257). -/
def makeEntry (st : Nat) (trim dev : Int) : BitVec 16 := BitVec.ofNat 16 (st + 8 * toBits 6 trim + 512 * toBits 7 dev)

/-- The candidate entry of a class (R289). -/
def candidate (d : SwatchDef) (e : BitVec 16) (cls : Nat) (trim dev : Int) : BitVec 16 :=
  let old := entryTrim e
  let t := if (trim - old).natAbs < d.trimHyst then old else trim
  match cls with
  | 3 => makeEntry 3 old (entryDev e)
  | 2 => makeEntry 2 t dev
  | c => makeEntry c t (entryDev e)

/-- The evidence of a nozzle after this swatch (R290). -/
def nextEvidence (es : List Evidence) (n cls : Nat) : Evidence :=
  match es.find? (·.nozzle == n) with
  | some e => if e.cls = cls then { e with count := e.count + 1 } else { nozzle := n, cls := cls, count := 1 }
  | none => { nozzle := n, cls := cls, count := 1 }

/-- The change proposed for a measured nozzle of effective state `st`: one of STATE once it is confirmed, one of TRIM or DEV alone at once
(R259, R290). -/
def swatchProposal (d : SwatchDef) (e : BitVec 16) (st : Nat) (ev : Evidence) (cand : BitVec 16) : Option (BitVec 16) :=
  if entryState cand = st then (if cand = e then none else some cand)
  else if ev.count ≥ (if ev.cls = 0 then d.confirmGood else d.confirmBad) then some cand else none

/-- A nozzle's record and what it leads to: class, bytes, evidence, proposal. Fields the spec gives no value for, of a nozzle that was not
measured and RATIO without a reference, are free: `free` (R291) [A 1]. -/
def swatchRecord (s : State) (d : SwatchDef) (ns : List SwatchNoz) (n : SwatchNoz) (free : Word) :
    Nat × List Byte × Option Evidence × Option (BitVec 16) :=
  let sRef := sRefOf ns n.plane
  let cls := swatchClass d sRef n
  let head (ch : Bool) : Word := pack [(n.nozzle, 0), (cls, 18), (b2n ch, 21)]
  match n.disabled, n.sums with
  | false, some sm =>
    let dev := dashDev d sm
    let trim := dashTrim sRef sm.1
    let e := mapEntry s n.nozzle
    let ev := nextEvidence s.nhd.evidence n.nozzle cls
    let prop := swatchProposal d e (heldState s n.nozzle) ev (candidate d e cls trim dev)
    let ratio := if sRef = 0 then bits free 15 0 else min 0xFFFF (4096 * sm.1 / sRef)
    (cls, wordBytes [head prop.isSome, pack [(ratio, 0), (toBits 7 dev, 16), (toBits 6 trim, 23)]], some ev, prop)
  | _, _ => (cls, wordBytes [head false, w32 (bits free 28 0)], none, none)

/-- SWATCH_ANALYSIS_DONE: the bound frame has ended in order and the detector finishes: records, evidence, proposals, event, status
(R288-R291, R293, R297). -/
def swatchAnalysisDone (s : State) : State :=
  match s.nhd.run, s.nhd.swatch with
  | some r, some d0 =>
    if r.frameEnd != some 0 then s
    else
      let d := s.nhd.swatchNow.getD d0
      let ns := swatchNozzles s r d
      let rs := (List.range ns.length).map fun i => (ns.getD i {}, swatchRecord s d ns (ns.getD i {}) (Config.freeWord (s.freeCtr + i)))
      let s := { s with freeCtr := s.freeCtr + ns.length }
      let n (f : Nat → Bool) : Nat := rs.countP fun x => f x.2.1
      let measured := n fun k => k < 4
      let counts := [w32 measured, w32 (n (· == 3)), w32 (n fun k => k == 1 || k == 2)]
      let items := rs.filterMap fun x => x.2.2.2.2.map fun v => Staged.entry x.1.nozzle v
      let evs := rs.filterMap fun x => x.2.2.2.1
      let frozen := s.drc.frozen
      let s := if frozen then s else dramPut s r.buf (rs.flatMap fun x => x.2.2.1)
      let s := modNhd s fun x => { x with
        run := none, evidence := x.evidence.filter (fun e => !evs.any (·.nozzle == e.nozzle)) ++ evs }
      let s := raise s 52 d.context.val 0 (w32 measured) (counts.getD 1 0) (counts.getD 2 0) (w32 items.length)
      let commit := s.nhd.autoSwatch && !items.isEmpty && !(s.nhd.autoMode == 2 && hemTaken s)
      let s := modNhd s fun x => { x with proposed := if commit then 0 else min 0xFFFF items.length }
      let results := counts ++ [0, w32 (r.frame.getD 0)]
      let job : CommitJob := { source := .swatch, mode := s.nhd.autoMode, items := items
                               cmd := if frozen || r.dead then none else some (r.pair, r.tag)
                               results := some results }
      let s := if commit then queueCommit s job else s
      if frozen then finishLive s r.dead r.pair r.tag stHwFault 0
      else if commit then s
      else finishLive s r.dead r.pair r.tag stOk 0 results
  | _, _ => s

def execSwatchAnalysisDone (s : State) : Host.Outcome State Fault Refusal := .next (swatchAnalysisDone s)

/-- SWATCH_TIMEOUT: no bound frame within 1 s after DELAY (R293). -/
def swatchTimeout (s : State) : State :=
  match s.nhd.run, s.nhd.swatch with
  | some r, some d =>
    match r.firedAt, r.frame with
    | some t, none =>
      let s := advanceTo s (t + us d.delay + sec 1)
      if s.ct < t + us d.delay + sec 1 then s else swatchLost s 3
    | _, _ => s
  | _, _ => s

def execSwatchTimeout (s : State) : Host.Outcome State Fault Refusal := .next (swatchTimeout s)

end Sys2Proof.Machine
end

