-- ==== Sys2Proof/Machine/DmaEnd.lean ====
section
/-! DEFINITION. How the work of a bobbin ends: the block in EBC engine 2, statuses, failed and aborted descriptors, doorbells, and the requests
that wait for the DRC when it freezes (R62, R74, R79-R82, R84, R213, R525). -/

namespace Sys2Proof.Machine

open Sys2Proof

/-- Bobbin of a DMA channel. -/
def dmaBob (n : Fin 16) : Fin 32 := ⟨n.val, by omega⟩

/-- Bytes an EBC descriptor's blocks take: at the source and at the destination of each block (R75). -/
def ebcSizes (d : Desc) : Nat × Nat :=
  let raw := rawSize (bits d.operand 1 0)
  let slot := slotSize (bits d.operand 1 0) (bits d.operand 3 2)
  if d.op = .ebcEncode then (raw, slot) else (slot, raw)

/-- Blocks of an EBC descriptor. -/
def ebcBlocks (d : Desc) : Nat := d.length / (ebcSizes d).1

def isEbc (d : Desc) : Bool := d.op == .ebcEncode || d.op == .ebcDecode

/-- Where a descriptor's next access at the source and at the destination goes: bytes moved on, or whole blocks (R75). -/
def srcAt (d : Desc) : Nat := if isEbc d then d.src + d.moved * (ebcSizes d).1 else d.src + d.moved
def dstAt (d : Desc) : Nat :=
  if isEbc d then d.dst + d.moved * (ebcSizes d).2 else if d.dstSpace = 3 then d.dst else d.dst + d.moved

/-- Bytes the part leaves undefined, as free values [A 1]. -/
def freeBytes (s : State) : Nat → List Byte × State
  | 0 => ([], s)
  | k + 1 =>
    let (w, s) := fresh s
    let (bs, s) := freeBytes s k
    (w.setWidth 8 :: bs, s)

/-! ## EBC engine 2 (R202, R208, R213, R214) -/

/-- The block engine 2 holds for a channel. -/
def engOf (s : State) (n : Fin 32) : Option EngBlk := s.bob.eng.filter fun b => dmaBob b.chan == n

/-- Engine 2 is free again. -/
def engFree (s : State) : State :=
  modEng { s with bob := { s.bob with eng := none } } 2 fun x => { x with busy := false, level := 0 }

/-- The engine takes the next block of a descriptor, with the reference of R202: the raw block before it. -/
def engTake (s : State) (n : Fin 16) (d : Desc) (src : List Byte) : State :=
  let ref := if d.moved = 0 then none else some (vget s.bob.rings (dmaBob n)).ebcRef
  modEng { s with bob := { s.bob with eng := some { chan := n, index := d.moved, src := src, ref := ref } } } 2 fun x =>
    { x with busy := true, level := if d.op = .ebcEncode then bits d.operand 5 4 else 0 }

/-- What coding or decoding the block gives, with the engine's counters (R207, R208, R214). -/
def engRun (s : State) (d : Desc) (b : EngBlk) : EngOut × State :=
  let width := bits d.operand 1 0
  let s := engBlock s 2
  if d.op = .ebcEncode then
    match ebcEncodeChecked (bits d.operand 5 4) width b.src b.ref (ebcSizes d).2 with
    | .stored out => (.bytes out b.src, s)
    | .noFit => (.failed 0x30, engNoFit s 2)
    | .verify => (.failed 0x31, engVerify s 2)
  else
    match ebcDecode width b.src b.ref with
    | .ok raw => (.bytes raw raw, s)
    | .short => (.failed 0x33, engShort s 2)
    | .overrun => (.failed 0x32, engOverrun s 2)

/-- A block's output reaches its place and the block counts as done; the last ends the descriptor OK, with RESULT the number of blocks (R75). -/
def engPut (s : State) (n : Fin 32) (d : Desc) (out raw : List Byte) : State :=
  let s := spaceWrite (engFree s) d.dstSpace (dstAt d) out true
  modRing s n fun r => { r with
    ebcRef := raw
    desc := some { d with moved := d.moved + 1, fin := if d.moved + 1 ≥ ebcBlocks d then some (0x01, ebcBlocks d) else none } }

/-- The destination of a block in progress whose access fails is undefined (R213). -/
def engUndefined (s : State) (n : Fin 32) (d : Desc) : State :=
  match engOf s n with
  | none => s
  | some _ =>
    let s := engFree s
    if (accessErr s d.dstSpace (dstAt d) (ebcSizes d).2 false).isSome || accessHeld s d.dstSpace then s
    else
      let (bs, s) := freeBytes s (ebcSizes d).2
      spaceWrite s d.dstSpace (dstAt d) bs true

/-- The block in engine 2 is completed before its descriptor ends early: coded, and written unless it fails (R79, R213). -/
def engComplete (s : State) (n : Fin 32) (d : Desc) : State :=
  match engOf s n with
  | none => s
  | some b =>
    let (o, s) := match b.out with
      | some o => (o, s)
      | none => engRun s d b
    match o with
    | .failed _ => engFree s
    | .bytes out raw =>
      if (accessErr s d.dstSpace (dstAt d) (ebcSizes d).2 false).isSome then engFree s
      else if accessHeld s d.dstSpace then
        modRing (queueReq (engFree s) (.put none (dstAt d) out)) n fun r => { r with desc := some { d with moved := d.moved + 1 } }
      else engPut s n d out raw

/-- The descriptor in progress, if any, is left unwritten, to be started again from its first byte (R81, R83). -/
def dropDesc (s : State) (n : Fin 32) : State :=
  modRing (if (engOf s n).isSome then engFree s else s) n fun r => { r with desc := none }

/-! ## Descriptors that end (R74, R79, R81) -/

/-- Bytes 0x18 to 0x1F of a completed descriptor (R71, R74). -/
def statusBytes (result code : Nat) : List Byte := natLe result 4 ++ natLe (2 ^ 31 + code) 4

/-- A descriptor's status is written and the head advances past it; a status that cannot be written halts the bobbin with the
descriptor left unwritten (R74, R81). -/
def completeDesc (s : State) (n : Fin 32) (code result : Nat) : State :=
  let r := vget s.bob.rings n
  let irq := match r.desc with
    | some d => d.irq
    | none => false
  let a := entryAddr r r.head + 0x18
  match accessErr s r.space a 8 false with
  | some k => haltBob (modRing s n fun r => { r with desc := none }) n k true r.space a true
  | none =>
    let s := if accessHeld s r.space then queueReq s (.put none a (statusBytes result code)) else spaceWrite s r.space a (statusBytes result code)
    let s := modRing s n fun r => { r with desc := none, head := idxAdd r r.head 1, wbDue := true }
    if irq then signalEntry s n else s

/-- The descriptor in progress, if any, completes ABORTED with the bytes moved so far, or the blocks written, though nothing of it is left to
move (R79, R213) [A 85]; the index follows (R63). -/
def abortDesc (s : State) (n : Fin 32) : State :=
  match (vget s.bob.rings n).desc with
  | some d =>
    let s := engComplete s n d
    let done := ((vget s.bob.rings n).desc.getD d).moved
    flushWb (completeDesc s n 0x03 done) n
  | none => s

/-- A data access of a descriptor failed: it completes with BUS_READ, BUS_WRITE or MEM_FAULT, its index is written back, and the bobbin
halts (R63, R81). -/
def failDesc (s : State) (n : Fin 32) (kind : Nat) (isWrite : Bool) (space addr : Nat) : State :=
  match (vget s.bob.rings n).desc with
  | some d =>
    let s := engUndefined s n d
    let r := vget s.bob.rings n
    let code := if kind = 5 || kind = 6 then 0x22 else if isWrite then 0x21 else 0x20
    let s := match accessErr s r.space (entryAddr r r.head + 0x18) 8 false with
      | some _ => modRing s n fun r => { r with desc := none }
      | none => flushWb (completeDesc s n code d.moved) n
    haltBob s n kind isWrite space addr false
  | none => haltBob s n kind isWrite space addr false

/-! ## Doorbells (R50, R62) -/

/-- A doorbell value is discarded: DB_BAD and EV_BOB_DOORBELL_BAD (R62). -/
def doorbellBad (s : State) (n : Fin 32) (v : Word) : State :=
  raise (modRing s n fun r => { r with dbBad := true }) 240 n.val 0 v

/-- The checks of R62 on a doorbell value: below 2N, and the index moves forward without passing the other. Where the host has set the
indices more than N apart, a value with k = 0 fails the first check too [A 86]. -/
def doorbellOk (r : Bobbin) (host : Bool) (v : Nat) : Bool :=
  let m := 2 * ringN r
  decide (v < m) &&
    (if host then decide ((v + m - r.tail % m) % m + ringUsed r ≤ ringN r) else decide ((v + m - r.head % m) % m ≤ ringUsed r))

/-- A doorbell takes effect (R62). -/
def bobDb (s : State) (n : Fin 32) (v : Word) : State :=
  let r := vget s.bob.rings n
  let x := bits v 16 0
  if !r.en || !doorbellOk r (hostProduced n) x then doorbellBad s n v
  else if hostProduced n then modRing s n fun r => { r with tail := x }
  else modRing s n fun r => { r with head := x }

/-- A request of BAR2, or a doorbell behind one. -/
def ofBar2 : DramReq → Bool
  | .bar2Read _ _ => true
  | .bar2Write _ _ => true
  | .doorbell _ _ => true
  | _ => false

/-- A write of BOB_DB[n]: it takes effect once every BAR2 write before it has been accepted (R50, R62). -/
def doorbell (s : State) (n : Fin 32) (v : Word) : State :=
  if s.drcx.waiting.any ofBar2 then queueReq s (.doorbell n v) else bobDb s n v

/-! ## Requests that wait when the DRC freezes (R525) -/

/-- A host access refused because the DRC is frozen (R525). -/
def frozenAccess (s : State) (isWrite : Bool) : State :=
  raiseLimited s 217 0 (ms 1) 1 fun n => (b2n isWrite, w32 n, 0, 0)

/-- An access of a bobbin to its ring in DRAM meets the freeze. -/
def frozenRing (s : State) (n : Fin 32) (isWrite : Bool) (addr : Nat) : State :=
  if ringLive (vget s.bob.rings n) then haltBob (dropDesc s n) n 6 isWrite 1 addr true else s

/-- A transfer of a descriptor meets the freeze. -/
def frozenData (s : State) (n : Fin 32) : State :=
  match (vget s.bob.rings n).desc with
  | some d => if d.srcSpace = 1 && d.op != .fill then failDesc s n 6 false 1 (srcAt d) else failDesc s n 6 (d.op != .compare) 1 (dstAt d)
  | none => s

/-- How a request that waits ends when the DRC freezes: tables and the nozzle map end under their own rules, lines and spilled frames under
theirs (R525). -/
def endRequest (s : State) (q : DramReq) : State :=
  let head (n : Fin 32) : Nat := let r := vget s.bob.rings n; entryAddr r r.head
  let tail (n : Fin 32) : Nat := let r := vget s.bob.rings n; entryAddr r r.tail
  match q with
  | .bar2Read _ _ => emit (frozenAccess s false) (.hostRead .completerAbort [])
  | .bar2Write _ _ => frozenAccess s true
  | .doorbell n v => bobDb s n v
  | .descriptor n => frozenRing s (dmaBob n) false (head (dmaBob n))
  | .status n => frozenRing s (dmaBob n) true (head (dmaBob n) + 0x18)
  | .burst n => frozenData s (dmaBob n)
  | .command p => frozenRing s (cmdBob p) false (head (cmdBob p))
  | .reply p => frozenRing s (replyBob p) true (tail (replyBob p))
  | .event k => frozenRing s (evBob k) true (tail (evBob k))
  | .writeBack n => flushWb s n
  | .put _ _ _ => s
  | .table => s
  | .mapLoad => s
  | .mapRead => s
  | .openPanel c => openPanelCmd c s
  | .loadTone c => loadToneCmd c s
  | .setDefects c => setDefectsCmd c s
  | .mgmt p => pumpMgmt s p
  | .scrub _ => s
  | .camLine => s
  | .spill _ _ => s

/-- Every request that waits ends, oldest first. -/
def endWaiting (s : State) : State := s.drcx.waiting.foldl endRequest { s with drcx := { s.drcx with waiting := [] } }

end Sys2Proof.Machine
end

