-- ==== Sys2Proof/Machine/Freeze.lean ====
section
/-! DEFINITION. What a freeze of the DRAM controller and its end do to the blocks (R169, R183, R184, R295, R525, R526). -/

namespace Sys2Proof.Machine

open Sys2Proof

/-- The data of a block has been read: it is in place, or waits in decode staging. -/
def blockRead (s : State) (pan : Panel) (band pl i : Nat) : Bool :=
  (blockOf s pan band pl i).isSome || (s.pdp.store ++ s.pdp.staging).any fun b => bandIs pan band pl b && b.coded.any (·.1 = i)

/-- The first line from `c` on whose data has not all been read. -/
def firstUnread (s : State) (pan : Panel) (c : Nat) : Nat :=
  let read (band : Nat) : Bool := (List.range pan.nplanes).all fun pl => (List.range (nblk pan.width)).all fun i => blockRead s pan band pl i
  match ((List.range (nbands pan.lines)).filter ((c - pan.base) / 8 ≤ ·)).find? (!read ·) with
  | some band => max c (pan.base + 8 * band)
  | none => panelEnd pan

/-- Discarded lines of a port, from the first whose segment has not been read on. -/
def unreadGaps (s : State) (pan : Panel) (p : Fin 16) : List Nat :=
  let q := pport s p
  ((List.range (s.pdp.c - q.s)).map (q.s + ·)).filter fun a =>
    pan.base ≤ a && a < panelEnd pan && !inRanges q.ended a && !q.lines.any (·.abs = a) &&
      !((List.range pan.nplanes).all fun pl => (segBlocks pan p pl).all (blockRead s pan ((a - pan.base) / 8) pl))

/-- The DRAM controller has frozen: lines whose data was not read are UNFIRED, queued unpick lines fire as sent, the queued panel is closed, table
copies end (R169, R184, R525). -/
def pathFreeze (s : State) : State :=
  let s := tableFreeze (closeQueued s 4)
  match s.pdp.active with
  | none => s
  | some pan =>
    let s := (partPorts pan).foldl (fun s p => modPport s p fun q => { q with lines := q.lines.map fun l => { l with unpick := false } }) s
    let gaps := (partPorts pan).flatMap fun p => (unreadGaps s pan p).map fun a => (p, a)
    let first := minList (firstUnread s pan (max pan.base (nowC s)) :: (gaps.map (·.2)).filter (s.fir.next ≤ ·))
    let s := cutPanel s pan (max s.fir.next first) 4
    (gaps.filter fun g => g.2 < s.fir.next && !endedOn s g.1 g.2).foldl (fun s g => endOn s pan g.1 g.2 false) s

/-- DRC.RESET writes the reports held during the freeze, in panel order (R183, R526). -/
def writeHeld (s : State) : State :=
  let h := s.pdp.held
  h.foldl (fun s r => dramWrite s r.2.1 r.2.2) { s with pdp := { s.pdp with held := [] } }

/-- Every request under way ends as R525 says: lines not read, table and map copies, head-memory transfers, replay spill. -/
def onDramFreeze (s : State) : State := mapFreeze (linkFreeze (pathFreeze s))

end Sys2Proof.Machine
end

