-- ==== Sys2Proof/Machine/Drc.lean ====
section
/-! DEFINITION. The DRAM controller: bring-up, error correction, refresh, panic, the freeze and its end, and the DRC commands
(R506-R526, R530-R533). -/

namespace Sys2Proof.Machine

open Sys2Proof

/-- Where a DRAM byte address lies (R508). -/
structure DramLoc where
  sc : Nat
  rank : Nat
  bankGroup : Nat
  bank : Nat
  row : Nat
  column : Nat
  deriving DecidableEq, Repr

/-- The address mapping of R508 for a density code and a rank code. -/
def dramMap (density ranks a : Nat) : DramLoc :=
  let f (lo n : Nat) := a / 2 ^ lo % 2 ^ n
  let row := if density = 0 then f 18 16 else if density = 1 then f 19 16 else f 19 17
  { sc := f 6 1
    rank := if ranks = 0 then 0 else if density = 0 then f 34 1 else if density = 1 then f 35 1 else 0
    bankGroup := (f 8 3) ^^^ (row % 8)
    bank := if density = 0 then f 12 1 else f 12 1 + 2 * f 18 1
    row := row
    column := 16 * (f 7 1 + 2 * f 11 1 + 4 * f 13 5) }

/-- Sub-channel and rank of an address in the installed organisation. -/
def scOf (a : Nat) : Nat := a / 64 % 2
def rankOf (s : State) (a : Nat) : Nat := (dramMap s.drc.density s.drc.ranks a).rank

/-- Device number d = rank x 20 + sub-channel x 10 + position (R532). -/
def devOf (s : State) (a pos : Nat) : Nat := rankOf s a * 20 + scOf a * 10 + pos

/-- DRC_STAT and DRC_FREEZE_INFO as words (R532). -/
def drcStat (s : State) : Word :=
  pack [(b2n s.drc.ready, 0), (b2n s.drc.frozen, 1), (b2n s.drc.training, 2), (b2n s.drc.trainFail, 3), (s.drc.failStep, 4),
    (s.drc.failSc, 8), (s.drc.failRank, 9), (b2n s.drc.scrubbing, 10)]
def freezeWord (f : FreezeInfo) : Word :=
  pack [(b2n f.valid, 0), (f.cause, 1), (f.source, 4), (f.unit, 8), (f.command, 13), (f.sc, 15), (f.rank, 16)]

/-- Freeze causes (R532). -/
def czData : Nat := 1
def czAddress : Nat := 2
def czWriteCrc : Nat := 3
def czTracking : Nat := 4
def czInternal : Nat := 5
def czClock : Nat := 6
def czSupply : Nat := 7

/-- The DRC freezes: the diagnosis of the first failing request is latched, FROZEN set, EV_DRC_FROZEN raised, FAULT_N asserted, and
every request under way ends as R525 says (R524). -/
def drcFreeze (s : State) (f : FreezeInfo) : State :=
  if s.drc.frozen then s
  else
    let f := { f with valid := true }
    let s := { s with drc := { s.drc with frozen := true, ready := false, scrubbing := false, freeze := f } }
    let s := raise s 209 0 f.cause (freezeWord f) (w32 f.addr) (w32 (f.addr / 2 ^ 32))
    endWaiting (onDramFreeze (setFault s fltDrc true))

/-- A freeze that no request caused (R524 step 4). -/
def freezeBare (cause sc rank : Nat) : FreezeInfo := { cause := cause, source := 15, command := 3, sc := sc, rank := rank }

/-- SOURCE codes (R532). -/
def sourceCode : DramSource → Nat
  | .pdp => 0 | .cam => 1 | .hlkSpill => 2 | .bar2 => 3 | .dma => 4 | .ebc => 5 | .nhd => 6 | .tableLoad => 7 | .scrubber => 8
  | .sqa => 9 | .sqb => 10

/-- The training a step belongs to has moved: beyond half its margin is reported, outside it freezes (R511). -/
def driftSeen (s : State) (rank sc : Nat) (d : Drift) : State :=
  match d with
  | .within => s
  | .beyondHalf m => raise s 215 rank 0 (w32 sc) (w32 m)
  | .outside => drcFreeze s (freezeBare czTracking sc rank)

/-- Syndromes of four words, the first four given. -/
def syndOf (ws : List Word) : Vector Word 4 := Vector.ofFn fun i : Fin 4 => ws.getD i.val 0

/-- A corrected burst is counted, reported and, with CORR_WB, written back (R517). -/
def eccCorrected (s : State) (addr : Nat) (pos : Nat) : State :=
  let d := devOf s addr pos
  let s := { s with drc := { s.drc with eccCorr := sat32 s.drc.eccCorr 1 } }
  let s := match idx 40 d with
    | none => s
    | some i =>
      let times := (s.ct :: vget s.drc.devTimes i).filter fun t => decide (s.ct < t + sec 1)
      let s := { s with drc := { s.drc with
        devErr := vmod s.drc.devErr i (sat32 · 1)
        devTimes := vset s.drc.devTimes i times } }
      let again := match vget s.drc.devSuspect i with
        | some t => decide (s.ct < t + sec 3600)
        | none => false
      if times.length > s.drc.devLimit && !again then
        raise { s with drc := { s.drc with devSuspect := vset s.drc.devSuspect i (some s.ct) } } 211 d 0 (w32 times.length)
      else s
  let s := raiseLimited s 210 0 (ms 1) 1 fun n => (0, w32 n, w32 d, 0)
  if s.drc.corrWb then
    { s with drc := { s.drc with injects := s.drc.injects.filter fun j => !(j.stored && j.addr == addr && !(j.dev2.any (· != j.dev))) } }
  else s

/-- What a read of a burst shows: an error stored by DRC.INJECT, a burst that failed before and was not rewritten, or what the devices
returned (R517, R526, R531). -/
def burstResult (s : State) (addr : Nat) (r : BurstResult) : BurstResult :=
  if s.drc.badBursts.contains addr then .uncorrectable []
  else match s.drc.injects.find? fun j => j.stored && j.addr == addr with
    | some j =>
      if j.addrKind then .address []
      else if j.dev2.any (· != j.dev) then .uncorrectable []
      else .corrected ⟨j.dev % 10, Nat.mod_lt _ (by decide)⟩
    | none => r

/-- A read burst returns and is classified (R517). -/
def readBurst (s : State) (src unit addr : Nat) (r : BurstResult) : State :=
  let f (cause : Nat) (sy : List Word) : FreezeInfo :=
    { cause := cause, source := src, unit := unit, command := 0, sc := scOf addr, rank := rankOf s addr, addr := addr, synd := syndOf sy }
  let bad (s : State) : State := { s with drc := { s.drc with badBursts := if s.drc.badBursts.contains addr then s.drc.badBursts
                                                                           else addr :: s.drc.badBursts } }
  match burstResult s addr r with
  | .clean => s
  | .corrected d => eccCorrected s addr d.val
  | .address sy => drcFreeze (bad s) (f czAddress sy)
  | .uncorrectable sy => drcFreeze (bad s) (f czData sy)

/-- DRAM_READ_COMPLETE: a read burst returns; its read-strobe phase is tracked; the ACT's random draw may bring a refresh-management
command (R511, R515, R517). -/
def execDramReadComplete (src : DramSource) (unit : Fin 32) (addr : BitVec 36) (r : BurstResult) (drift : Drift) (nbr : Word)
    (s : State) : Host.Outcome State Fault Refusal :=
  let a := addr.toNat / 64 * 64
  .next (if dramReady s && a < dramTop s then
    let s := if nbr.toNat % 2 ^ s.drc.nbrK = 0 then { s with drcx := { s.drcx with rfms := s.drcx.rfms + 1 } } else s
    let s := readBurst s (sourceCode src) unit.val a r
    driftSeen s (rankOf s a) (scOf a) drift
  else s)

/-- DRAM_WRITE_CRC_ALERT: a write whose CRC fails is sent again up to three times; the fourth failure in a row freezes (R518). -/
def execDramWriteCrcAlert (src : DramSource) (unit : Fin 32) (addr : BitVec 36) (w : WriteTry) (s : State) :
    Host.Outcome State Fault Refusal :=
  let a := addr.toNat / 64 * 64
  let n := min 3 w.failures.val
  .next (if dramReady s && w.failures.val > 0 then
    let s := { s with drc := { s.drc with wcrc := sat32 s.drc.wcrc n } }
    let s := raiseLimited s 216 0 (ms 1) n fun k => (0, w32 k, 0, 0)
    if w.failures.val = 4 then
      drcFreeze s { cause := czWriteCrc, source := sourceCode src, unit := unit.val, command := if w.back then 2 else 1, sc := scOf a, rank := rankOf s a, addr := a }
    else s
  else s)

/-- The scrubber reads the next burst of the whole DRAM (R519). -/
def scrubNext (s : State) (r : BurstResult) : State :=
  if dramReady s && s.drc.scrubbing && dramTop s > 0 then
    let a := s.drc.scrubPos
    let s := { s with drc := { s.drc with scrubPos := (a + 64) % dramTop s } }
    readBurst s (sourceCode .scrubber) 0 a r
  else s

/-- PATROL_SCRUB: the scrubber's next read, which waits while DRC.RETRAIN holds the DRAM (R512, R519). -/
def execPatrolScrub (r : BurstResult) (s : State) : Host.Outcome State Fault Refusal :=
  .next (if s.drc.scrubbing && s.drcx.retrainCmd.isSome && accessHeld s 1 then hold s (.scrub r) else scrubNext s r)

/-- The limit of postponed refresh commands (R514). -/
def postponeLimit (mode : Nat) : Nat := if mode = 0 then 4 else 8

/-- REFRESH_TIMER: a refresh command of a rank falls due; while a real-time port is in panic it is postponed up to the limit, and
postponed ones are made up when none is (R513, R514). -/
def execRefreshTimer (rank : Fin 2) (s : State) : Host.Outcome State Fault Refusal :=
  let panic := s.drc.ports.any (·.panic)
  let n := vget s.drc.postponed rank
  .next (if !dramReady s then s
    else if panic && n < postponeLimit s.drc.mode then { s with drc := { s.drc with postponed := vset s.drc.postponed rank (n + 1) } }
    else if panic then { s with drcx := { s.drcx with refreshes := s.drcx.refreshes + 1 } }
    else { s with
      drc := { s.drc with postponed := vset s.drc.postponed rank 0 }
      drcx := { s.drcx with refreshes := s.drcx.refreshes + n + 1 } })

/-- A sub-channel of a rank among the timers. -/
def rankChan (rank sc : Fin 2) : Fin 4 := ⟨2 * rank.val + sc.val, by omega⟩

/-- ZQ_CALIBRATION_TIMER: every 128 ms ZQ is calibrated in a rank (R511). -/
def execZqCalibrationTimer (rank sc : Fin 2) (drift : Drift) (s : State) : Host.Outcome State Fault Refusal :=
  .next (if dramReady s then
    let i := rankChan rank sc
    let s := advanceTo s (vget s.drcx.zqAt i + ms 128)
    driftSeen { s with drcx := { s.drcx with zqAt := vset s.drcx.zqAt i s.ct } } rank.val sc.val drift
  else s)

/-- DQS_OSC_READ: every 64 ms the DQS oscillators are read and write timing corrected (R511). -/
def execDqsOscRead (rank sc : Fin 2) (drift : Drift) (s : State) : Host.Outcome State Fault Refusal :=
  .next (if dramReady s then
    let i := rankChan rank sc
    let s := advanceTo s (vget s.drcx.dqsAt i + ms 64)
    driftSeen { s with drcx := { s.drcx with dqsAt := vset s.drcx.dqsAt i s.ct } } rank.val sc.val drift
  else s)

/-- DEVICE_TEMP_READ: every 16 ms the device temperatures set the refresh rate; a change is reported (R513). -/
def execDeviceTempRead (rank : Fin 2) (code : Nat) (above85 : Bool) (s : State) : Host.Outcome State Fault Refusal :=
  .next (if dramReady s then
    let s := advanceTo s (vget s.drcx.tempAt rank + ms 16)
    let hot := vset s.drcx.hot rank above85
    let dbl := hot.any id
    let s' := { s with
      drcx := { s.drcx with tempAt := vset s.drcx.tempAt rank s.ct, hot := hot }
      drc := { s.drc with doubled := dbl } }
    if dbl == s.drc.doubled then s' else raise s' 214 rank.val (b2n dbl) (w32 code)
  else s)

/-- Postponed refresh commands are made up as soon as no port is in panic (R514). -/
def makeUp (s : State) : State :=
  if s.drc.ports.any (·.panic) then s
  else { s with
    drc := { s.drc with postponed := Vector.replicate 2 0 }
    drcx := { s.drcx with refreshes := s.drcx.refreshes + vget s.drc.postponed 0 + vget s.drc.postponed 1 } }

/-- DRC_PANIC_CHANGE: a real-time port's buffer level, in bytes, crosses its threshold: panic below it, out of panic above twice it;
level 0 is an underrun of `zeroNs` (R514, R523). -/
def execDrcPanicChange (port : Fin 3) (level : Nat) (zeroNs : Word) (s : State) : Host.Outcome State Fault Refusal :=
  let p := vget s.drc.ports port
  .next (
    let s :=
      if !p.panic && level < p.thresh * 1024 then
        let s := { s with drc := { s.drc with ports := vset s.drc.ports port { p with panic := true, since := s.ct } } }
        raiseLimited s 212 port.val (ms 10) 1 fun n => (0, w32 n, 0, 0)
      else if p.panic && level > 2 * p.thresh * 1024 then
        makeUp { s with drc := { s.drc with ports := vset s.drc.ports port { p with panic := false } } }
      else s
    if level = 0 then raise s 213 port.val 0 zeroNs else s)

/-- DRC DETAILs (R531). -/
def dNotFrozen : Nat := 0x1001
def dDrcPanelOpen : Nat := 0x1002
def dDrcFrozen : Nat := 0x1003
def dNotLocked : Nat := 0x1004

/-- The DRAM PLL has held lock for 1 ms (R531, R586). -/
def dramLockHeld (s : State) : Bool := s.glb.dramLock && s.ct ≥ s.glb.dramRise + ms 1

def drcResetSpec : CmdSpec := fixedSpec 0x0E01 [0x3] (async := true) (priv := true)

/-- DRC.RESET starts: only while frozen, and after a CLOCK freeze only once the PLL has held lock (R526, R531). -/
def drcReset (c : Cmd) (s : State) : CmdRes :=
  firstFail s
    [chkS (!s.drc.frozen) dNotFrozen, chkS (s.drc.freeze.cause == czClock && !dramLockHeld s) dNotLocked,
     (s.drcx.resetCmd.isSome, stBusy, 0)]
    (.started (touch { s with
      drcx := { s.drcx with resetCmd := some (some (c.pair, c.tag), bit (pw c 0) 0, bit (pw c 0) 1, s.drc.freeze.cause) }
      drc := { s.drc with training := bit (pw c 0) 1 } } .drc))

def execDrcReset (c : Cmd) (s : State) : Host.Outcome State Fault Refusal := .next (runCmd s drcResetSpec c (drcReset c))

/-- DRC_RESET_DONE: the freeze ends; the panel reports held meanwhile are written; with CLEAR_BAD the latched burst is rewritten with zeros; FAULT_N is released by this cause and
EV_DRC_READY carries CODE 1 (R526). -/
def execDrcResetDone (s : State) : Host.Outcome State Fault Refusal :=
  .next (match s.drcx.resetCmd with
    | none => s
    | some (cmd, clearBad, _, cause) =>
      let a := s.drc.freeze.addr
      let s := writeHeld { s with drcx := { s.drcx with resetCmd := none } }
      let s :=
        if clearBad && s.drc.freeze.source != 15 then
          let s := { s with dram := memWrite s.dram a (List.replicate 64 0) }
          { s with drc := { s.drc with
            badBursts := s.drc.badBursts.filter (· != a), injects := s.drc.injects.filter fun j => !(j.stored && j.addr == a) } }
        else s
      let s := { s with drc := { s.drc with
        frozen := false, training := s.drc.bringUp.isSome, ready := s.drc.bringUp.isNone && !s.drc.trainFail
        scrubbing := s.drc.bringUp.isNone && !s.drc.trainFail && s.drc.scrubHours != 0 } }
      let s := setFault s fltDrc false
      finishOpt (raise s 208 0 1 (drcStat s)) cmd stOk 0 [w32 cause])

def drcRetrainSpec : CmdSpec := fixedSpec 0x0E02 [] (async := true) (priv := true)

/-- DRC.RETRAIN starts: requests are held until it ends (R512, R531). -/
def drcRetrain (c : Cmd) (s : State) : CmdRes :=
  firstFail s
    [chkS (panelOpen s || contextOn s) dDrcPanelOpen, chkS s.drc.frozen dDrcFrozen, (!s.drc.ready, stBusy, 0)]
    (.started (touch { s with
      drcx := { s.drcx with retrainCmd := some (some (c.pair, c.tag)) }
      drc := { s.drc with ready := false, training := true } } .drc))

def execDrcRetrain (c : Cmd) (s : State) : Host.Outcome State Fault Refusal := .next (runCmd s drcRetrainSpec c (drcRetrain c))

def drcSetRefreshSpec : CmdSpec := fixedSpec 0x0E03 [0x01FF1F03] (priv := true)

/-- DRC.SET_REFRESH (R513, R515, R519, R530). -/
def drcSetRefresh (c : Cmd) (s : State) : CmdRes :=
  let w := pw c 0
  let k := bits w 12 8
  let h := bits w 23 16
  firstFail s [chkW (bits w 1 0 == 3 || k < 8 || k > 16 || h > 168) 0]
    (.ok (touch { s with drc := { s.drc with
      mode := bits w 1 0, nbrK := k, scrubHours := h, corrWb := bit w 24, scrubbing := h != 0 && dramReady s } } .drc))

def execDrcSetRefresh (c : Cmd) (s : State) : Host.Outcome State Fault Refusal :=
  .next (runCmd s drcSetRefreshSpec c (drcSetRefresh c))

def drcSetQosSpec : CmdSpec := fixedSpec 0x0E04 [0x3FF, 0x3F3F, 0xFFFF] (priv := true)

/-- DRC.SET_QOS (R517, R523, R530). -/
def drcSetQos (c : Cmd) (s : State) : CmdRes :=
  let p := bits (pw c 0) 9 0
  let m := bits (pw c 1) 5 0
  let h := bits (pw c 1) 13 8
  let set (ps : Vector RtPort 3) : Vector RtPort 3 :=
    vmod (vmod (vmod ps 0 fun r => { r with thresh := p }) 1 fun r => { r with thresh := m }) 2 fun r => { r with thresh := h }
  firstFail s [chkW (p < 32 || p > 512) 0, chkW (m < 4 || m > 48 || h < 4 || h > 32) 1]
    (.ok (touch { s with drc := { s.drc with ports := set s.drc.ports, devLimit := bits (pw c 2) 15 0 } } .drc))

def execDrcSetQos (c : Cmd) (s : State) : Host.Outcome State Fault Refusal := .next (runCmd s drcSetQosSpec c (drcSetQos c))

def drcInjectSpec : CmdSpec := fixedSpec 0x0E05 [0xFFFFFFFF, 0xFFFFFFFF, 0x8F1F] (priv := true)

/-- DRC.INJECT marks the next write to a burst (R531). -/
def drcInject (c : Cmd) (s : State) : CmdRes :=
  let a := addr64 (pw c 0) (pw c 1)
  let w := pw c 2
  let j : Inject :=
    { addr := a, dev := bits w 3 0, dev2 := if bit w 4 then some (bits w 11 8) else none, addrKind := bit w 15 }
  firstFail s [chkW (a % 64 != 0 || a + 64 > dramTop s) 0, chkW (bits w 3 0 > 9 || (bit w 4 && bits w 11 8 > 9)) 2]
    (.ok (touch { s with drc := { s.drc with injects := s.drc.injects.filter (·.addr != a) ++ [j] } } .drc))

def execDrcInject (c : Cmd) (s : State) : Host.Outcome State Fault Refusal := .next (runCmd s drcInjectSpec c (drcInject c))

end Sys2Proof.Machine
end

