-- ==== Sys2Proof/Machine/Light.lean ====
section
/-! DEFINITION. LGT: sinks in PWM and strobe mode, derating, the power scale, chain ports (R547-R553, R559-R560). -/

namespace Sys2Proof.Machine

open Sys2Proof

def sink (s : State) (k : Fin 8) : Sink := vget s.lgt.sinks k
def modSink (s : State) (k : Fin 8) (f : Sink → Sink) : State := { s with lgt := { s.lgt with sinks := vmod s.lgt.sinks k f } }
def chainOf (s : State) (c : Fin 4) : Chain := vget s.lgt.chains c
def modChain (s : State) (c : Fin 4) (f : Chain → Chain) : State := { s with lgt := { s.lgt with chains := vmod s.lgt.chains c f } }

/-! ## Sinks (R547-R549) -/

/-- On-time of a duty in a period (R547). -/
def onTime (duty period : Nat) : Nat := if duty = 0 then 0 else if duty = 4095 then period else (duty * period + 2048) / 4096

/-- CAL holds the sink's current at 0 (R554). -/
def sinkInCal (s : State) (k : Fin 8) : Bool := (vget s.cal.groups ⟨k.val, by omega⟩).running.isSome

/-- The sink may deliver current. -/
def sinkWorks (s : State) (k : Fin 8) : Bool := (sink s k).en && !(sink s k).fault && !s.hkp.shutdown

/-- The on-time so far is added to the present millisecond's (R550). -/
def countOn (x : Sink) (now : Nat) : Sink :=
  if x.on then { x with onAcc := x.onAcc + (now - max x.onAt x.accAt), accAt := now } else { x with accAt := now }

/-- The sink goes off. -/
def sinkOff (s : State) (k : Fin 8) : State :=
  if (sink s k).on then emit (modSink s k fun x => { countOn x s.ct with on := false, pulseEnd := none }) (.sink k false 0)
  else modSink s k fun x => { x with pulseEnd := none }

/-- The sink goes on with the factors now in force, and CAL's new trims (R549, R556). -/
def sinkOn (s : State) (k : Fin 8) (duty : Nat) (pulse : Option Nat) : State :=
  let s := { s with cal := { s.cal with groups := vmod s.cal.groups ⟨k.val, by omega⟩ fun g => match g.pending with
    | some (a, b) => { g with gain := a, offset := b, pending := none }
    | none => g } }
  let s := modSink s k fun x => { countOn x s.ct with
    on := true, onAt := s.ct, duty := duty, fNow := x.f, sNow := s.lgt.scale, pulseEnd := pulse }
  emit s (.sink k true ((sink s k).fNow * (sink s k).sNow))

/-- The next switch-on instant of a sink, at or after a CT (R547): periods run from CT 0 [A 42]. -/
def switchOnAt (s : State) (k : Fin 8) : Nat :=
  let off := (sink s k).phase * s.lgt.period / 256
  let t := max s.ct (sink s k).nextOn
  off + ceilDiv (t - off) s.lgt.period * s.lgt.period

/-- PWM_SWITCH_ON: the next switch-on instant of a sink in PWM mode, with the duty last written and the factors last computed. -/
def pwmSwitchOn (k : Fin 8) (s : State) : State :=
  let x := sink s k
  if x.strobe || !sinkWorks s k then s
  else
    let t := switchOnAt s k
    let s := modSink (advanceTo s t) k fun x => { x with nextOn := t + 1 }
    if sinkInCal s k || onTime x.dutyW s.lgt.period = 0 then modSink (sinkOff s k) k fun x => { x with duty := x.dutyW }
    else sinkOn s k x.dutyW none

def execPwmSwitchOn (k : Fin 8) (s : State) : Host.Outcome State Fault Refusal := .next (if s.glb.sysLock then pwmSwitchOn k s else s)

/-- PWM_SWITCH_OFF: d FIRE cycles after its switch-on; a sink at full duty stays on (R547). -/
def execPwmSwitchOff (k : Fin 8) (s : State) : Host.Outcome State Fault Refusal :=
  let x := sink s k
  .next (if x.strobe || !x.on || x.duty = 4095 then s else sinkOff (advanceTo s (x.onAt + onTime x.duty s.lgt.period)) k)

/-- The sink whose LGT_DUTY lies at an offset; a write of it is taken at the next switch-on (R548). -/
def ledDutyAt (off : Nat) : Option (Fin 8) := if 0x5C0010 ≤ off then idx 8 ((off - 0x5C0010) / 4) else none
def ledDutyWrite (s : State) (k : Fin 8) (v : Word) : State := modSink s k fun x => { x with dutyW := bits v 11 0 }

def execLedDutyWrite (k : Fin 8) (v : Word) (s : State) : Host.Outcome State Fault Refusal := .next (if s.bob.linkUp then ledDutyWrite s k v else s)

/-- The mean of the valid die sensors (R554). -/
def dieMean (s : State) : Int :=
  let ts := ((indices 46).filter fun n => n.val ≥ 40 && sensorValid s (.ch n)).map fun n => (chan s n).temp
  if ts.isEmpty then 0 else ts.sum / ts.length

/-- The reference temperature of a trim group; a broken uncovered sensor is replaced by the die mean (R554). -/
def calRef (s : State) (g : Fin 11) : Int :=
  let sensor (n : Nat) : Int := match idx 46 n with
    | some n => if covered s (.ch n) then ((partner s (.ch n)).map (sensorTemp s)).getD (dieMean s)
      else if (chan s n).broken then dieMean s else (chan s n).temp
    | none => dieMean s
  match idx 8 g.val with
  | some k => sensor (sink s k).sensor
  | none => if g.val = 8 then sensor (s.cal.refs.toList.getD 0 40) else if g.val = 9 then sensor (s.cal.refs.toList.getD 1 42) else dieMean s

/-- A strobe fire during a sink's calibration aborts it: the old trims stay, the group stays due (R558). -/
def calAbort (s : State) (k : Fin 8) : State :=
  let g : Fin 11 := ⟨k.val, by omega⟩
  let x := vget s.cal.groups g
  if x.running.isNone then s
  else
    let s := { s with cal := { s.cal with aborts := satAdd 255 s.cal.aborts 1, groups := vmod s.cal.groups g fun x => { x with running := none } } }
    raise s 236 k.val 2 (w32 (toBits 32 (calRef s g))) (pack [(x.gain, 0), (x.offset, 8)])

/-- A tack's fire at its strobe sinks: a pulse begins, or the fire is counted during one (R548). -/
def strobeFire (s : State) (n : Fin 32) : State :=
  (indices 8).foldl (fun s k =>
    let x := sink s k
    if !(x.strobe && x.tack == n && sinkWorks s k) then s
    else if x.pulseEnd.any (s.ct < ·) then modSink s k fun x => { x with firesLost := satAdd 255 x.firesLost 1 }
    else sinkOn (calAbort s k) k x.duty (some (s.ct + x.strobeLen))) s

/-- STROBE_END: a pulse ends STROBE_LEN cycles after its start. -/
def execStrobeEnd (k : Fin 8) (s : State) : Host.Outcome State Fault Refusal :=
  .next (match (sink s k).pulseEnd with
    | some t => sinkOff (advanceTo s t) k
    | none => s)

/-! ## Derating and power (R549-R551) -/

/-- The value a sink derates by: its sensor's, its partner's when covered, none when broken (R549). -/
def derateTemp (s : State) (n : Nat) : Option Int :=
  match idx 46 n with
  | none => none
  | some n =>
    if covered s (.ch n) then (partner s (.ch n)).map (sensorTemp s) else if (chan s n).broken then none else some (chan s n).temp

/-- f of R549. -/
def derate (knee endT : Int) : Option Int → Nat
  | none => 0
  | some t => if t ≤ knee then 256 else if t ≥ endT then 0 else ((endT - t) * 256 / (endT - knee)).toNat

/-- DERATE_UPDATE: every millisecond. -/
def derateUpdate (s : State) : State :=
  let s := advanceTo s s.lgt.derateAt
  let s := { s with lgt := { s.lgt with derateAt := s.lgt.derateAt + ms 1 } }
  (indices 8).foldl (fun s k =>
    let x := sink s k
    let t := derateTemp s x.sensor
    let f := derate x.knee x.endT t
    let s := modSink s k fun x => { x with f := f }
    let tw := w32 (toBits 32 (t.getD 32767))
    if f < 256 && x.f = 256 then raise s 232 k.val 0 (w32 f) tw
    else if f = 256 && x.f < 256 then raise s 232 k.val 1 (w32 f) tw
    else s) s

def execDerateUpdate (s : State) : Host.Outcome State Fault Refusal := .next (if s.glb.sysLock then derateUpdate s else s)

/-- P before the common scale, in 1 / (255 * 256 * 400000 * 1000) mW, from the pins' voltages in mV and the on-times (R550) [A 50]. -/
def powerSum (s : State) (pins : List (BitVec 16)) : Nat :=
  ((indices 8).map fun k =>
    let x := countOn (sink s k) s.ct
    (pins.getD k.val 0).toNat * (x.iset * 350) * x.fNow * x.onAcc).sum
def powerDen : Nat := 255 * 256 * 400000 * 1000

/-- POWER_ESTIMATE: every millisecond, with the pin voltages measured. -/
def powerEstimate (pins : List (BitVec 16)) (s : State) : State :=
  let s := advanceTo s s.lgt.powerAt
  let sum := powerSum s pins
  let p := sum / powerDen
  let sinks := Vector.ofFn fun k : Fin 8 =>
    let x := countOn (sink s k) s.ct
    { x with onAcc := 0, accAt := s.ct, pin := min 255 ((pins.getD k.val 0).toNat / 40) }
  let s := { s with lgt := { s.lgt with sinks := sinks, powerAt := s.lgt.powerAt + ms 1, power := min 0xFFFF p } }
  if sum > s.lgt.plimit * powerDen then
    let sc := 256 * s.lgt.plimit * powerDen / sum
    let was := s.lgt.limited
    let s := { s with lgt := { s.lgt with scale := sc, limited := true } }
    if was then s else raise s 233 0 0 (w32 p) (w32 sc)
  else if s.lgt.limited && sum < s.lgt.plimit * powerDen then
    raise { s with lgt := { s.lgt with scale := 256, limited := false } } 233 0 1 (w32 p) (w32 256)
  else s

def execPowerEstimate (pins : List (BitVec 16)) (s : State) : Host.Outcome State Fault Refusal :=
  .next (if s.glb.sysLock then powerEstimate pins s else s)

/-- SINK_FAULT: regulation lost for 16 periods, or a pin above its maximum (R551). -/
def execSinkFault (k : Fin 8) (tooHigh : Bool) (mv : BitVec 16) (s : State) : Host.Outcome State Fault Refusal :=
  .next (if (sink s k).en && !(sink s k).fault then
    raise (modSink (sinkOff s k) k fun x => { x with fault := true, pin := min 255 (mv.toNat / 40) }) 234 k.val (if tooHigh then 2 else 1) (w32 mv.toNat)
  else s)

/-! ## Chains (R552, R553) -/

/-- FIRE cycles of a bit. -/
def bitCt : Nat := 200

/-- The next word of a frame goes out at a CT. -/
def chainWord (s : State) (c : Fin 4) (t : Nat) : State :=
  let x := chainOf s c
  let n := min 32 (x.bits - x.sent)
  let w := if x.zeros then 0 else x.fifo.headD 0
  emit (modChain s c fun x => { x with
    fifo := if x.zeros then x.fifo else x.fifo.drop 1, sent := x.sent + n, wordEnd := t + n * bitCt }) (.chain c w n)

/-- The words that have followed each other on the wire until now. -/
def chainRun (s : State) (c : Fin 4) : Nat → State
  | 0 => s
  | n + 1 =>
    let x := chainOf s c
    if x.sending && x.sent < x.bits && x.wordEnd ≤ s.ct && (x.zeros || !x.fifo.isEmpty) then chainRun (chainWord s c x.wordEnd) c n else s

/-- The devices latch once the wire has been low for LATCH_GAP; a partial frame is an underrun (R552, R553). -/
def chainLatch (s : State) (c : Fin 4) : State :=
  let x := chainOf s c
  let part := x.sent < x.bits
  let s := emit (modChain s c fun x => { x with
    sending := false, zeros := false, sent := 0, underrun := if part then satAdd 255 x.underrun 1 else x.underrun }) (.chainLatch c)
  if part then raise s 235 c.val 1 (w32 x.sent) else s

/-- The port's state comes up to now. -/
def chainSettle (s : State) (c : Fin 4) : State :=
  let s := chainRun s c 2048
  let x := chainOf s c
  if x.sending && x.wordEnd + us x.gap ≤ s.ct then chainLatch s c else s

/-- The chain FIFO at an offset, and its room in bytes once the port has come up to now (R77, R553). -/
def chainFifoAt (off : Nat) : Option (Fin 4) := if 0x5C0100 ≤ off && off < 0x5C0110 && off % 4 == 0 then idx 4 ((off - 0x5C0100) / 4) else none
def chainRoom (s : State) (c : Fin 4) : Nat := 512 - 4 * (chainOf (chainSettle s c) c).fifo.length

/-- Words written to a chain FIFO: queued, or discarded and counted when it is full; a frame whose wire fell low goes on (R553). -/
def chainPush (s : State) (c : Fin 4) (ws : List Word) : State :=
  ws.foldl (fun s w =>
    let s := chainSettle s c
    if (chainOf s c).fifo.length ≥ 128 then modChain s c fun x => { x with overflow := satAdd 255 x.overflow 1 }
    else
      let s := modChain s c fun x => { x with fifo := x.fifo ++ [w] }
      let x := chainOf s c
      if x.sending && !x.zeros && x.sent < x.bits && x.wordEnd ≤ s.ct then chainWord s c s.ct else s) s

def execChainFifoWrite (c : Fin 4) (v : Word) (s : State) : Host.Outcome State Fault Refusal :=
  .next (if s.bob.linkUp then chainPush s c [v] else s)

/-- CHAIN_FRAME_START: an enabled port starts a frame once its FIFO holds min(CH_BITS, 4096) bits (R553). -/
def chainFrameStart (c : Fin 4) (s : State) : State :=
  let s := chainSettle s c
  let x := chainOf s c
  if !x.en || x.sending || s.hkp.shutdown || 32 * x.fifo.length < min x.bits 4096 then s
  else chainWord (modChain s c fun x => { x with sending := true, zeros := false, sent := 0 }) c s.ct

def execChainFrameStart (c : Fin 4) (s : State) : Host.Outcome State Fault Refusal := .next (chainFrameStart c s)

/-- CHAIN_LATCH: the wire of a port has been low for LATCH_GAP after the bits of a frame. -/
def execChainLatch (c : Fin 4) (s : State) : Host.Outcome State Fault Refusal :=
  let last (s : State) : Nat := if (chainOf s c).zeros || !(chainOf s c).fifo.isEmpty then
      (chainOf s c).wordEnd + (ceilDiv ((chainOf s c).bits - (chainOf s c).sent) 32) * 32 * bitCt else (chainOf s c).wordEnd
  .next (if (chainOf s c).sending then
    let s := chainRun (advanceTo s (last s)) c 2048
    if (chainOf s c).sending then chainLatch (advanceTo s ((chainOf s c).wordEnd + us (chainOf s c).gap)) c else s
  else s)

/-- A shutdown stops every sink, and every chain port sends one frame of zeros (R544). -/
def lightShutdown (s : State) : State :=
  let s := (indices 8).foldl (fun s k => sinkOff s k) s
  (indices 4).foldl (fun s c =>
    let s := chainSettle s c
    modChain s c fun x => { x with sending := true, zeros := true, sent := 0, wordEnd := s.ct }) s

/-! ## Commands (R559, R560) -/

def dShutdownHkp : Nat := 0x1001

/-- LGT.SET_SINK (R545, R549, R551, R555). -/
def lgtSetSink (c : Cmd) (s : State) : CmdRes :=
  let w := pw c 0
  let k : Fin 8 := ⟨bits w 2 0, Nat.mod_lt _ (by decide)⟩
  let knee := sbits (pw c 3) 15 0
  let endT := sbits (pw c 3) 31 16
  firstFail s [chkS (s.hkp.shutdown && bit w 3) dShutdownHkp, chkW (bits (pw c 2) 5 0 > 45) 2, chkW (endT < knee + 50) 3,
      chkW (bit w 4 && bits (pw c 4) 15 0 = 0) 4]
    (let was := (sink s k).en
     let s := if bit w 3 && bit w 4 == (sink s k).strobe then s else sinkOff s k
     let s := modSink s k fun x => { x with
       en := bit w 3, strobe := bit w 4, tack := ⟨bits w 9 5, Nat.mod_lt _ (by decide)⟩, iset := bits (pw c 1) 7 0, phase := bits (pw c 1) 15 8
       sensor := bits (pw c 2) 5 0, knee := knee, endT := endT, strobeLen := bits (pw c 4) 15 0, fault := x.fault && !bit w 3 }
     .ok (touch (if bit w 3 && !was then
       { s with cal := { s.cal with groups := vmod s.cal.groups ⟨k.val, by omega⟩ fun g => { g with due := true } } } else s) .hkp))

def lgtSetSinkSpec : CmdSpec := fixedSpec 0x0B01 [0x3FF, 0xFFFF, 0x3F, all32, 0xFFFF]

def execLgtSetSink (c : Cmd) (s : State) : Host.Outcome State Fault Refusal :=
  .next (runCmd s lgtSetSinkSpec c (lgtSetSink c))

/-- LGT.SET_PWM (R547, R550). -/
def lgtSetPwm (c : Cmd) (s : State) : CmdRes :=
  let p := bits (pw c 0) 22 0
  let l := bits (pw c 1) 11 0
  firstFail s [chkW (p < 6250 || p > 4000000) 0, chkW (l < 500 || l > 4000) 1]
    (.ok (touch { s with lgt := { s.lgt with period := p, plimit := l } } .hkp))

def lgtSetPwmSpec : CmdSpec := fixedSpec 0x0B02 [0x7FFFFF, 0xFFF]

def execLgtSetPwm (c : Cmd) (s : State) : Host.Outcome State Fault Refusal :=
  .next (runCmd s lgtSetPwmSpec c (lgtSetPwm c))

/-- LGT.SET_CHAIN (R552, R553). -/
def lgtSetChain (c : Cmd) (s : State) : CmdRes :=
  let p : Fin 4 := ⟨bits (pw c 0) 1 0, Nat.mod_lt _ (by decide)⟩
  let n := bits (pw c 1) 15 0
  let g := bits (pw c 2) 7 0
  firstFail s [chkW (n < 48 || n > 65520) 1, chkW (g < 20) 2]
    (let s := chainSettle s p
     .ok (touch (modChain s p fun x => { x with
       en := bit (pw c 0) 2, bits := n, gap := g, sending := x.sending && bit (pw c 0) 2, sent := min x.sent n }) .hkp))

def lgtSetChainSpec : CmdSpec := fixedSpec 0x0B03 [0x7, 0xFFFF, 0xFF]

def execLgtSetChain (c : Cmd) (s : State) : Host.Outcome State Fault Refusal :=
  .next (runCmd s lgtSetChainSpec c (lgtSetChain c))

end Sys2Proof.Machine
end

