-- ==== Sys2Proof/Machine/Mot.lean ====
section
/-! DEFINITION. MOT: profiles, phase-link frames, bands, encoder supervision, inputs, homing, jog (R410-R440). -/

namespace Sys2Proof.Machine

open Sys2Proof

/-! ## Numbers: 32 fraction bits for positions, 64 for velocity and acceleration (R410, R412) [A 41] -/

def q64 : Int := 2 ^ 64
/-- A magnitude held between two bounds. -/
def clampTo (lim x : Int) : Int := max (-lim) (min lim x)
/-- A position as the two words of a result or an event: [31:0] and [47:32]. -/
def posWords (p : Int) : List Word :=
  let n := toBits 48 (p / one32)
  [w32 n, w32 (n / 2 ^ 32)]
/-- The integer nearest a position, ties upward (R430). -/
def nearest (p : Int) : Int := (p + 2 ^ 31) / one32
/-- The encoder's position without ENC_OFF. -/
def encUnits (x : Axis) : Int := x.count * x.ratio * 2 ^ 16
/-- e of R428 with 32 fraction bits. -/
def deviation (x : Axis) : Int := x.encP - x.encOff - encUnits x
/-- ENC_OFF is set so that e is 0 at the present position (R428). -/
def zeroDev (s : State) (x : Axis) : Axis := { x with encAt := s.ct, encP := x.p, encOff := x.p - encUnits x, dev := 0 }
/-- The axis is at rest. -/
def atRest (x : Axis) : Bool := x.v == 0 && x.a == 0
/-- The lower of VMAX and the ceiling. -/
def vLimit (x : Axis) : Nat := min x.vmax (x.ceil.getD x.vmax)

/-! ## One tick of the generator (R412, R414) -/

/-- R412: one tick under constant jerk `jk` in units/s^3, the acceleration limited to `alim` units/s^2. -/
def runTick (x : Axis) (jk : Int) (alim : Int) : Axis :=
  let a1 := clampTo (alim * q64) (x.a + jk * q64 / 100000)
  { x with
    p := x.p + (x.v * 600000 + (2 * x.a + a1)) / (60000000000 * 2 ^ 32)
    v := x.v + (x.a + a1) / 200000
    a := a1
    jk := jk }

/-- R414: one tick of velocity mode towards `vt` (64 fraction bits), losing speed under `dmax` and with jerk `jmax` in 1024 units/s^3. -/
def steer (x : Axis) (vt : Int) (dmax jmax : Nat) : Axis :=
  let jm : Int := jmax * 1024
  let dv := vt - x.v
  let sg : Int := if dv ≥ 0 then 1 else -1
  let alim : Int := if x.v * sg ≥ 0 then x.amax else dmax
  let need := x.a * x.a.natAbs / (2 * jm * q64)
  if x.a.natAbs ≤ (jm * q64 / 100000).toNat ∧ dv.natAbs ≤ (jm * q64 / 10000000000).toNat then
    runTick { x with v := vt, a := 0 } 0 alim
  else
    let jk := if sg * (dv - need) > 0 then (if sg * x.a < alim * q64 then sg * jm else 0) else (if x.a > 0 then -jm else jm)
    runTick x jk alim

/-- The position at which an axis stops under DMAX and JMAX, following velocity mode with vt = 0 (R416). -/
def stopAt (x : Axis) : Nat → Int
  | 0 => x.p
  | n + 1 => if atRest x then x.p else stopAt (steer x 0 x.dmax x.jmax) n

/-- More ticks than a stop can take. -/
def stopTicks (x : Axis) : Nat :=
  200000 * (x.v.natAbs / 2 ^ 64 / max 1 x.dmax + x.dmax / (1024 * max 1 x.jmax) + x.a.natAbs / 2 ^ 64 / (1024 * max 1 x.jmax) +
    (x.a.natAbs / 2 ^ 64) ^ 2 / (1024 * max 1 x.jmax * max 1 x.dmax) + 4)

/-- A target is behind the axis (R416). -/
def behind (x : Axis) (target : Int) : Bool :=
  if atRest x then false
  else
    let e := stopAt x (stopTicks x)
    if x.v > 0 || (x.v == 0 && x.a > 0) then target < x.p || target < e else target > x.p || target > e

/-! ## Plans (R415, R416, R437) -/

/-- The sequencer plans from the present state to the target: at most seven segments. -/
def planTo (x : Axis) : Axis :=
  let segs := (Config.planMove (x.p, x.v, x.a, x.target) (vLimit x, x.amax, x.dmax, x.jmax)).take 7
  { x with
    plan := segs.map fun g => (if g.1 = 1 then 1 else if g.1 = 2 then -1 else 0, g.2), planned := true, replan := false, reverse := false }

/-- The plan of a move, or the stop that comes first when its target is behind (R416). -/
def planOrStop (x : Axis) : Axis :=
  if behind x x.target then { x with planned := false, plan := [], vt := 0, replan := false, reverse := true } else planTo x

/-- A position move starts: planned at once, or after a stop when the target is behind (R415, R416). -/
def startMove (x : Axis) (target : Int) : Axis :=
  planOrStop { x with target := target, quick := false, limitStop := false, restAt := none }

/-- One tick of a plan; its last tick sets the target exactly (R415). -/
def planTick (x : Axis) : Axis :=
  match x.plan.dropWhile (·.2 == 0) with
  | [] => { x with p := x.target, v := 0, a := 0, jk := 0, plan := [] }
  | (g, n) :: rest =>
    let y := runTick x (g * (x.jmax * 1024 : Nat)) (max x.amax x.dmax)
    let plan := (if n = 1 then rest else (g, n - 1) :: rest).dropWhile (·.2 == 0)
    if plan.isEmpty then { y with p := x.target, v := 0, a := 0, plan := [] } else { y with plan := plan }

/-! ## Ends of commands (R418, R419, R433) -/

def dAxisDisabled : Nat := 0x1001
def dReverse : Nat := 0x1002
def dLimit : Nat := 0x1003
def dStall : Nat := 0x1004
def dHomeLimit : Nat := 0x1005
def dHomeNotFound : Nat := 0x1006
def dChatter : Nat := 0x1007
def dFeedAxis : Nat := 0x1008
def dNotAtRest : Nat := 0x1009
def dSuperseded : Nat := 0x100A
def dNoEncoder : Nat := 0x100B
def dStopped : Nat := 0x100C

/-- The command in effect, and the commands that wait, end with a status. -/
def endCmd (s : State) (n : Fin 6) (st det : Nat) : State :=
  match (axis s n).cmd with
  | some (p, t) => finishTag (modAxis s n fun x => { x with cmd := none }) p t st det
  | none => s
def endWaits (s : State) (n : Fin 6) (st det : Nat) : State :=
  (axis s n).waits.foldl (fun s w => finishTag s w.pair w.tag st det) (modAxis s n fun x => { x with waits := [] })

/-- EV_MOT_MOVE_DONE (R445). -/
def moveDone (s : State) (n : Fin 6) (code : Nat) (tag : BitVec 16) : State :=
  let ws := posWords (axis s n).p
  raise s 144 n.val code (ws.getD 0 0) (ws.getD 1 0) (w32 tag.toNat)

/-- EV_MOT_HOME_DONE (R435). -/
def homeDone (s : State) (n : Fin 6) (code : Nat) (shift : Int) : State :=
  let ws := posWords shift
  raise s 149 n.val code (ws.getD 0 0) (ws.getD 1 0)

/-- The axis has come to rest: IDLE, the replies due at rest, RUN_I until HOLD_DELAY has passed; HOLD_I at once in a shutdown (R436, R544). -/
def comeToRest (s : State) (n : Fin 6) (code : Nat) : State :=
  let x := axis s n
  let tag := match x.cmd, x.ends with
    | some c, _ => c.2
    | none, e :: _ => e.tag
    | none, [] => x.lastTag
  let hold := s.hkp.shutdown
  let s := modAxis s n fun x => { x with
    state := .idle, planned := false, plan := [], vt := 0, quick := false, limitStop := false, jog := false, ends := []
    current := if hold then 0 else 1, restAt := if hold then none else some s.ct }
  let s := match x.cmd with
    | some (p, t) => finishTag (modAxis s n fun x => { x with cmd := none }) p t stOk 0 (if code = 0 then posWords x.p else [])
    | none => s
  let s := x.ends.foldl (fun s e => finishTag s e.pair e.tag e.status e.detail (if e.withPos then posWords x.p else [])) s
  moveDone s n code tag

/-- A stop begins: velocity mode to rest, quick or with DMAX and JMAX (R419, R433). An axis at rest already has stopped. -/
def beginStop (s : State) (n : Fin 6) (quick limit : Bool) : State :=
  let s := modAxis s n fun x => { x with
    state := .stopping, planned := false, plan := [], vt := 0, quick := x.quick || quick, limitStop := x.limitStop || limit, jog := false
    restAt := none, replan := false }
  if atRest (axis s n) then comeToRest s n 1 else s

/-- Homing ends early and the axis stops; the current returns to RUN_I (R433, R435). -/
def stopHoming (s : State) (n : Fin 6) (h : Homing) (quick : Bool) (st det : Nat) : State :=
  let s := modAxis s n fun x => { x with
    homing := none, current := 1, ends := x.ends ++ [{ pair := h.pair, tag := h.tag, status := st, detail := det }] }
  beginStop s n quick (det == dHomeLimit || det == dLimit)

/-- An early end of homing that stops the axis, with its code (R435). -/
def failHoming (s : State) (n : Fin 6) (code : Nat) (quick : Bool) (st det : Nat) : State :=
  match (axis s n).homing with
  | none => s
  | some h => stopHoming (homeDone s n code h.shift) n h quick st det

/-! ## Limits (R433) -/

/-- A limit of a role (1 negative, 2 positive) is tripped. -/
def tripped (x : Axis) (role : Nat) : Bool := (indices 2).any fun i => (vget x.inputs i).role == role && ((vget x.inputs i).qual || (vget x.inputs i).chat)
/-- Motion in a direction is blocked by a tripped limit. -/
def blocked (x : Axis) (dir : Int) : Bool := (dir < 0 && tripped x 1) || (dir > 0 && tripped x 2)
/-- The direction in which the axis moves or its plan runs. -/
def heading (x : Axis) : Int :=
  if x.v != 0 then x.v
  else match x.state with
    | .position => if x.planned then x.target - x.p else 0
    | .velocity => x.vt
    | .homing => if x.planned then x.target - x.p else x.vt
    | _ => 0

/-- The motion is stopped quickly and its command ends FAILED with LIMIT (R433, R544). A homing run stopped so is none of R435's cases and
raises no EV_MOT_HOME_DONE [A 105]. -/
def limitQuickStop (s : State) (n : Fin 6) : State :=
  let x := axis s n
  match x.state with
  | .position | .velocity => beginStop (endCmd s n stFailed dLimit) n true true
  | .stopping => beginStop s n true true
  | .homing => (match x.homing with
    | some h => stopHoming s n h true stFailed dLimit
    | none => s)
  | _ => s

/-- A thermal shutdown stops every moving axis (R544). -/
def motShutdown (s : State) : State := (indices 6).foldl (fun s n => limitQuickStop s n) s

/-! ## Homing (R434, R435) -/

def homeDir (h : Homing) : Int := if h.neg then -1 else 1
/-- The limit role on the homing side. -/
def homeSide (h : Homing) : Nat := if h.neg then 1 else 2

/-- The run goes on after the stop at the reference: the shift of step 4, then the back-off of step 5. -/
def homeShift (s : State) (n : Fin 6) : State :=
  match (axis s n).homing with
  | none => s
  | some h =>
    let d := h.offset * one32 - h.ref
    modAxis s n fun x =>
      let x := { x with p := x.p + d, encOff := x.encOff + d, encP := x.encP + d, current := 1, past := [] }
      startMove { x with homing := some { h with step := 5, shift := d } } (x.p - homeDir h * h.backoff * one32)

/-- The reference has come at a position: a quick stop for HOME and LIMIT, none for STALL, which has stopped already. The run goes on at the
tick that finds the axis at rest (R434). -/
def homeRef (s : State) (n : Fin 6) (ref : Int) : State :=
  modAxis s n fun x => { x with homing := x.homing.map fun h => { h with step := 3, ref := ref }, vt := 0, quick := true }

/-- Step 6, or the early end with the limit still tripped after BACKOFF (R434, R435). -/
def homeEnd (s : State) (n : Fin 6) : State :=
  match (axis s n).homing with
  | none => s
  | some h =>
    let bad := h.src == 2 && tripped (axis s n) (homeSide h)
    let s := modAxis s n fun x => { x with state := .idle, homing := none, homed := !bad, planned := false, plan := [], current := 1, restAt := some s.ct }
    let s := homeDone s n (if bad then 6 else 0) h.shift
    if bad then finishTag s h.pair h.tag stFailed dLimit else finishTag s h.pair h.tag stOk 0 (posWords h.shift)

/-- A stall (R430): no ramp, p from the encoder, HOLD_I; outside a STALL homing's search the axis enters FAULT. -/
def stall (s : State) (n : Fin 6) : State :=
  let x := axis s n
  let isRef : Bool := match x.homing with
    | some h => x.state == .homing && h.src == 0 && h.step == 2
    | none => false
  let p := nearest (x.encOff + encUnits x) * one32
  let ws := posWords p
  let s := modAxis s n fun x => { x with v := 0, a := 0, jk := 0, p := p, encP := p, plan := [], planned := false, current := 0 }
  let s := raise s 146 n.val (if isRef then 1 else 0) (w32 (toBits 32 (deviation x / one32))) (ws.getD 0 0) (ws.getD 1 0)
  if isRef then homeRef s n p
  else
    let s := match x.homing with
      | some h => finishTag (homeDone (modAxis s n fun x => { x with homing := none }) n 4 h.shift) h.pair h.tag stFailed dStall
      | none => s
    let s := endWaits (endCmd s n stFailed dStall) n stFailed dStall
    let s := (axis s n).ends.foldl (fun s e => finishTag s e.pair e.tag (if e.status = stOk then stFailed else e.status) (if e.status = stOk then dStall else e.detail)) s
    modAxis s n fun x => { x with state := .fault, ends := [], jog := false, vt := 0, quick := false, limitStop := false, restAt := none }

/-! ## When a command takes effect (R417, R418) -/

/-- Earlier motion commands of the axis are superseded (R418). -/
def supersede (s : State) (n : Fin 6) (w : MotWait) : State :=
  let x := axis s n
  let before := x.waits.takeWhile fun y => !(y.pair == w.pair && y.tag == w.tag)
  let s := modAxis s n fun x => { x with waits := x.waits.filter fun y => !(y == w) && !before.contains y }
  let s := before.foldl (fun s y => finishTag s y.pair y.tag stAbandoned dSuperseded) s
  let s := endCmd s n stAbandoned dSuperseded
  let s := match x.homing with
    | some h => finishTag (modAxis s n fun x => { x with homing := none }) h.pair h.tag stAbandoned dSuperseded
    | none => s
  x.ends.foldl (fun s e => finishTag s e.pair e.tag (if e.status = stOk then stAbandoned else e.status) (if e.status = stOk then dSuperseded else e.detail))
    (modAxis s n fun x => { x with ends := [] })

/-- A waiting command takes effect. -/
def takeEffect (s : State) (n : Fin 6) (w : MotWait) : State :=
  let drop (s : State) : State := modAxis s n fun x => { x with waits := x.waits.filter (· != w) }
  let x := axis s n
  let dir := if w.isMove then w.goal - x.p else w.goal
  if x.state == .stopping && x.quick then finishTag (drop s) w.pair w.tag stBadState (if x.limitStop then dLimit else dStopped)
  else if blocked x dir || s.hkp.shutdown then finishTag (drop s) w.pair w.tag stBadState dLimit
  else if w.isMove && x.rejectRev && behind x w.goal then finishTag (drop s) w.pair w.tag stBadState dReverse
  else
    let s := supersede s n w
    modAxis s n fun x =>
      let x := { x with cmd := some (w.pair, w.tag), lastTag := w.tag, reverse := false, jog := false, current := 1, restAt := none, quick := false, limitStop := false }
      if w.isMove then startMove { x with state := .position } w.goal
      else { x with state := .velocity, planned := false, plan := [], vt := w.goal }

/-- A waiting command takes effect at a tick: 50 us after its start, and after its tack's fire (R417). -/
def waitDue (w : MotWait) (t : Nat) : Bool :=
  w.since ≤ t && match w.tack, w.fired with
    | none, _ => true
    | some _, some f => f < t
    | some _, none => false

/-- The commands whose tick has come take effect in the order they came; planning waits for a sequencer (R439). -/
def takeDue (s : State) (n : Fin 6) : State :=
  if !fwRuns s then s
  else ((axis s n).waits.filter (waitDue · (axis s n).tickAt)).foldl (fun s w => if (axis s n).waits.contains w then takeEffect s n w else s) s

/-- MOVE_START: the tick at which a waiting command of the axis takes effect comes. -/
def execMoveStart (n : Fin 6) (s : State) : Host.Outcome State Fault Refusal :=
  .next (if s.glb.sysLock && (axis s n).waits.any (waitDue · (axis s n).tickAt) then takeDue (advanceTo s (axis s n).tickAt) n else s)

/-- A tack's fire starts the moves armed by it, once their 50 us have passed (R417). -/
def motTack (s : State) (k : Fin 32) : State :=
  (indices 6).foldl (fun s n => modAxis s n fun x => { x with
    waits := x.waits.map fun w => if w.tack = some k ∧ w.fired.isNone ∧ w.since ≤ s.ct then { w with fired := some s.ct } else w }) s

/-! ## The tick (R411-R430, R436, R437) -/

/-- The generator's part of a tick, by state. -/
def generate (run : Bool) (x : Axis) : Axis :=
  let vl : Int := (vLimit x : Nat) * q64
  let toVt (x : Axis) : Axis := steer x (clampTo vl (x.vt * q64)) (if x.quick then x.qdmax else x.dmax) (if x.quick then x.qjmax else x.jmax)
  let move (x : Axis) : Axis :=
    let above := match x.ceil with
      | some c => decide (x.v.natAbs > c * 2 ^ 64)
      | none => false
    let x :=
      if x.reverse then x
      else if above then { x with planned := false, plan := [], vt := if x.v < 0 then -(vLimit x) else vLimit x }
      else if x.replan && run then planOrStop x
      else x
    if x.planned then planTick x else toVt x
  match x.state with
  | .position => move x
  | .homing => (match x.homing with
    | some h => if h.step = 5 then move x else if h.since ≤ x.tickAt then toVt x else x
    | none => x)
  | .velocity | .stopping => toVt x
  | _ => { x with jk := 0 }

/-- Whether velocity mode has reached its target. -/
def reached (x : Axis) : Bool := x.a == 0 && x.v == clampTo ((vLimit x : Nat) * q64) (x.vt * q64)

/-- A move that ran velocity mode has stopped before its reversal, which EV_MOT_REVERSE reports, or is at its ceiling: it is planned again as
soon as a sequencer runs (R416, R437, R439). -/
def planAgain (s : State) (n : Fin 6) : State :=
  let x := axis s n
  let ws := posWords x.p
  let s := if x.reverse then raise (modAxis s n fun x => { x with reverse := false }) 151 n.val 0 (ws.getD 0 0) (ws.getD 1 0) else s
  if fwRuns s then modAxis s n planOrStop else s

/-- CHATTER is latched on the reference input of a homing run (R435). -/
def refChatter (x : Axis) (h : Homing) : Bool :=
  x.inputs.toList.any fun m => m.chat && ((h.src == 1 && m.role == 3) || (h.src == 2 && m.role == homeSide h))

/-- What the state after the generator leads to (R436). -/
def settleAxis (s : State) (n : Fin 6) : State :=
  let x := axis s n
  match x.state with
  | .position =>
    if x.planned then (if x.plan.isEmpty && x.p == x.target && atRest x then comeToRest s n 0 else s)
    else if reached x then planAgain s n else s
  | .velocity =>
    if !reached x then s
    else
      let s := match x.cmd with
        | some (p, t) => moveDone (finishTag (modAxis s n fun x => { x with cmd := none }) p t stOk 0) n 2 t
        | none => s
      if x.vt = 0 then modAxis s n fun x => { x with state := .idle, jog := false, restAt := some s.ct } else s
  | .stopping => if atRest x then comeToRest s n 1 else s
  | .homing =>
    match x.homing with
    | none => s
    | some h =>
      if h.step = 3 then (if atRest x && fwRuns s then homeShift s n else s)
      else if h.step = 5 then
        (if x.planned then (if x.plan.isEmpty && x.p == x.target && atRest x && fwRuns s then homeEnd s n else s)
         else if reached x then planAgain s n else s)
      else if refChatter x h then failHoming s n 3 true stFailed dChatter
      else if (x.p - h.start).natAbs > h.max * 2 ^ 32 && fwRuns s then failHoming s n 2 false stFailed dHomeNotFound
      else s
  | _ => s

/-- The encoder supervision of a tick (R428-R430). -/
def superviseEnc (s : State) (n : Fin 6) : State :=
  let x := axis s n
  if !x.encEn || x.state == .disabled then s
  else
    let e := deviation x
    let mag := e.natAbs / 2 ^ 32
    let out := decide (e.natAbs > x.devWin * 2 ^ 32)
    let s := modAxis s n fun x => { x with
      dev := e / one32, devPeak := max x.devPeak mag, lost := out
      errDev := if out && !x.lost then satAdd 0xFFFF x.errDev 1 else x.errDev }
    let s := if out && !x.lost then raiseLimited s 145 n.val (ms 1) 1 fun k => (0, w32 (toBits 32 (e / one32)), w32 k, 0) else s
    if e.natAbs > x.stallWin * 2 ^ 32 && x.state != .fault then stall s n else s

/-- A position rounded to a band's increment, towards minus infinity while v is not negative and towards plus infinity otherwise (R423). -/
def bandPos (x : Axis) (b : Nat) : Int :=
  let inc : Int := 2 ^ b
  if x.v ≥ 0 then x.p / (inc * one32) * inc else -((-x.p) / (inc * one32)) * inc

/-- The band of a tick: at most one step, a step up only once its address is not behind the last one sent (R424, R425). -/
def bandStep (x : Axis) : Nat :=
  let upAt (b : Nat) : Nat := match idx 8 (b - 1) with
    | some i => vget x.up i
    | none => 0
  let v := x.v.natAbs
  if x.band < 8 && v ≥ upAt (x.band + 1) * 2 ^ 64 then
    let q := bandPos x (x.band + 1)
    if (x.v ≥ 0 && q ≥ x.sent) || (x.v < 0 && q ≤ x.sent) then x.band + 1 else x.band
  else if x.band > 0 && v * 256 < upAt x.band * (256 - x.hyst) * 2 ^ 64 then x.band - 1
  else x.band

/-- The parity bit that makes the number of ones even. -/
def evenParity (w : Nat) : Nat := ((List.range 32).countP fun i => w / 2 ^ i % 2 == 1) % 2

/-- The current scale of the current in force. -/
def currentOf (x : Axis) : Nat := if x.current = 0 then x.holdI else if x.current = 1 then x.runI else x.homeI

/-- The phase-link frame of a tick (R420, R423). -/
def plkFrame (x : Axis) (q : Int) : Word :=
  let addr := toBits 10 (if x.dirInv then -q else q)
  let w := addr * 2 ^ 22 + currentOf x % 256 * 2 ^ 14 + x.band % 16 * 2 ^ 10 + b2n (atRest x) * 2 ^ 9 + x.frameSeq % 4 * 2 ^ 7
  w32 (w + evenParity w)

/-- Band and frame of a tick. -/
def sendPlk (s : State) (n : Fin 6) : State :=
  let x := axis s n
  let b := bandStep x
  let s := modAxis s n fun x => { x with band := b, sent := bandPos x b }
  let x := axis s n
  if x.plkEn && x.framesAt ≤ s.ct then
    let w := plkFrame x x.sent
    emit (modAxis s n fun x => { x with plk := w, frameSeq := (x.frameSeq + 1) % 4 }) (.plk n w)
  else s

/-- The axis has come under its ceiling (R437, R445). -/
def ceilEvent (s : State) (n : Fin 6) : State :=
  let x := axis s n
  match x.ceil with
  | some c =>
    let under := decide (x.v.natAbs ≤ c * 2 ^ 64)
    let s := modAxis s n fun x => { x with underCeil := under }
    if under && !x.underCeil then raise s 152 n.val 1 (w32 c) else s
  | none => s

/-- MOT_TICK: the next tick of an axis (R411). -/
def motTick (n : Fin 6) (s : State) : State :=
  let s := takeDue (advanceTo s (axis s n).tickAt) n
  let p0 := (axis s n).p
  let run := fwRuns s
  let s := modAxis s n (generate run)
  let s := superviseEnc s n
  let shift0 := (axis s n).p
  let s := settleAxis s n
  let s := sendPlk (ceilEvent s n) n
  let x := axis s n
  let s := feedTick s n (shift0 - p0) x.v x.a x.jk
  modAxis s n fun x => { x with
    tickAt := x.tickAt + 4000
    past := { t := s.ct, p := x.p, v := x.v, a := x.a, j := x.jk } :: x.past.filter fun y => s.ct ≤ y.t + x.debounce * 4000 + 4000 }

def execMotTick (n : Fin 6) (s : State) : Host.Outcome State Fault Refusal := .next (if s.glb.sysLock then motTick n s else s)

/-! ## Encoder and inputs (R426, R427, R431-R433) -/

/-- p at a CT, from the tick before it. -/
def axisPosAt (x : Axis) (t : Nat) : Int :=
  match x.past.find? (·.t ≤ t) with
  | some y => cubicAt y.p y.v y.a y.j ((t : Int) - y.t)
  | none => match x.past.getLast? with
    | some y => y.p
    | none => x.p

/-- ENCODER_EDGE: a recognised edge, stamped with CT less the input's latency (R217, R426). -/
def encoderEdge (n : Fin 6) (up : Bool) (s : State) : State :=
  let x := axis s n
  let d : Int := if up then 1 else -1
  let stamp := s.ct - (x.encFilt + 2)
  let p := axisPosAt x stamp
  let s := modAxis s n fun x => { x with count := signed 32 (toBits 32 (x.count + d)), encAt := stamp, encP := p }
  feedEdge s n d stamp (s.fir.cmdPos + (p - x.p))

def execEncoderEdge (n : Fin 6) (up : Bool) (s : State) : Host.Outcome State Fault Refusal := .next (encoderEdge n up s)

/-- QUADRATURE_ERROR: counted and reported once a millisecond; a feed encoder's is a feed fault (R218, R427). -/
def execQuadratureError (n : Fin 6) (s : State) : Host.Outcome State Fault Refusal :=
  .next (feedQuadError (raiseLimited (modAxis s n fun x => { x with errQuad := satAdd 0xFFFF x.errQuad 1 }) 150 n.val (ms 1) 1
    fun k => (0, w32 k, 0, 0)) n)

/-- What an edge of an input means to a homing run (R434, R435); `none` when it means nothing to it. -/
def homingEdge (s : State) (n : Fin 6) (i : Fin 2) (active chatter : Bool) (at' : Int) : Option State :=
  let x := axis s n
  let m := vget x.inputs i
  match x.state == .homing, x.homing with
  | true, some h =>
    let isRef := (h.src == 1 && m.role == 3) || (h.src == 2 && m.role == homeSide h)
    if isRef && chatter then some (failHoming s n 3 true stFailed dChatter)
    else if isRef && active && h.step = 2 then some (homeRef s n at')
    else if active && m.role == homeSide h && h.step = 2 && h.src != 2 then some (failHoming s n 1 true stFailed dHomeLimit)
    else none
  | _, _ => none

/-- INPUT_QUALIFIED_EDGE: an input has held a new level for DEBOUNCE (R431-R433). -/
def inputEdge (n : Fin 6) (i : Fin 2) (s : State) : State :=
  let x := axis s n
  let m := vget x.inputs i
  let active := !m.qual
  let edges := s.ct :: m.edges.filter fun t => s.ct < t + ms 50
  let chatter := edges.length ≥ 4 && !m.chat
  let at' := axisPosAt x (s.ct - 4000 * x.debounce)
  let before := m.qual || m.chat
  let s := modAxis s n fun x => { x with inputs := vmod x.inputs i fun m => { m with
    raw := active, qual := active, edges := edges, chat := m.chat || chatter } }
  let s := if chatter then raise s 148 n.val i.val (w32 edges.length) else s
  let now := active || m.chat || chatter
  let ws := posWords at'
  let isLimit := m.role = 1 || m.role = 2
  let s := if isLimit && before != now then raise s 147 n.val (i.val + 2 * b2n (!now)) (ws.getD 0 0) (ws.getD 1 0) else s
  let trip := now && !before
  match homingEdge s n i trip chatter at' with
  | some s => s
  | none =>
    let h := heading (axis s n)
    if isLimit && trip && ((m.role = 1 && h < 0) || (m.role = 2 && h > 0)) then limitQuickStop s n else s

def execInputQualifiedEdge (n : Fin 6) (i : Fin 2) (s : State) : Host.Outcome State Fault Refusal := .next (inputEdge n i s)

/-! ## Jog (R440) -/

/-- The axis whose MOT_JOG lies at an offset. -/
def jogAt (off : Nat) : Option (Fin 6) :=
  if 0x380000 ≤ off && (off - 0x380000) % 0x400 == 0x30 then idx 6 ((off - 0x380000) / 0x400) else none

/-- A host write of MOT_JOG. -/
def jogWrite (s : State) (n : Fin 6) (w : Word) : State :=
  let x := axis s n
  let v := sbits w 31 0
  let ok := x.jogEn && (x.state == .idle || (x.state == .velocity && x.jog)) && !blocked x v && !s.hkp.shutdown
  if ok then modAxis s n fun x => { x with
    state := .velocity, planned := false, plan := [], vt := v, jog := true, lastTag := 0, jogAt := s.ct, current := 1, restAt := none }
  else raise s 153 n.val 1 w

def execJogWrite (n : Fin 6) (v : Word) (s : State) : Host.Outcome State Fault Refusal := .next (if s.bob.linkUp then jogWrite s n v else s)

/-- JOG_TIMEOUT: 100 ms without a write during a jog. -/
def execJogTimeout (n : Fin 6) (s : State) : Host.Outcome State Fault Refusal :=
  .next (if (axis s n).jog then
    raise (modAxis (advanceTo s ((axis s n).jogAt + ms 100)) n fun x => { x with vt := 0, jogAt := (axis s n).jogAt + ms 100 }) 153 n.val 2
      (w32 (toBits 32 (axis s n).vt))
  else s)

/-- HOLD_DELAY_EXPIRY: an axis at rest for HOLD_DELAY goes to HOLD_I (R436). -/
def execHoldDelayExpiry (n : Fin 6) (s : State) : Host.Outcome State Fault Refusal :=
  .next (match (axis s n).restAt with
    | some t => modAxis (advanceTo s (t + ms (axis s n).holdDelay)) n fun x => { x with current := 0, restAt := none }
    | none => s)

end Sys2Proof.Machine
end

