-- ==== Sys2Proof/Machine/MotCmd.lean ====
section
/-! DEFINITION. The MOT commands and what a cancel does to them (R417-R419, R438, R441-R444). -/

namespace Sys2Proof.Machine

open Sys2Proof

/-- A command's axis; 6 and 7 name none. -/
def onAxis (s : State) (c : Cmd) (f : Fin 6 → CmdRes) : CmdRes :=
  match idx 6 (bits (pw c 0) 2 0) with
  | none => .badParam s 0
  | some n => f n

/-- A 48-bit signed position of two words, with 32 fraction bits. -/
def posParam (c : Cmd) (i : Nat) : Int := signed 48 ((pw c i).toNat + 2 ^ 32 * bits (pw c (i + 1)) 15 0) * one32

/-- The axis is FIR's feed source while a panel is open (R438). -/
def feedBusy (s : State) (n : Fin 6) : Bool := s.fir.src == 1 && s.fir.axis == n.val && panelOpen s

def enabled (x : Axis) : Bool := x.state != .disabled
def inFault (x : Axis) : Bool := x.state == .fault

/-- MOT.SET_AXIS (R441, R442). -/
def motSetAxis (c : Cmd) (s : State) : CmdRes :=
  onAxis s c fun n =>
    let x := axis s n
    let w0 := pw c 0
    let ratio := sbits (pw c 1) 31 0
    let w2 := pw c 2
    let w3 := pw c 3
    firstFail s [chkS (enabled x && !inFault x) dNotAtRest, chkS (inFault x) dStall, chkS (feedBusy s n) dFeedAxis, chkW (bits w0 15 8 = 0 || bits w0 23 16 > 128) 0,
        chkW (bit w0 3 && ratio = 0) 1, chkW (bits w2 15 0 = 0 || bits w2 31 16 < bits w2 15 0) 2]
      (.ok (touch (modAxis s n fun x => { x with
        encEn := bit w0 3, dirInv := bit w0 4, rejectRev := bit w0 5, jogEn := bit w0 6, encFilt := bits w0 15 8, hyst := bits w0 23 16
        ratio := ratio, devWin := bits w2 15 0, stallWin := bits w2 31 16, runI := bits w3 7 0, holdI := bits w3 15 8
        homeI := bits w3 23 16, holdDelay := bits w3 31 24, configured := true }) .mot))

def motSetAxisSpec : CmdSpec := fixedSpec 0x0801 [0x00FFFF7F, all32, all32, all32]

def execMotSetAxis (c : Cmd) (s : State) : Host.Outcome State Fault Refusal :=
  .next (runCmd s motSetAxisSpec c (motSetAxis c))

/-- MOT.SET_LIMITS: from the next tick; a running move is planned again (R413, R442). -/
def motSetLimits (c : Cmd) (s : State) : CmdRes :=
  onAxis s c fun n =>
    let v := (pw c 1).toNat
    let am := (pw c 2).toNat
    let dm := (pw c 3).toNat
    let jm := (pw c 4).toNat
    let qd := (pw c 5).toNat
    let qj := (pw c 6).toNat
    let bad (a : Nat) : Bool := a = 0 || a > 2 ^ 31 - 1
    firstFail s [chkS (inFault (axis s n)) dStall, chkW (v = 0 || v > 25600000) 1, chkW (bad am) 2, chkW (bad dm) 3, chkW (jm = 0) 4,
        chkW (qd < dm || bad qd) 5, chkW (qj < jm) 6]
      (.ok (touch (modAxis s n fun x => { x with vmax := v, amax := am, dmax := dm, jmax := jm, qdmax := qd, qjmax := qj, replan := true }) .mot))

def motSetLimitsSpec : CmdSpec := fixedSpec 0x0802 ([7] ++ List.replicate 6 all32)

def execMotSetLimits (c : Cmd) (s : State) : Host.Outcome State Fault Refusal :=
  .next (runCmd s motSetLimitsSpec c (motSetLimits c))

/-- MOT.SET_BANDS: UP must not fall (R424, R442). -/
def motSetBands (c : Cmd) (s : State) : CmdRes :=
  onAxis s c fun n =>
    let ups := c.words.drop 1
    let falls := (List.range 7).find? fun i => (ups.getD (i + 1) 0).toNat < (ups.getD i 0).toNat
    firstFail s [chkS (inFault (axis s n)) dStall, chkW falls.isSome (falls.getD 0 + 2)]
      (.ok (touch (modAxis s n fun x => { x with up := Vector.ofFn fun b : Fin 8 => (pw c (1 + b.val)).toNat }) .mot))

def motSetBandsSpec : CmdSpec := fixedSpec 0x0803 ([7] ++ List.replicate 8 all32)

def execMotSetBands (c : Cmd) (s : State) : Host.Outcome State Fault Refusal :=
  .next (runCmd s motSetBandsSpec c (motSetBands c))

/-- MOT.SET_INPUTS (R431, R442). A changed polarity changes the level after it. -/
def motSetInputs (c : Cmd) (s : State) : CmdRes :=
  onAxis s c fun n =>
    let x := axis s n
    let w := pw c 1
    let set (m : MotInput) (role : Nat) (low : Bool) : MotInput :=
      let flip := low != m.low
      { m with role := role, low := low, raw := m.raw != flip, qual := m.qual != flip }
    firstFail s [chkS (enabled x && !inFault x) dNotAtRest, chkS (inFault x) dStall,
        chkW ((bits w 1 0 == bits w 5 4 && (bits w 1 0 == 1 || bits w 1 0 == 2)) || bits w 25 16 > 1000) 1]
      (.ok (touch (modAxis s n fun x => { x with
        inputs := vmod (vmod x.inputs 0 fun m => set m (bits w 1 0) (bit w 2)) 1 fun m => set m (bits w 5 4) (bit w 6)
        debounce := bits w 25 16 }) .mot))

def motSetInputsSpec : CmdSpec := fixedSpec 0x0804 [7, 0x03FF0077]

def execMotSetInputs (c : Cmd) (s : State) : Host.Outcome State Fault Refusal :=
  .next (runCmd s motSetInputsSpec c (motSetInputs c))

/-- An axis goes to DISABLED: no frames; its commands end, HOMED stays only with an encoder; a feed axis is a feed fault (R218, R436). -/
def disableAxis (s : State) (n : Fin 6) : State :=
  let s := endWaits (endCmd s n stAbandoned dAxisDisabled) n stAbandoned dAxisDisabled
  let x := axis s n
  let s := match x.homing with
    | some h => finishTag s h.pair h.tag stAbandoned dAxisDisabled
    | none => s
  let s := x.ends.foldl (fun s e => finishTag s e.pair e.tag (if e.status = stOk then stAbandoned else e.status)
    (if e.status = stOk then dAxisDisabled else e.detail)) s
  let s := modAxis s n fun x => { x with
    state := .disabled, v := 0, a := 0, jk := 0, plan := [], planned := false, vt := 0, quick := false, limitStop := false, jog := false
    ends := [], homing := none, homed := x.homed && x.encEn, plkEn := false, restAt := none, current := 0, lost := false }
  feedAxisOff (raise s 154 n.val 0) n

/-- An axis goes to IDLE: with ENC_EN its position is that of the encoder and e is 0; frames follow 10 us later (R428, R436). -/
def enableAxis (s : State) (n : Fin 6) : State :=
  raise (modAxis s n fun x =>
    let x := { x with state := .idle, plkEn := true, framesAt := s.ct + 4000 + 512, current := 0, v := 0, a := 0, jk := 0 }
    if x.encEn then zeroDev s { x with p := nearest (x.encOff + encUnits x) * one32 } else x) 154 n.val 1

/-- MOT.ENABLE (R436, R438). Switching on is what a disabled axis takes [A 49]. -/
def motEnable (c : Cmd) (s : State) : CmdRes :=
  onAxis s c fun n =>
    let x := axis s n
    if bit (pw c 0) 8 then
      firstFail s [chkS (!x.configured) dAxisDisabled] (.ok (touch (if enabled x then s else enableAxis s n) .mot))
    else .ok (touch (if enabled x then disableAxis s n else s) .mot)

def motEnableSpec : CmdSpec := fixedSpec 0x0805 [0x107]

def execMotEnable (c : Cmd) (s : State) : Host.Outcome State Fault Refusal :=
  .next (runCmd s motEnableSpec c (motEnable c))

/-- The tack of a START field. -/
def startTack (c : Cmd) : Option (Fin 32) := if bits (pw c 0) 13 8 = 0 then none else idx 32 (bits (pw c 0) 13 8 - 1)

/-- What MOVE_TO and SET_VELOCITY check of the axis: enabled, no FAULT, no quick stop (R418, R442). -/
def motionChecks (s : State) (c : Cmd) (n : Fin 6) (dir : Int) : List (Bool × Nat × Nat) :=
  let x := axis s n
  [chkS (!enabled x) dAxisDisabled, chkS (inFault x) dStall, chkW (bits (pw c 0) 13 8 > 32) 0,
    chkS (x.state == .stopping && x.quick) (if x.limitStop then dLimit else dStopped), chkS (s.hkp.shutdown || blocked x dir) dLimit]

/-- A motion command waits for its tick (R417). -/
def addWait (s : State) (c : Cmd) (n : Fin 6) (isMove : Bool) (goal : Int) : State :=
  modAxis s n fun x => { x with
    waits := x.waits ++ [{ pair := c.pair, tag := c.tag, isMove := isMove, goal := goal, tack := startTack c, since := s.ct + us 50 }] }

/-- MOT.MOVE_TO (R415-R418). -/
def motMoveTo (c : Cmd) (s : State) : CmdRes :=
  onAxis s c fun n =>
    let x := axis s n
    let t := posParam c 1
    firstFail s (motionChecks s c n (t - x.p) ++ [chkS (x.rejectRev && behind x t) dReverse]) (.started (addWait s c n true t))

def motMoveToSpec : CmdSpec := fixedSpec 0x0806 [0x3F07, all32, 0xFFFF] true

def execMotMoveTo (c : Cmd) (s : State) : Host.Outcome State Fault Refusal :=
  .next (runCmd s motMoveToSpec c (motMoveTo c))

/-- MOT.SET_VELOCITY (R414, R417, R418). -/
def motSetVelocity (c : Cmd) (s : State) : CmdRes :=
  onAxis s c fun n =>
    let v := sbits (pw c 1) 31 0
    firstFail s (motionChecks s c n v) (.started (addWait s c n false v))

def motSetVelocitySpec : CmdSpec := fixedSpec 0x0807 [0x3F07, all32] true

def execMotSetVelocity (c : Cmd) (s : State) : Host.Outcome State Fault Refusal :=
  .next (runCmd s motSetVelocitySpec c (motSetVelocity c))

/-- MOT.STOP: the motion command it stops ends ABANDONED with STOPPED; the stop replies at rest (R419). -/
def motStop (c : Cmd) (s : State) : CmdRes :=
  onAxis s c fun n =>
    let x := axis s n
    firstFail s [chkS (!enabled x) dAxisDisabled, chkS (inFault x) dStall]
      (let s := endWaits (endCmd s n stAbandoned dStopped) n stAbandoned dStopped
       let s := match x.homing with
         | some h => finishTag (modAxis s n fun x => { x with homing := none }) h.pair h.tag stAbandoned dStopped
         | none => s
       if x.state == .idle then .ok s (posWords x.p)
       else if atRest (axis s n) then
         .ok (beginStop (modAxis s n fun x => { x with lastTag := c.tag }) n (bit (pw c 0) 8) false) (posWords x.p)
       else
         let s := modAxis s n fun x => { x with ends := x.ends ++ [{ pair := c.pair, tag := c.tag, withPos := true }] }
         .started (beginStop s n (bit (pw c 0) 8) false))

def motStopSpec : CmdSpec := fixedSpec 0x0808 [0x107] true

def execMotStop (c : Cmd) (s : State) : Host.Outcome State Fault Refusal :=
  .next (runCmd s motStopSpec c (motStop c))

/-- MOT.HOME: from IDLE, steps 1 and 2 at once (R434-R436, R442). -/
def motHome (c : Cmd) (s : State) : CmdRes :=
  onAxis s c fun n =>
    let x := axis s n
    let w := pw c 0
    let src := bits w 9 8
    let neg := bit w 10
    let dir : Int := if neg then -1 else 1
    firstFail s [chkS (!enabled x) dAxisDisabled, chkS (inFault x) dStall, chkS (feedBusy s n) dFeedAxis, chkS (x.state != .idle) dNotAtRest,
        chkW (src = 3) 0, chkS (src = 0 && !x.encEn) dNoEncoder, chkS (s.hkp.shutdown || blocked x dir) dLimit]
      (let v := (pw c 1).toNat
       let h : Homing := { pair := c.pair, tag := c.tag, src := src, neg := neg, vel := v, backoff := (pw c 2).toNat
                           offset := signed 48 ((pw c 3).toNat + 2 ^ 32 * bits (pw c 4) 15 0), max := (pw c 5).toNat, start := x.p, since := s.ct + us 50 }
       .started (touch (modAxis s n fun x => { x with
         state := .homing, homing := some h, lastTag := c.tag, homed := false, current := if src = 0 then 2 else 1, vt := dir * v, planned := false, plan := []
         quick := false, limitStop := false, restAt := none }) .mot))

def motHomeSpec : CmdSpec := fixedSpec 0x0809 [0x707, all32, all32, all32, 0xFFFF, all32] true

def execMotHome (c : Cmd) (s : State) : Host.Outcome State Fault Refusal :=
  .next (runCmd s motHomeSpec c (motHome c))

/-- MOT.SET_POSITION: a new p at rest, with e = 0 (R428, R442). -/
def motSetPosition (c : Cmd) (s : State) : CmdRes :=
  onAxis s c fun n =>
    let x := axis s n
    firstFail s [chkS (!enabled x) dAxisDisabled, chkS (inFault x) dStall, chkS (feedBusy s n) dFeedAxis, chkS (x.state != .idle) dNotAtRest]
      (.ok (touch (modAxis s n fun x => zeroDev s { x with p := posParam c 1, past := [] }) .mot))

def motSetPositionSpec : CmdSpec := fixedSpec 0x080A [7, all32, 0xFFFF]

def execMotSetPosition (c : Cmd) (s : State) : Host.Outcome State Fault Refusal :=
  .next (runCmd s motSetPositionSpec c (motSetPosition c))

/-- MOT.CLEAR: FAULT to IDLE with HOLD_I kept; CHATTER latches of inputs without an edge for 50 ms (R432, R436). -/
def motClear (c : Cmd) (s : State) : CmdRes :=
  onAxis s c fun n =>
    let x := axis s n
    let busy := (indices 2).any fun i => (vget x.inputs i).chat && (vget x.inputs i).edges.any fun t => s.ct < t + ms 50
    firstFail s [chkS busy dChatter]
      (.ok (touch (modAxis s n fun x => { x with
        state := if x.state == .fault then .idle else x.state, inputs := x.inputs.map fun m => { m with chat := false } }) .mot))

def motClearSpec : CmdSpec := fixedSpec 0x080B [7]

def execMotClear (c : Cmd) (s : State) : Host.Outcome State Fault Refusal := .next (runCmd s motClearSpec c (motClear c))

/-- SYS.CANCEL of a motion command: one that waits ends at once, one in effect stops and ends at rest (R417, R419, R435). -/
def motCancel (s : State) (pair : Fin 4) (tag : BitVec 16) : State :=
  (indices 6).foldl (fun s n =>
    let x := axis s n
    let s :=
      if x.waits.any fun w => w.pair == pair && w.tag == tag then
        finishTag (modAxis s n fun x => { x with waits := x.waits.filter fun w => !(w.pair == pair && w.tag == tag) }) pair tag stAbandoned 0
      else s
    if x.cmd == some (pair, tag) then
      beginStop (modAxis s n fun x => { x with cmd := none, ends := x.ends ++ [{ pair := pair, tag := tag, status := stAbandoned }] }) n false false
    else match x.homing with
      | some h => if h.pair == pair && h.tag == tag then failHoming s n 5 false stAbandoned 0 else s
      | none => s) s

/-- STATE of MOT_STAT. -/
def axisCode : AxisState → Nat
  | .disabled => 0 | .idle => 1 | .position => 2 | .velocity => 3 | .stopping => 4 | .homing => 5 | .fault => 6

/-- MOT_STAT (R444). -/
def motStat (s : State) (n : Fin 6) : Word :=
  let x := axis s n
  pack [(axisCode x.state, 0), (b2n x.homed, 3), (b2n (atRest x), 4), (b2n (x.current == 0 && enabled x), 5), (x.band, 6),
    (b2n (s.fir.src == 1 && s.fir.axis == n.val), 10), (b2n x.ceil.isSome, 11), (b2n (x.ceil.isSome && axisUnderCeiling s n), 12),
    (b2n (x.waits.any (·.tack.isSome)), 13), (b2n x.jog, 14), (b2n x.lost, 15)]

/-- MOT_STAT_READ: a host read captures position, velocity, encoder count and deviation of an axis (R444). -/
def motStatRead (n : Fin 6) (s : State) : State :=
  answerRead (modAxis s n fun x => { x with snapPos := x.p / one32, snapVel := wholeVel x.v, snapEnc := x.count, snapDev := x.dev }) (motStat s n)

def execMotStatRead (n : Fin 6) (s : State) : Host.Outcome State Fault Refusal := .next (if s.bob.linkUp then motStatRead n s else s)

end Sys2Proof.Machine
end

