-- ==== Sys2Proof/Machine/Hkp.lean ====
section
/-! DEFINITION. HKP: the housekeeping round, conversions, thresholds, throttling, shutdown, supply monitors (R534-R546, R559, R560, R584,
R593). -/

namespace Sys2Proof.Machine

open Sys2Proof

def modHkp (s : State) (f : Hkp → Hkp) : State := { s with hkp := f s.hkp }

/-- DETAIL values of R560. -/
def dHot : Nat := 0x1002
def dPairBad : Nat := 0x1003
def dWindowWide : Nat := 0x1004
def dHkpPanelOpen : Nat := 0x1005

/-! ## Conversions (R535, R536) -/

/-- Natural logarithm of num / den times 2^64: the power of two taken out, then the series of 2 atanh. -/
def lnFix (num den : Nat) : Int :=
  let k : Int := (num.log2 : Int) - den.log2
  let (n, d) : Nat × Nat := if k ≥ 0 then (num, den * 2 ^ k.toNat) else (num * 2 ^ (-k).toNat, den)
  let ln2 : Int := 12786308645202655660
  let z : Int := ((n : Int) - d) * 2 ^ 64 / (n + d : Nat)
  let z2 : Int := z * z / 2 ^ 64
  let rec series : Nat → Int → Nat → Int → Int
    | 0, _, _, acc => acc
    | fuel + 1, p, i, acc => series fuel (p * z2 / 2 ^ 64) (i + 2) (acc + p / i)
  k * ln2 + 2 * series 40 z 1 0

/-- A whole value within 1 of num / den, which of the two or three there are is free: the conversion is accurate to 0.1 degrees of
its formula (R535) [A 42]. -/
def nearValue (num den : Int) (free : Word) : Int :=
  let lo := -((den - num) / den)
  let hi := (num + den) / den
  lo + (free.toNat : Int) % (hi - lo + 1)

/-- A diode's temperature in 0.1 degrees as num / den, from V2 - V1 in microvolts; q / (k ln 10) = 5039.77818533549 K/V. -/
def diodeFormula (c : HkpCh) (m : SlotSample) : Int × Int :=
  let dv : Int := (m.v2 : Int) - m.v1 - 9 * c.rs
  (10 * dv * 503977818533549 * 16384 - (27315 * 10 ^ 16 - c.offset * 10 ^ 17) * c.eta, 10 ^ 17 * c.eta)

/-- A thermistor's temperature in 0.1 degrees as num / den; den is not positive where the formula gives none. -/
def thermFormula (c : HkpCh) (m : SlotSample) : Int × Int :=
  let code := m.code.toNat
  let l := lnFix (c.rb * code) ((65535 - code) * c.r0)
  let den : Int := 100 * c.b * 2 ^ 64 + 29815 * l
  (298150 * c.b * 2 ^ 64 * 10 + (c.offset * 10 - 27315) * den, 10 * den)

/-- Fault code of a sample before its conversion; 0 none (R536). -/
def sampleFault (c : HkpCh) (m : SlotSample) : Nat :=
  if c.mode = 1 then
    if m.v1 > 1200000 then 1 else if m.v2 < 100000 then 2
    else if m.v2 < m.v1 || (m.v2 : Int) - m.v1 - 9 * c.rs < 10000 then 3 else 0
  else if m.code.toNat > 65208 then 1 else if m.code.toNat < 328 then 2 else 0

/-- The value of a sample of a remote channel; a formula that gives no number (a parameter of 0) leaves a free value. -/
def sampleTemp (c : HkpCh) (m : SlotSample) (free : Word) : Int :=
  let f := if c.mode = 1 then diodeFormula c m else thermFormula c m
  if c.mode = 1 && c.eta != 0 then nearValue f.1 f.2 free
  else if c.mode = 2 && c.r0 != 0 && c.b != 0 && c.rb != 0 then (if f.2 > 0 then nearValue f.1 f.2 free else 32767)
  else sbits free 15 0

/-- A temperature outside -55.0 to +200.0 degrees. -/
def outOfRange (t : Int) : Bool := t < -550 || t > 2000

/-- A round's finding on a channel: value, or fault; broken at the second in a row (R536, R558). -/
def takeSample (s : State) (n : Fin 46) (fault : Nat) (t : Int) : State :=
  let c := chan s n
  if fault = 0 then
    modChan s n fun c => { c with temp := t, sampled := some s.ct, badOnce := false, sound := min 8 (c.sound + 1) }
  else
    let s' := modChan s n fun c => { c with badOnce := true, sound := 0 }
    if c.badOnce && !c.broken then
      let s' := modChan s' n fun c => { c with broken := true, fault := fault }
      raise s' 228 n.val fault (w32 (b2n (covered s' (.ch n))))
    else s'

/-! ## Levels (R538, R539, R542-R544) -/

/-- The thermal term as FIR's ceiling sees it is set or removed by a schedule write to FIR (R240, R542, R543). -/
def setTerm (s : State) (t : Option Nat) : State := touch (modHkp s fun h => { h with term := t, stepAt := s.ct }) .fir

/-- A throttle request starts (R542). -/
def throttleRequest (s : State) (g : Fin 9) (t : Int) : State :=
  raise (modHkp s fun h => { h with throttle := .requested, reqAt := s.ct, slowReq := true }) 225 g.val 0 (w32 (toBits 32 t))

/-- Every group is below THROTTLE less its hysteresis: the request or the enforcement ends (R542). -/
def throttleEnd (s : State) (g : Fin 9) (t : Int) : State :=
  if s.hkp.groups.toList.any (·.inThrottle) then s
  else match s.hkp.throttle with
    | .none => s
    | .requested => raise (modHkp s fun h => { h with throttle := .none, slowReq := false }) 225 g.val 1 (w32 (toBits 32 t))
    | .enforced => raise (setTerm (modHkp s fun h => { h with throttle := .none, slowReq := false }) none) 226 g.val 2 0

/-- SHUTDOWN: FAULT_N, the event, the sinks, the chains, the axes, no calibration; firing stops through `jetOk` (R544). -/
def enterShutdown (s : State) (g : Fin 9) (t : Int) : State :=
  if s.hkp.shutdown then s
  else
    let s := modHkp s fun h => { h with shutdown := true, shutGroup := g, throttle := .none, slowReq := true, term := none }
    let s := { s with cal := { s.cal with groups := s.cal.groups.map fun x => { x with running := none } } }
    motShutdown (lightShutdown (raise (setFault s fltShutdown true) 227 g.val 0 (w32 (toBits 32 t))))

/-- Whether a level holds: entered at the threshold, left below it less the hysteresis (R538). -/
def levelHolds (was : Bool) (t thr : Int) (hyst : Nat) : Bool := if was then !(t < thr - hyst) else t ≥ thr

/-- A group's covered sensor holds WARN latched (R539). -/
def latchGroup (s : State) (g : Fin 9) (t : Int) : State :=
  if (groupSensors s g).any (fun n => covered s (.ch n)) && !(vget s.hkp.groups g).latched then
    raise (modGroup s g fun x => { x with latched := true }) 224 g.val 1 (w32 (toBits 32 t))
  else s

/-- A group is compared with its thresholds. -/
def evalGroup (s : State) (g : Fin 9) : State :=
  let s := latchGroup s g ((groupTemp s g).getD 0)
  match groupTemp s g with
  | none => s
  | some t =>
    let x := vget s.hkp.groups g
    let w := levelHolds x.inWarn t x.warn x.hystW
    let th := levelHolds x.inThrottle t x.throttle x.hystT
    let sd := levelHolds x.inShutdown t x.shutdown x.hystS
    let s := modGroup s g fun x => { x with inWarn := w, inThrottle := th, inShutdown := sd }
    let tw := w32 (toBits 32 t)
    let s := if w && !x.inWarn then raise s 224 g.val 0 tw else if !w && x.inWarn then raise s 224 g.val 2 tw else s
    let s := if sd && !x.inShutdown then enterShutdown s g t else s
    if s.hkp.shutdown then s
    else if th && !x.inThrottle then (if s.hkp.throttle = .none then throttleRequest s g t else s)
    else if !th && x.inThrottle then throttleEnd s g t
    else s

/-- What a new value of a channel, or of its partner, is compared with. -/
def evalChannel (s : State) (n : Fin 46) : State :=
  if n.val ≥ 40 then evalGroup s 8
  else
    let c := chan s n
    match c.role with
    | 1 => match idx 16 c.unit with
      | some p => evalHead s p (some (.ch n))
      | none => s
    | 2 => match idx 9 c.unit with
      | some g => evalGroup s g
      | none => s
    | _ => s

/-! ## Calibration that falls due (R555) -/

/-- With AUTO set, groups whose reference has moved by more than the limit fall due. -/
def calDue (s : State) : State :=
  if !s.cal.auto then s
  else { s with cal := { s.cal with groups := Vector.ofFn fun g : Fin 11 =>
    let x := vget s.cal.groups g
    if (calRef s g - x.temp).natAbs > s.cal.delta then { x with due := true } else x } }

/-! ## Supply monitors (R546, R584, R593) -/

/-- Limits of a monitor in 0.1 mV. -/
def railLimits (m : Fin 16) : Nat × Nat :=
  match m.val with
  | 0 | 1 | 13 | 15 => (7125, 7875)
  | 2 | 3 | 5 | 14 => (7600, 8400)
  | 4 | 6 | 7 => (11400, 12600)
  | 8 | 9 => (10450, 11550)
  | 11 => (30700, 35300)
  | _ => (16700, 19300)

def rail (s : State) (m : Fin 16) : Rail := vget s.hkp.rails m
def modRail (s : State) (m : Fin 16) (f : Rail → Rail) : State := modHkp s fun h => { h with rails := vmod h.rails m f }

/-- A monitor's comparison of the round; a rail back in its window is reported. SV15 is the mean of SV0, SV1 and SV13. -/
def supplySample (s : State) (m : Fin 16) (mv : Nat) : State :=
  let mv := if m.val = 15 then ((rail s 0).mv + (rail s 1).mv + (rail s 13).mv) / 3 else mv
  let (lo, hi) := railLimits m
  let out := 10 * mv < lo || 10 * mv > hi
  let was := (rail s m).uv || (rail s m).ov
  let s := modRail s m fun r => { r with
    mv := mv, outN := if out then r.outN + 1 else 0, inN := if out then 0 else r.inN + 1, uv := r.uv && out, ov := r.ov && out }
  if was && !out then raise s 230 m.val 0 (w32 mv) else s

/-- SUPPLY_OUT_OF_WINDOW: a rail outside its window for two rounds in a row (R546, R584). -/
def supplyOutOfWindow (m : Fin 16) (s : State) : State :=
  let r := rail s m
  if r.outN < 2 || r.uv || r.ov then s
  else
    let low := 10 * r.mv < (railLimits m).1
    let s := raise (modRail s m fun r => { r with uv := low, ov := !low }) 230 m.val (if low then 1 else 2) (w32 r.mv)
    let s := setFault s fltSupply true
    if m.val = 8 || m.val = 9 then drcFreeze s (freezeBare czSupply (m.val - 8) 0) else s

def execSupplyOutOfWindow (m : Fin 16) (s : State) : Host.Outcome State Fault Refusal := .next (supplyOutOfWindow m s)

/-- SUPPLY_RECOVERED: every rail has been back in its window for two rounds (R584). -/
def execSupplyRecovered (s : State) : Host.Outcome State Fault Refusal :=
  .next (if (indices 16).all fun m => (rail s m).inN ≥ 2 then setFault s fltSupply false else s)

/-! ## The round (R534) -/

/-- What the present slot measures, unless the ADC is being calibrated (R534, R558). -/
def slotSample (s : State) (m : SlotSample) : State :=
  let k := s.hkp.slot
  if adcRuns s then s
  else if k < 46 then
    match idx 46 k with
    | none => s
    | some n =>
      let c := chan s n
      if c.mode = 0 then s
      else
        let (free, s) := fresh s
        let bad := if k < 40 then sampleFault c m else 0
        let t := if k < 40 then sampleTemp c m free else m.die
        let s := takeSample s n (if bad = 0 && outOfRange t then 4 else bad) t
        calDue (evalChannel s n)
  else if k < 62 then
    match idx 16 (k - 46) with
    | some r => supplySample s r m.mv
    | none => s
  else s

/-- The end of slot 63: HKP_ROUND, the DMA request of the round end, EV_HKP_ROUND when routed, EV_GLB_READY HKP (R77, R534, R563, R581). -/
def roundEnd (s : State) : State :=
  let s := modHkp s fun h => { h with round := (h.round + 1) % 65536 }
  let s := { s with bob := { s.bob with rings := Vector.ofFn fun n : Fin 32 =>
    let r := vget s.bob.rings n
    if n.val < 16 && r.en then { r with roundLatch := true } else r } }
  let s := if (vget s.evt.routes (231 : Fin 256)).en then raise s 231 0 0 (w32 s.hkp.round) else s
  if adcRuns s then s else setReady s 3

/-- HKP_SLOT: the present slot ends (R534). -/
def hkpSlot (m : SlotSample) (s : State) : State :=
  let s := advanceTo s s.hkp.slotAt
  let s := slotSample s m
  let last := s.hkp.slot ≥ 63
  let s := modHkp s fun h => { h with slot := if last then 0 else h.slot + 1, slotAt := h.slotAt + 100000 }
  if last then roundEnd s else s

def execHkpSlot (m : SlotSample) (s : State) : Host.Outcome State Fault Refusal := .next (if s.glb.sysLock then hkpSlot m s else s)

/-! ## Throttling (R542, R543) -/

/-- f_other of the active panel; 80 kHz without one. -/
def otherRate (s : State) : Nat :=
  match s.pdp.active with
  | some pan => fOther s pan
  | none => 80000

/-- The group that stands highest against THROTTLE: the first at or above it, else the first in the level. -/
def hotGroup (s : State) : Fin 9 :=
  ((indices 9).find? fun g => match groupTemp s g with
    | some t => t ≥ (vget s.hkp.groups g).throttle
    | none => false).getD (((indices 9).find? fun g => (vget s.hkp.groups g).inThrottle).getD 8)

/-- Some group is at or above THROTTLE. -/
def someHot (s : State) : Bool :=
  (indices 9).any fun g => match groupTemp s g with
    | some t => t ≥ (vget s.hkp.groups g).throttle
    | none => false

/-- THROTTLE_GRACE_EXPIRY: the request stands when GRACE has passed: with an own axis the thermal term, with any other feed a stop at the
next hem. The state machine is firmware and waits for a sequencer (R240, R542, R561). -/
def graceExpiry (s : State) : State :=
  if s.hkp.throttle != .requested || !fwRuns s then s
  else
    let s := advanceTo s (s.hkp.reqAt + s.hkp.grace * 40000000)
    if s.ct < s.hkp.reqAt + s.hkp.grace * 40000000 then s
    else
      let term := if s.fir.src = 1 then some (otherRate s * s.hkp.frac / 256) else none
      let s := setTerm (modHkp s fun h => { h with throttle := .enforced }) term
      raise s 226 (hotGroup s).val 0 (w32 (term.getD 0))

def execThrottleGraceExpiry (s : State) : Host.Outcome State Fault Refusal := .next (graceExpiry s)

/-- THROTTLE_STEP_EXPIRY: STEP has passed since the last change and some group is at or above THROTTLE (R542). -/
def stepExpiry (s : State) : State :=
  match s.hkp.throttle, s.hkp.term with
  | .enforced, some t =>
    let at' := s.hkp.stepAt + s.hkp.step * 40000000
    let s := advanceTo s at'
    if s.ct < at' || !someHot s || !fwRuns s then s
    else
      let t := max s.hkp.floor (t * s.hkp.frac / 256)
      raise (setTerm s (some t)) 226 (hotGroup s).val 1 (w32 t)
  | _, _ => s

def execThrottleStepExpiry (s : State) : Host.Outcome State Fault Refusal := .next (stepExpiry s)

/-! ## Commands (R559, R560) -/

/-- A pairing keeps R537: with itself, another head's channel, a TEMPn the head lacks, or a partner already taken it does not. -/
def pairOk (s : State) (n role unit pair : Nat) : Bool :=
  let others (f : HkpCh → Bool) : Bool := (indices 46).any fun m => m.val < 40 && m.val != n && (chan s m).mode != 0 && f (chan s m)
  let named := (indices 46).find? fun m => m.val < 40 && m.val != n && (chan s m).mode != 0 && (chan s m).pair == n
  if pair = 63 then true
  else if pair < 40 then
    pair != n && (match idx 46 pair with
      | some m =>
        let d := chan s m
        (d.mode == 0 || d.role != 1 || (role == 1 && d.unit == unit)) && (d.pair == 63 || d.pair == n)
      | none => false) &&
    !others (·.pair == pair) && (match named with
      | some m => m.val == pair
      | none => true)
  else if pair < 44 then
    role == 1 && (match idx 16 unit with
      | some p => pair - 40 < ntempOf s p
      | none => false) && !others (fun d => d.role == 1 && d.unit == unit && d.pair == pair) && named.isNone
  else false

/-- HKP.SET_CHANNEL (R535, R537, R538, R560). -/
def hkpSetChannel (c : Cmd) (s : State) : CmdRes :=
  let w := pw c 0
  let mode := bits w 7 6
  let role := bits w 9 8
  let unit := bits w 13 10
  let pair := bits w 19 14
  match idx 46 (bits w 5 0) with
  | none => .badParam s 0
  | some n =>
    let old := chan s n
    let busy : Bool := old.role == 1 && (role != 1 || unit != old.unit) && match idx 16 old.unit with
      | some p => inPanel s p
      | none => false
    firstFail s
      [chkW (n.val ≥ 40 || mode == 3 || role == 3 || (role == 2 && unit > 7) || (43 < pair && pair < 63)) 0, chkP (!pairOk s n.val role unit pair) dPairBad,
        chkS busy dHkpPanelOpen]
      (let s := modChan s n fun x => { x with
         mode := mode, role := role, unit := unit, pair := pair, eta := bits (pw c 1) 15 0, rs := bits (pw c 1) 23 16, r0 := (pw c 2).toNat
         b := bits (pw c 3) 15 0, rb := (pw c 4).toNat, offset := sbits (pw c 5) 15 0, sampled := if x.mode = mode then x.sampled else none }
       .ok (touch (evalChannel s n) .hkp))

def hkpSetChannelSpec : CmdSpec := fixedSpec 0x0A01 [0xFFFFF, 0xFFFFFF, all32, 0xFFFF, all32, 0xFFFF]

def execHkpSetChannel (c : Cmd) (s : State) : Host.Outcome State Fault Refusal :=
  .next (runCmd s hkpSetChannelSpec c (hkpSetChannel c))

/-- HKP.SET_THRESH, privileged (R538, R560). -/
def hkpSetThresh (c : Cmd) (s : State) : CmdRes :=
  let w := sbits (pw c 1) 15 0
  let t := sbits (pw c 1) 31 16
  let d := sbits (pw c 2) 15 0
  match idx 9 (bits (pw c 0) 3 0) with
  | none => .badParam s 0
  | some g =>
    firstFail s [chkW (!(w < t && t < d)) 1]
      (.ok (touch (evalGroup (modGroup s g fun x => { x with
        warn := w, throttle := t, shutdown := d
        hystW := bits (pw c 3) 7 0, hystT := bits (pw c 3) 15 8, hystS := bits (pw c 3) 23 16 }) g) .hkp))

def hkpSetThreshSpec : CmdSpec := fixedSpec 0x0A02 [0xF, all32, 0xFFFF, 0xFFFFFF] (priv := true)

def execHkpSetThresh (c : Cmd) (s : State) : Host.Outcome State Fault Refusal :=
  .next (runCmd s hkpSetThreshSpec c (hkpSetThresh c))

/-- HKP.SET_HEAD: the window may be narrowed within the rank record (R541, R560). -/
def hkpSetHead (c : Cmd) (s : State) : CmdRes :=
  let p : Fin 16 := ⟨bits (pw c 0) 3 0, Nat.mod_lt _ (by decide)⟩
  let lo := sbits (pw c 1) 15 0
  let hi := sbits (pw c 1) 31 16
  let wide := match (hport s p).rank with
    | some r => lo < r.jetLo || hi > r.jetHi
    | none => lo < 200 || hi > 600
  firstFail s [chkW (lo > hi) 1, chkP wide dWindowWide]
    (.ok (touch (evalHead (modHead s p fun w => { w with lo := lo, hi := hi, hyst := bits (pw c 2) 7 0 }) p none) .hkp))

def hkpSetHeadSpec : CmdSpec := fixedSpec 0x0A03 [0xF, all32, 0xFF]

def execHkpSetHead (c : Cmd) (s : State) : Host.Outcome State Fault Refusal :=
  .next (runCmd s hkpSetHeadSpec c (hkpSetHead c))

/-- HKP.SET_THROTTLE, privileged (R542). -/
def hkpSetThrottle (c : Cmd) (s : State) : CmdRes :=
  let w := pw c 0
  let f := bits (pw c 1) 16 0
  firstFail s [chkW (bits w 7 0 > 250 || bits w 15 8 < 5 || bits w 15 8 > 250 || bits w 23 16 < 128) 0, chkW (f < 1000 || f > 80000) 1]
    (.ok (touch (modHkp s fun h => { h with grace := bits w 7 0, step := bits w 15 8, frac := bits w 23 16, floor := f }) .hkp))

def hkpSetThrottleSpec : CmdSpec := fixedSpec 0x0A04 [0xFFFFFF, 0x1FFFF] (priv := true)

def execHkpSetThrottle (c : Cmd) (s : State) : Host.Outcome State Fault Refusal :=
  .next (runCmd s hkpSetThrottleSpec c (hkpSetThrottle c))

/-- SHUTDOWN clears: FAULT_N, the event, the throttle from NONE, and a new request at once for a group at or above THROTTLE (R545). -/
def clearShutdown (s : State) : State :=
  let g := s.hkp.shutGroup
  let s := raise (setFault (modHkp s fun h => { h with shutdown := false, slowReq := false, throttle := .none }) fltShutdown false) 227 g.val 1
    (w32 (toBits 32 ((groupTemp s g).getD 0)))
  let s := modHkp s fun h => { h with groups := Vector.ofFn fun g : Fin 9 => { vget h.groups g with inThrottle := match groupTemp s g with
    | some t => decide (t ≥ (vget h.groups g).throttle)
    | none => false } }
  if someHot s then throttleRequest s (hotGroup s) ((groupTemp s (hotGroup s)).getD 0) else s

/-- A group does not lie below its SHUTDOWN threshold less its hysteresis (R545). -/
def stillHot (s : State) (g : Fin 9) : Bool :=
  let x := vget s.hkp.groups g
  match groupTemp s g with
  | some t => t ≥ x.shutdown - x.hystS
  | none => x.inShutdown

/-- HKP.CLEAR, privileged: SHUTDOWN, sensor latches of channels sound for eight rounds, WARN latches; the result counts them
(R536, R539, R545). -/
def hkpClear (c : Cmd) (s : State) : CmdRes :=
  let w := pw c 0
  let sd := bit w 0 && s.hkp.shutdown
  let sensors := if bit w 1 then (indices 46).filter fun n => (chan s n).broken && (chan s n).sound ≥ 8 else []
  let warns := if bit w 2 then s.hkp.groups.toList.countP (·.latched) + s.hkp.heads.toList.countP (·.latched) else 0
  firstFail s [chkS (sd && (indices 9).any (stillHot s)) dHot]
    (let s := sensors.foldl (fun s n => modChan s n fun x => { x with broken := false, fault := 0, badOnce := false }) s
     let s := if bit w 2 then modHkp s fun h => { h with
         groups := h.groups.map fun x => { x with latched := false }, heads := h.heads.map fun x => { x with latched := false } } else s
     let s := sensors.foldl evalChannel s
     .ok (touch (if sd then clearShutdown s else s) .hkp) [w32 (b2n sd + sensors.length + warns)])

def hkpClearSpec : CmdSpec := fixedSpec 0x0A05 [0x7] (priv := true)

def execHkpClear (c : Cmd) (s : State) : Host.Outcome State Fault Refusal :=
  .next (runCmd s hkpClearSpec c (hkpClear c))

end Sys2Proof.Machine
end

