-- ==== Sys2Proof/Machine/TackOps.lean ====
section
/-! DEFINITION. The tacks' own part: the commit word, when a tack fires and what the fire does to it (R465-R469, R473). -/

namespace Sys2Proof.Machine

open Sys2Proof

def modTack (s : State) (n : Fin 32) (f : Tack → Tack) : State := { s with tim := { s.tim with tacks := vmod s.tim.tacks n f } }

/-- The signed difference now - target of 32-bit nanoseconds (R465). -/
def tackDiff (s : State) (k : Tack) : Int := signed 32 ((tbTotalNs (vget s.tim.tbs k.tb) % 2 ^ 32 + 2 ^ 32 - k.target.toNat) % 2 ^ 32)

/-- The tack's comparison holds now (R465). -/
def tackDue (s : State) (k : Tack) : Bool := tackDiff s k ≥ 0 || tackDiff s k == -(2 ^ 31 : Nat)

/-- A write of TIM_TACK_CTRL: the commit of the staged set, or its rejection (R467, R468). -/
def tackCtrl (s : State) (n : Fin 32) (v : Word) : State :=
  let k := vget s.tim.tacks n
  let arm := bit v 0
  let per := bit v 1
  let bad := arm && per && (k.periodS.toNat < 1000 || k.periodS.toNat > 2000000000)
  if bad then modTack s n fun k => { k with ctrlW := BitVec.ofNat 5 v.toNat, rejected := true }
  else
    let k' := { k with
      ctrlW := BitVec.ofNat 5 v.toNat, target := k.targetS, period := k.periodS.toNat, periodic := per
      tb := ⟨bits v 3 2, Nat.mod_lt _ (by decide)⟩, evtEn := bit v 4, armed := arm, armAt := s.ct, rejected := false, staged := false }
    modTack s n fun _ => { k' with behind := tackDue s k' }

/-- FIRE cycles until a time base has gained `need` units: with the slew while it lasts, then without. -/
def cyclesTo (b : TimeBase) (need : Nat) : Nat :=
  let inc := tbInc b.rate
  let full := b.slew.natAbs / 2 ^ 43
  let fast := ceilDiv need (if b.slew < 0 then inc - 2 ^ 43 else inc + 2 ^ 43)
  if fast ≤ full then fast else max full (ceilDiv ((need : Int) - b.slew).toNat inc)

/-- The CT of the first FIRE cycle at which an armed tack can fire: once its comparison holds, after the cycle of its arming and after
its last fire (R465, R466, R468). -/
def tackFireAt (s : State) (k : Tack) : Nat :=
  let b := vget s.tim.tbs k.tb
  let wait :=
    if tackDue s k then 0
    else cyclesTo b ((tbTotalNs b + (-(tackDiff s k)).toNat) * tbNs - b.t)
  let after := match k.lastFire with
    | some t => t + 1
    | none => 0
  max (s.ct + wait) (max (k.armAt + 1) after)

/-- What a fire does to the tack itself: LATE, STEPPED, MISSED, FIRES, the next target, which TARGET reads back unless another is staged, or
the disarming, the DMA request, and EV_TIM_TACK when enabled (R16, R468, R469, R77). -/
def tackFireCore (s : State) (n : Fin 32) : State :=
  let k := vget s.tim.tacks n
  let d := (tackDiff s k).natAbs
  let missed := if k.periodic then d / max 1 k.period else 0
  let late := k.behind || missed > 0
  let stepped := (vget s.tim.tbs k.tb).stepAt == some s.ct
  let next := if k.periodic then k.target + w32 ((missed + 1) * k.period) else k.target
  let k' := { k with
    late := late, stepped := stepped, missed := min 255 missed, fires := k.fires + 1, lastFire := some s.ct, behind := false
    armed := k.periodic, target := next, targetS := if k.staged then k.targetS else next
    dmaReq := if k.dmaReq < 255 then k.dmaReq + 1 else k.dmaReq
    ovf := if k.dmaReq < 255 then k.ovf else sat32 k.ovf 1 }
  let s := modTack s n fun _ => k'
  if k.evtEn then raise s 168 n.val (b2n late + 2 * b2n stepped) k.target (w32 (min 255 missed)) else s

end Sys2Proof.Machine
end

