-- ==== Sys2Proof/Machine/Cal.lean ====
section
/-! DEFINITION. CAL: which trim group runs when, deferral, what a run ends in, and the commands (R554-R560). -/

namespace Sys2Proof.Machine

open Sys2Proof

def calGroup (s : State) (g : Fin 11) : CalGroup := vget s.cal.groups g
def modCal (s : State) (f : Cal → Cal) : State := { s with cal := f s.cal }
def modCalGroup (s : State) (g : Fin 11) (f : CalGroup → CalGroup) : State := modCal s fun c => { c with groups := vmod c.groups g f }
def modCalCmds (s : State) (f : CalCmd → CalCmd) : State := modCal s fun c => { c with cmds := c.cmds.map f }

/-- Order in which due groups run: the ADC, the gates, the sinks in ascending order (R555). -/
def calOrder : List (Fin 11) := [10, 8, 9, 0, 1, 2, 3, 4, 5, 6, 7]

/-- The gate that a group trims. -/
def calGate (g : Fin 11) : Fin 2 := if g = 9 then 1 else 0

/-- FIRE cycles of a run's interruption (R554). -/
def calLength (g : Fin 11) : Nat := if g = 10 then roundCt else if g.val ≥ 8 then us 250 else us 60

/-- What a due group may do now: run, wait for a boundary close by, or fall back (R556, R557). -/
inductive CalVerdict where
  | run | wait | defer
  deriving DecidableEq, Repr

/-- The active panel forbids interruptions, and the group has not reached the hem after 30 s (R556, R557). -/
def calForbidden (s : State) (g : Fin 11) : Bool := s.pdp.active.any (·.noCal) && !(calGroup s g).hem

/-- A strobe sink's pulse is in progress, or its tack's target lies within 100 us (R556). -/
def strobeBusy (s : State) (k : Fin 8) : Bool :=
  let x := sink s k
  let t := vget s.tim.tacks x.tack
  x.pulseEnd.isSome || (t.armed && tackFireAt s t ≤ s.ct + us 100)

/-- The table of R556. -/
def calVerdict (s : State) (g : Fin 11) : CalVerdict :=
  match idx 8 g.val with
  | some k =>
    let x := sink s k
    if !x.en then .run
    else if x.strobe then (if strobeBusy s k then .defer else .run)
    else if x.dutyW = 0 then .run
    else if calForbidden s g then .defer else .run
  | none =>
    if g = 10 then
      if calForbidden s g then .defer else if s.hkp.slot = 0 then .run else .wait
    else match (gateOf s (calGate g)).run with
      | none => .run
      | some r => if atBoundary r then .run else .wait

/-- The gate run of a gate that is to be calibrated stands still after its last window (R284). -/
def calPause (s : State) (g : Fin 2) : State :=
  match (gateOf s g).run with
  | none => s
  | some r =>
    let s := if r.fired = 0 then s else advanceTo s (r.shots.getLastD 0 + 4 * r.tofHi)
    let s := modGateRun s g fun r => { r with pauseReq := false, pausedAt := some s.ct }
    raise s 50 g.val 0 (w32 (r.nozzles.getD (r.fired / r.drops - 1) 0))

/-- A group begins its run: a sink's current goes to 0, a gate run pauses, the ADC stops sampling from the start of its round (R554, R556). -/
def calBegin (s : State) (g : Fin 11) : State :=
  let s := match idx 8 g.val with
    | some k => sinkOff s k
    | none => if g = 10 then s else calPause s (calGate g)
  modCalGroup s g fun x => { x with running := some (if g = 10 then s.hkp.slotAt - 100000 else s.ct), stale := false }

/-- A group that may not be interrupted falls back to its last trims (R557). -/
def calDefer (s : State) (g : Fin 11) : State :=
  let s := modCalCmds s fun c => if c.mask.contains g && !c.deferred.contains g then { c with deferred := c.deferred ++ [g] } else c
  if (calGroup s g).deferAt.isSome then s
  else raise (modCalGroup s g fun x => { x with stale := true, deferAt := some s.ct }) 237 g.val 0 0

/-- Commands that SYS.CANCEL ends at a group boundary (R560). -/
def calCancelled (s : State) : State :=
  let out := s.cal.cmds.filter (·.cancel)
  out.foldl (fun s c => finishTag s c.pair c.tag stAbandoned 0) (modCal s fun c => { c with cmds := c.cmds.filter (!·.cancel) })

/-- The first due group that may run begins; those before it that may not are deferred; one that waits for a boundary holds the rest. -/
def calPick (s : State) : List (Fin 11) → State
  | [] => s
  | g :: gs =>
    if !(calGroup s g).due then calPick s gs
    else match calVerdict s g with
      | .run => calBegin s g
      | .wait => if g = 10 then s else modGateRun s (calGate g) fun r => { r with pauseReq := true }
      | .defer => calPick (calDefer s g) gs

/-- CAL_RUN_START: one group at a time, none while SHUTDOWN is latched (R555-R557) nor after a FAILED boot (R577). -/
def calRunStart (s : State) : State :=
  if s.cal.groups.toList.any (·.running.isSome) then s
  else
    let s := calCancelled s
    if s.hkp.shutdown then s else calPick s calOrder

def execCalRunStart (s : State) : Host.Outcome State Fault Refusal := .next (if s.glb.sysLock && s.glb.bootState != .failed then calRunStart s else s)

/-- A mask of groups. -/
def groupMask (gs : List (Fin 11)) : Word := gs.foldl (fun w g => w ||| (1#32 <<< g.val)) 0

/-- A CAL.RUN whose every named group has run or failed completes (R560). -/
def calComplete (s : State) : State :=
  let fin (c : CalCmd) : Bool := c.mask.all fun g => c.ran.contains g || c.failed.contains g
  (s.cal.cmds.filter fin).foldl (fun s c =>
    finishTag s c.pair c.tag stOk 0 [groupMask c.ran, groupMask c.failed, groupMask c.deferred])
    (modCal s fun c => { c with cmds := c.cmds.filter (!fin ·) })

/-- Trims as measured, in the widths of the group: gain, offset (R554). -/
def calTrims (g : Fin 11) (gain offset : BitVec 10) : Nat × Nat :=
  if g.val < 8 then (gain.toNat % 256, offset.toNat % 256) else if g.val < 10 then (gain.toNat % 64, offset.toNat) else (gain.toNat % 64, 0)

/-- CAL_TRIM of a group with given trims (R562). -/
def calTrimWord (g : Fin 11) (t : Nat × Nat) : Word :=
  if g.val < 8 then pack [(t.1, 0), (t.2, 8)] else if g.val < 10 then pack [(t.2, 0), (t.1, 16)] else pack [(t.1, 0)]

/-- CAL_RUN_DONE: the interruption has lasted its time; new trims take effect, a sink's at its next switch-on, or the group is FAILED with
the old ones (R556, R558, R581). -/
def calRunDone (g : Fin 11) (gain offset : BitVec 10) (inRange : Bool) (s : State) : State :=
  match (calGroup s g).running with
  | none => s
  | some t =>
    if g = 10 && s.ct < t + calLength g then s
    else
      let s := advanceTo s (t + calLength g)
      let new := calTrims g gain offset
      let ref := calRef s g
      let s := modCalGroup s g fun x =>
        let y := { x with running := none, due := false, stale := false, deferAt := none, forced := false, hem := false, temp := ref, failed := !inRange }
        if !inRange then y else if g.val < 8 then { y with pending := some new } else { y with gain := new.1, offset := new.2 }
      let s := modCal s fun c => { c with
        runs := satAdd 0xFFFF c.runs 1, fails := if inRange then c.fails else satAdd 255 c.fails 1
        cmds := c.cmds.map fun c => if !c.mask.contains g then c
          else if inRange then { c with ran := if c.ran.contains g then c.ran else c.ran ++ [g] }
          else { c with failed := if c.failed.contains g then c.failed else c.failed ++ [g] } }
      let x := calGroup s g
      let s := raise s 236 g.val (b2n !inRange) (w32 (toBits 32 ref)) (calTrimWord g (if inRange then new else (x.gain, x.offset)))
      let s := calCancelled (calComplete s)
      if s.cal.groups.toList.all (!·.due) then setReady s 4 else s

def execCalRunDone (g : Fin 11) (gain offset : BitVec 10) (inRange : Bool) (s : State) : Host.Outcome State Fault Refusal :=
  .next (calRunDone g gain offset inRange s)

/-- CAL_DEFER_TIMEOUT: after 30 s of deferral the group runs at the next hem (R557). -/
def execCalDeferTimeout (g : Fin 11) (s : State) : Host.Outcome State Fault Refusal :=
  .next (match (calGroup s g).deferAt with
    | some t => if (calGroup s g).due && (calGroup s g).running.isNone then
        modCalGroup (advanceTo s (t + sec 30)) g fun x => { x with forced := true } else s
    | none => s)

/-- CAL.SET (R555, R559). -/
def calSet (c : Cmd) (s : State) : CmdRes :=
  let d := bits (pw c 0) 7 0
  let r0 := bits (pw c 1) 5 0
  let r1 := bits (pw c 1) 13 8
  firstFail s [chkW (d < 5 || d > 160) 0, chkW (r0 > 45 || r1 > 45) 1]
    (.ok (touch (calDue (modCal s fun c' => { c' with delta := d, auto := bit (pw c 0) 8, refs := #v[r0, r1] })) .hkp))

def calSetSpec : CmdSpec := fixedSpec 0x0C01 [0x1FF, 0x3F3F]

def execCalSet (c : Cmd) (s : State) : Host.Outcome State Fault Refusal := .next (runCmd s calSetSpec c (calSet c))

/-- CAL.RUN: the named groups fall due, and the command waits for them (R555, R560). -/
def calRun (c : Cmd) (s : State) : CmdRes :=
  let gs := (indices 11).filter fun g => bit (pw c 0) g.val
  let s := if gs.isEmpty then s else modCal s fun k => { k with
    groups := Vector.ofFn fun g : Fin 11 => { vget k.groups g with due := (vget k.groups g).due || gs.contains g }
    cmds := k.cmds ++ [{ pair := c.pair, tag := c.tag, mask := gs, deferred := gs.filter fun g => (vget k.groups g).deferAt.isSome }] }
  if gs.isEmpty then .ok s [0, 0, 0] else .started (touch s .hkp)

def calRunSpec : CmdSpec := fixedSpec 0x0C02 [0x7FF] (async := true)

def execCalRun (c : Cmd) (s : State) : Host.Outcome State Fault Refusal :=
  .next (runCmd s calRunSpec c (calRun c))

end Sys2Proof.Machine
end

