-- ==== Sys2Proof/Machine/CamEnc.lean ====
section
/-! DEFINITION. The camera encoder and the CODED stream (R401, R402). -/

namespace Sys2Proof.Machine

open Sys2Proof

/-- Samples per line and lines of a frame's CODED source: tap 0 cropped, or VISION cropped and binned (R398). -/
def codedSize (f : CamFrame) (tap : Bool) : Nat × Nat :=
  if tap then (f.geom.cw, f.geom.ch) else (f.geom.cw / 2 ^ f.geom.bx, f.geom.ch / 2 ^ f.geom.by')

/-- The 64-byte frame header with its stream header (R195, R401). -/
def codedHeader (k : Fin 8) (f : CamFrame) (tap : Bool) : List Byte :=
  let (w, h) := codedSize f tap
  let nblk := w32 (ceilDiv w 256)
  let nbands := w32 (ceilDiv h 8)
  wordBytes [pack [(f.num.toNat, 0), (k.val, 16), (b2n tap, 19)], pack [(w, 0), (h, 16)], nblk, nbands,
    pack [(0x0100, 0), (3, 16)], nblk, nbands, 0] ++ List.replicate 32 0

/-- A band: its header, overflow bitmap, slots, and the blocks stored raw (R197, R401). -/
def codedBand (b : CodedBlk) (slots : List (List Byte × Option (List Byte))) : List Byte :=
  let flags := ((List.range slots.length).map fun i => if (slots.getD i ([], none)).2.isSome then 2 ^ i else 0).sum
  wordBytes [pack [(0x0100, 0), (3, 16), (b.ratio, 18), (b2n (b.level == 3 && b.band > 0), 20)], w32 b.band, 0, 0]
    ++ natLe flags 8 ++ slots.flatMap (·.1) ++ slots.flatMap fun p => p.2.getD []

/-- A block is coded: the slot, or zeros and the raw block when it does not fit or fails its self-check (R402, R207, R208). -/
def codedSlot (b : CodedBlk) : EncResult × List Byte × Option (List Byte) :=
  let size := 2048 / 2 ^ b.ratio
  match ebcEncodeChecked b.level 3 b.raw b.ref size with
  | .stored out => (.stored out, out, none)
  | r => (r, List.replicate size 0, some b.raw)

/-- CODED_BLOCK_ENCODE: engine 3 finishes the oldest block of a context that waits; with the last block of a band the band goes out
(R401, R402). It waits while the DRC holds what the context needs (R510). -/
def codedBlockEncode (k : Fin 8) (s : State) : State :=
  if accessHeld s 1 && writesDram s k then s
  else match (camCtx s k).frames.find? (!·.todo.isEmpty) with
  | none => s
  | some f =>
    match f.todo with
    | [] => s
    | b :: rest =>
      if (vget f.outs (2 : Fin 7)).lost then settleCtx (modFrame s k f.num fun g => { g with todo := [], slots := [] }) k
      else
        let (r, slot) := codedSlot b
        let s := engBlock s 3
        let s := match r with
          | .noFit => engNoFit s 3
          | .verify => raise (engVerify s 3) 119 k.val 0 (w32 f.num.toNat) (w32 b.band) (w32 b.block)
          | .stored _ => s
        let slots := f.slots ++ [slot]
        if rest.any (·.band == b.band) then modFrame s k f.num fun g => { g with todo := rest, slots := slots }
        else
          let head := if f.header then [] else codedHeader k f b.tap
          let s := modFrame s k f.num fun g => { g with todo := rest, slots := [], header := true }
          let bs := head ++ codedBand b slots
          settleCtx (putBytes (bs.length + 8) s k f.num 2 b.bob bs) k

def execCodedBlockEncode (k : Fin 8) (s : State) : Host.Outcome State Fault Refusal := .next (codedBlockEncode k s)

end Sys2Proof.Machine
end

