-- ==== Sys2Proof/Machine/HostLink.lean ====
section
/-! DEFINITION. The host link: accesses through BAR0, BAR2 and BAR4, bobbin registers and doorbells, interrupts, resets of the host
interface (R14, R15, R21, R41-R65, R79, R82-R88, R528). -/

namespace Sys2Proof.Machine

open Sys2Proof

/-! ## Interrupts and Bus Master Enable (R65, R87) -/

/-- A pending message of a vector is sent when nothing stops it any more (R65). -/
def releaseMsix (s : State) (v : Fin 64) : State :=
  if vget s.bob.pba v && !s.bob.fmask && !bit (vget s.bob.msix v).ctrl 0 && busMaster s then
    emit { s with bob := { s.bob with pba := vset s.bob.pba v false } } (.msix v.val)
  else s

def releaseAll (s : State) : State := (indices 64).foldl releaseMsix s

/-- BME_SET: Bus Master Enable is set; pending messages of unmasked vectors are sent (R65, R87). -/
def execBmeSet (s : State) : Host.Outcome State Fault Refusal :=
  .next (if s.bob.linkUp then releaseAll { s with bob := { s.bob with bme := true } } else s)

/-- MSIX_UNMASK: the host clears a vector's mask, or the function mask (R65). -/
def execMsixUnmask (v : Option (Fin 64)) (s : State) : Host.Outcome State Fault Refusal :=
  .next (match v with
    | some v =>
      releaseMsix { s with bob := { s.bob with msix := vmod s.bob.msix v fun e => { e with ctrl := e.ctrl &&& ~~~1#32 } } } v
    | none => releaseAll { s with bob := { s.bob with fmask := false } })

/-! ## Bobbin registers (R57-R62, R79, R83, R91) -/

/-- BOB_CFG[n] as read back: the fields as written, EN as it stands (R58, R59). -/
def bobCfg (r : Bobbin) : Word :=
  pack [(b2n r.en, 0), (r.spaceW, 1), (b2n r.wbEnW, 3), (r.log2nW, 4), (r.vector, 9), (b2n r.irqEn, 15), (r.modCount, 16), (r.modTime, 24)]

/-- A configuration write of a bobbin is rejected: CFG_REJ, EV_BOB_CFG_REJECTED and the error vector (R59, R61, R65). A change that is ignored under
EN does the same [A 87]. -/
def cfgRejected (s : State) (n : Fin 32) (v : Word) : State :=
  let s := modRing s n fun r => { r with cfgRej := true }
  let s := raise s 241 n.val 0 v
  if s.bob.errIrqEn then sendMsix s s.bob.errVector else s

/-- What enabling a command or reply bobbin does to its pair (R85, R91). -/
def onEnable (s : State) (n : Fin 32) : State :=
  (indices 4).foldl (fun s p =>
    let s := if cmdBob p = n then modPair s p fun q => { q with stopped := false } else s
    if replyBob p = n then modPair s p fun q => { q with afterReset := false } else s) s

/-- A write of BOB_CFG[n] (R58, R59, R79): enabling commits the staged addresses after the checks; a write under EN changes only EN and
the interrupt fields, and sends a message the new fields make due (R64); clearing EN ends the work in progress. -/
def bobCfgWrite (s : State) (n : Fin 32) (v : Word) : State :=
  let r := vget s.bob.rings n
  let irq (r : Bobbin) : Bobbin :=
    { r with vector := bits v 14 9, irqEn := bit v 15, modCount := bits v 23 16, modTime := bits v 31 24 }
  let ring (r : Bobbin) : Bobbin := { r with spaceW := bits v 2 1, wbEnW := bit v 3, log2nW := bits v 8 4 }
  if !r.en then
    let r' := ring (irq r)
    if !bit v 0 then modRing s n fun _ => r'
    else
      let base := addr64 r.baseLo r.baseHi
      let wb := addr64 r.wbLo r.wbHi
      let ok := r'.log2nW ≥ 4 && r'.log2nW ≤ 16 && r'.spaceW != 3 && inSpace s r'.spaceW base (32 * 2 ^ r'.log2nW) &&
        inSpace s r'.spaceW wb 4
      if ok then
        signalDue (onEnable (modRing s n fun _ =>
          { r' with en := true, base := base, wb := wb, space := r'.spaceW, wbEn := r'.wbEnW, log2n := r'.log2nW }) n) n
      else cfgRejected (modRing s n fun _ => r') n v
  else
    let changed := bits v 2 1 != r.space || bit v 3 != r.wbEn || bits v 8 4 != r.log2n
    let s := signalDue (modRing s n fun _ => irq r) n
    let s := if changed then cfgRejected s n v else s
    if bit v 0 then s
    else
      let s := if n.val < 16 then abortDesc s n else if n.val ≥ 28 then camCut s n false else s
      modRing s n fun r => { r with en := false, roundLatch := false }

/-- BOB_ENABLE: a write of BOB_CFG[n] with EN set (R59). -/
def execBobEnable (n : Fin 32) (v : Word) (s : State) : Host.Outcome State Fault Refusal :=
  .next (if s.bob.linkUp then bobCfgWrite s n (v ||| 1) else s)

/-- BOB_DISABLE: a write of BOB_CFG[n] with EN clear (R79). -/
def execBobDisable (n : Fin 32) (v : Word) (s : State) : Host.Outcome State Fault Refusal :=
  .next (if s.bob.linkUp then bobCfgWrite s n (v &&& ~~~1#32) else s)

/-- BOB_DOORBELL: a write of BOB_DB[n] (R50, R62). -/
def execBobDoorbell (n : Fin 32) (v : Word) (s : State) : Host.Outcome State Fault Refusal :=
  .next (if s.bob.linkUp then doorbell s n v else s)

/-- A write of BOB_STAT[n]: W1C of HALTED, DB_BAD and CFG_REJ (R61, R83). -/
def bobStatWrite (s : State) (n : Fin 32) (v : Word) : State :=
  modRing s n fun r =>
    { r with halted := r.halted && !bit v 1, dbBad := r.dbBad && !bit v 2, cfgRej := r.cfgRej && !bit v 3 }

/-- BOB_RESUME: writing 1 to HALTED resumes the bobbin at its head (R83). -/
def execBobResume (n : Fin 32) (s : State) : Host.Outcome State Fault Refusal :=
  .next (if s.bob.linkUp then bobStatWrite s n 2 else s)

/-- Writing 1 to BOB_DMA_ERR_INFO.VALID clears the first-error latch and its address (R82). -/
def errLatchClear (s : State) : State :=
  { s with bob := { s.bob with
    errValid := false, errDir := false, errSpace := 0, errRing := false, errBobbin := 0, errKind := 0, errAddr := 0 } }

/-- DMA_ERR_LATCH_CLEAR (R82, R83). -/
def execDmaErrLatchClear (s : State) : Host.Outcome State Fault Refusal := .next (if s.bob.linkUp then errLatchClear s else s)

/-- DMA_ERR_MORE_READ: the read returns the count of later halts and clears it (R82). -/
def execDmaErrMoreRead (s : State) : Host.Outcome State Fault Refusal :=
  .next (if s.bob.linkUp then
    answerRead { s with bob := { s.bob with errMore := 0 } } (w32 s.bob.errMore)
  else s)

/-- BOB_RESET_REPORT_READ: the read returns both counts and clears them (R86). -/
def execBobResetReportRead (s : State) : Host.Outcome State Fault Refusal :=
  .next (if s.bob.linkUp then
    answerRead { s with bob := { s.bob with dmaAborted := 0, repliesHeld := 0 } } (pack [(s.bob.dmaAborted, 0), (s.bob.repliesHeld, 16)])
  else s)

/-! ## Host writes to control space (R14, R15, R21) -/

/-- The write changes nothing because of where it lands: EV_SYS_HOST_WRITE_IGNORED (R15, R21). -/
def writeIgnored (s : State) (off : Nat) (v : Word) : State := raise s 1 0 0 (w32 off) v

/-- A write of 1 to lost bits of GLB_CLK_STAT clears them (R34, R35). -/
def clkStatWrite (s : State) (v : Word) : State :=
  { s with glb := { s.glb with
    sysLost := s.glb.sysLost && !bit v 8, dramLost := s.glb.dramLost && !bit v 9, sdLost := s.glb.sdLost && !bit v 10
    pcieLost := s.glb.pcieLost && !bit v 11, thmOscLost := s.glb.thmOscLost && !bit v 12 } }

/-- CLK_LOST_CLEAR: a host write of GLB_CLK_STAT (R35). -/
def execClkLostClear (v : Word) (s : State) : Host.Outcome State Fault Refusal :=
  .next (if s.bob.linkUp then clkStatWrite s v else s)

/-- A write of DRC_FREEZE_INFO: VALID clears the latch while the DRC is not frozen (R532). -/
def freezeInfoWrite (s : State) (v : Word) : State :=
  if bit v 0 && !s.drc.frozen then { s with drc := { s.drc with freeze := {} } } else s

/-- FREEZE_LATCH_CLEAR (R532). -/
def execFreezeLatchClear (s : State) : Host.Outcome State Fault Refusal :=
  .next (if s.bob.linkUp then freezeInfoWrite s 1 else s)

/-- A write of GLB_BOOT_DB: accepted only in WAIT_HOST, where verification of the pushed image starts (R573). -/
def bootDbWrite (s : State) (len : Nat) : State :=
  if s.glb.bootState == .waitHost then
    { s with glb := { s.glb with bootState := .booting, bootSource := 2, pushed := some len } }
  else s

/-- BOOT_DOORBELL (R573). -/
def execBootDoorbell (len : BitVec 20) (s : State) : Host.Outcome State Fault Refusal :=
  .next (if s.bob.linkUp then bootDbWrite s len.toNat else s)

/-- A write into a bobbin's register set (R57, R60). -/
def bobRegWrite (s : State) (n : Fin 32) (r : Nat) (off : Nat) (v : Word) : State :=
  match r with
  | 0x00 => modRing s n fun b => { b with baseLo := v &&& ~~~0x1F#32 }
  | 0x04 => modRing s n fun b => { b with baseHi := v }
  | 0x08 => modRing s n fun b => { b with wbLo := v &&& ~~~0x3#32 }
  | 0x0C => modRing s n fun b => { b with wbHi := v }
  | 0x10 => bobCfgWrite s n v
  | 0x14 => modRing s n fun b => if b.en then b else { b with head := bits v 16 0 }
  | 0x18 => modRing s n fun b => if b.en then b else { b with tail := bits v 16 0 }
  | 0x1C => bobStatWrite s n v
  | _ => writeIgnored s off v

/-- A write into the MSI-X table (R57, R65). -/
def msixWrite (s : State) (v : Fin 64) (k : Nat) (x : Word) : State :=
  let f (e : MsixEntry) : MsixEntry := match k with
    | 0 => { e with addrLo := x }
    | 1 => { e with addrHi := x }
    | 2 => { e with data := x }
    | _ => { e with ctrl := x }
  releaseMsix { s with bob := { s.bob with msix := vmod s.bob.msix v f } } v

/-- A write into the BOB block (R57, R65, R82). -/
def bobWrite (s : State) (off : Nat) (v : Word) : State :=
  let o := off - 0x10000
  if o < 0x800 then
    match idx 32 (o / 0x40) with
    | some n => bobRegWrite s n (o % 0x40) off v
    | none => writeIgnored s off v
  else if 0x1000 ≤ o && o < 0x1080 then
    match idx 32 ((o - 0x1000) / 4) with
    | some n => doorbell s n v
    | none => writeIgnored s off v
  else if o = 0x2000 then { s with bob := { s.bob with errVector := bits v 5 0, errIrqEn := bit v 6 } }
  else if o = 0x2004 then (if bit v 0 then errLatchClear s else s)
  else if 0x8000 ≤ o && o < 0x8400 then
    match idx 64 ((o - 0x8000) / 16) with
    | some e => msixWrite s e ((o - 0x8000) / 4 % 4) v
    | none => writeIgnored s off v
  else writeIgnored s off v

/-- A write of EVT_ROUTE[i] (R119). -/
def routeWrite (s : State) (i : Fin 256) (v : Word) : State :=
  { s with evt := { s.evt with routes := vset s.evt.routes i { bobbin := ⟨bits v 1 0, Nat.mod_lt _ (by decide)⟩, en := bit v 2 } } }

/-- A write into a tack's register set (R467, R473). -/
def tackWrite (s : State) (n : Fin 32) (r off : Nat) (v : Word) : State :=
  match r with
  | 0x0 => modTack s n fun k => { k with targetS := v, staged := true }
  | 0x4 => modTack s n fun k => { k with periodS := v }
  | 0x8 => tackCtrl s n v
  | _ => writeIgnored s off v

/-- A host write of a register: what it does by where it lands (R14, R15, R21). -/
def hostWrite (s : State) (off : Nat) (v : Word) : State :=
  if off = 0x100 then clkStatWrite s v
  else if off = 0x1C then bootDbWrite s (bits v 19 0)
  else if 0x10000 ≤ off && off < 0x20000 then bobWrite s off v
  else if 0x30000 ≤ off && off < 0x30400 then
    match idx 256 ((off - 0x30000) / 4) with
    | some i => routeWrite s i v
    | none => s
  else if 0x3C1000 ≤ off && off < 0x3C1200 then
    match idx 32 ((off - 0x3C1000) / 16) with
    | some n => tackWrite s n (off % 16) off v
    | none => s
  else if off = 0x50001C then freezeInfoWrite s v
  else match jogAt off with
    | some a => jogWrite s a v
    | none => match ledDutyAt off with
      | some k => ledDutyWrite s k v
      | none => match chainFifoAt off with
        | some c => chainPush s c [v]
        | none => writeIgnored s off v

/-- REGISTER_WRITE: a host BAR0 write takes effect or is ignored (R21). -/
def execRegisterWrite (off : BitVec 24) (v : Word) (s : State) : Host.Outcome State Fault Refusal :=
  .next (if s.bob.linkUp then (if off.toNat % 4 = 0 then hostWrite s off.toNat v else emit s .hostWriteRefused) else s)

/-- BAR0_BAD_ACCESS: an access other than aligned 32-bit completes as an unsupported request and changes no register (R42). -/
def execBar0BadAccess (isWrite : Bool) (s : State) : Host.Outcome State Fault Refusal :=
  .next (if s.bob.linkUp then emit s (if isWrite then .hostWriteRefused else .hostRead .unsupportedRequest []) else s)

/-- TACK_ARM: a host write of TIM_TACK_CTRL with ARM set (R467). -/
def execTackArm (n : Fin 32) (v : Word) (s : State) : Host.Outcome State Fault Refusal :=
  .next (if s.bob.linkUp then tackCtrl s n (v ||| 1) else s)

/-- TACK_DISARM: a host write of TIM_TACK_CTRL with ARM clear (R467). -/
def execTackDisarm (n : Fin 32) (v : Word) (s : State) : Host.Outcome State Fault Refusal :=
  .next (if s.bob.linkUp then tackCtrl s n (v &&& ~~~1#32) else s)

/-! ## BAR2: DRAM (R47, R509, R510, R525) -/

/-- A host access beyond the installed DRAM (R47). -/
def rangeEvent (s : State) (isWrite : Bool) (off : Nat) : State := raise s 243 0 (b2n isWrite) (w32 off) (w32 (off / 2 ^ 32))

/-- A host access that reaches into the reserved DRAM (R509). -/
def reservedEvent (s : State) (isWrite : Bool) (off : Nat) : State :=
  raiseLimited s 218 0 (ms 1) 1 fun _ => (b2n isWrite, w32 off, w32 (off / 2 ^ 32), 0)

/-- BAR2_READ (R47, R509, R510, R525): while DRC.RETRAIN holds the DRAM the read waits (R512), during bring-up it is aborted. -/
def bar2Read (off len : Nat) (s : State) : State :=
  if s.drc.capGib != 0 && off + len > dramTop s then emit (rangeEvent s false off) (.hostRead .unsupportedRequest [])
  else if s.drc.frozen then emit (frozenAccess s false) (.hostRead .completerAbort [])
  else if s.drc.ready then
    let bs := (List.range len).map fun i => if off + i < dramUsable s then memGet s.dram (off + i) else 0
    let s := if off + len > dramUsable s then reservedEvent s false off else s
    emit s (.hostRead .success bs)
  else if s.drcx.retrainCmd.isSome then queueReq s (.bar2Read off len)
  else emit s (.hostRead .completerAbort [])

def execBar2Read (off : BitVec 36) (len : Nat) (s : State) : Host.Outcome State Fault Refusal :=
  .next (if s.bob.linkUp && len > 0 then bar2Read off.toNat len s else s)

/-- The enabled bytes of a write, one by one (R47). -/
def writeEnabled (s : State) : Nat → List (Option Byte) → State
  | _, [] => s
  | a, b :: bs =>
    let s' := match b with
      | some x => if a < dramUsable s then { s with dram := memSet s.dram a x } else s
      | none => s
    writeEnabled s' (a + 1) bs

/-- BAR2_WRITE: posted; done byte by byte as enabled, discarded beyond the capacity, in the reserved area and while frozen; it waits while the
DRC holds its requests (R47, R509, R510, R512, R525). -/
def bar2Write (off : Nat) (bs : List (Option Byte)) (s : State) : State :=
  if s.drc.capGib != 0 && off + bs.length > dramTop s then rangeEvent s true off
  else if s.drc.frozen then frozenAccess s true
  else if s.drc.ready then
    let s := if off + bs.length > dramUsable s then reservedEvent s true off else s
    let s := writeEnabled s off bs
    { s with drc := { s.drc with injects := s.drc.injects.map fun j =>
      if off < j.addr + 64 ∧ j.addr < off + bs.length then { j with stored := true } else j } }
  else queueReq s (.bar2Write off bs)

def execBar2Write (off : BitVec 36) (bytes : List (Option Byte)) (s : State) : Host.Outcome State Fault Refusal :=
  .next (if s.bob.linkUp then bar2Write off.toNat bytes s else s)

/-! ## BAR4: SRAM host window (R48, R528, R529, R573) -/

/-- The size and alignment BAR4 accepts (R48). -/
def bar4Ok (off len : Nat) : Bool := (len == 4 || len == 8) && off % len == 0

/-- A host access outside the host window (R528). -/
def guardAccess (s : State) (isWrite : Bool) (off : Nat) : State :=
  let s := { s with drcx := { s.drcx with sramGuard := sat32 s.drcx.sramGuard 1 } }
  raiseLimited s 221 0 (ms 1) 1 fun n => (b2n isWrite, w32 off, w32 n, 0)

/-- An uncorrectable SRAM word is met (R529). -/
def sramUncorrectable (s : State) (addr : Nat) : State :=
  { s with drcx := { s.drcx with sramUnc := satAdd 0xFFFF s.drcx.sramUnc 1, sramErrAddr := addr } }

/-- BAR4_READ (R48, R528, R529, R573). -/
def bar4Read (off len : Nat) (s : State) : State :=
  if !bar4Ok off len then emit s (.hostRead .unsupportedRequest [])
  else if !(hostWinLo ≤ off && off + len ≤ hostWinHi) then
    emit (guardAccess s false off) (.hostRead .success ((natLe 0xA5A55A5A 4 ++ natLe 0xA5A55A5A 4).take len))
  else if !s.glb.sramInit then
    let (w, s) := fresh s
    let (w', s) := fresh s
    emit s (.hostRead .success ((natLe w.toNat 4 ++ natLe w'.toNat 4).take len))
  else match accessErr s 2 off len true with
    | some _ =>
      let s := sramUncorrectable s (off / 8 * 8)
      emit (raise s 220 0 1 (w32 (off / 8 * 8))) (.hostRead .poisoned [])
    | none => emit s (.hostRead .success (memRead s.sram off len))

def execBar4Read (off : BitVec 25) (len : Nat) (s : State) : Host.Outcome State Fault Refusal :=
  .next (if s.bob.linkUp then bar4Read off.toNat len s else s)

/-- BAR4_WRITE (R48, R528, R573). -/
def bar4Write (off : Nat) (bs : List Byte) (s : State) : State :=
  if !bar4Ok off bs.length then emit s .hostWriteRefused
  else if !(hostWinLo ≤ off && off + bs.length ≤ hostWinHi) then guardAccess s true off
  else if !s.glb.sramInit then s
  else sramWrite s off bs

def execBar4Write (off : BitVec 25) (bytes : List Byte) (s : State) : Host.Outcome State Fault Refusal :=
  .next (if s.bob.linkUp then bar4Write off.toNat bytes s else s)

def barNumber : Bar → Nat
  | .bar0 => 0 | .bar2 => 2 | .bar4 => 4

/-- Sizes of the BARs as powers of 2 (R46). -/
def barBits : Bar → Nat
  | .bar0 => 24 | .bar2 => 36 | .bar4 => 25

/-- A BAR's low register: the base, a multiple of the size, with the type bits of a 64-bit memory BAR, prefetchable for BAR2 (R46). -/
def barWord (s : State) (k : Fin 3) (b : Bar) : Nat :=
  vget s.bob.cfg.bars k / 2 ^ barBits b * 2 ^ barBits b + (if b == .bar2 then 0xC else 0x4)

/-- The configuration header at a byte offset: identifiers, class, BARs, no interrupt pin (R43, R44, R46). -/
def pciHeader (s : State) (o : Nat) : Word :=
  match o with
  | 0x00 => 0x85121F5B
  | 0x04 => pack [(1, 1), (b2n s.bob.bme, 2)]
  | 0x08 => 0x120000B0
  | 0x10 => w32 (barWord s 0 .bar0)
  | 0x14 => w32 (barWord s 0 .bar0 / 2 ^ 32)
  | 0x18 => w32 (barWord s 1 .bar2)
  | 0x1C => w32 (barWord s 1 .bar2 / 2 ^ 32)
  | 0x20 => w32 (barWord s 2 .bar4)
  | 0x24 => w32 (barWord s 2 .bar4 / 2 ^ 32)
  | 0x2C => pack [(s.glb.subVid.toNat, 0), (s.glb.subId.toNat, 16)]
  | _ => 0

/-- Advanced Error Reporting logs a poisoned write: its status bit, and the BAR and offset of the first one logged (R43, R49) [A 82]. -/
def aerPoisoned (s : State) (bar off : Nat) : State :=
  let c := s.bob.cfg
  { s with bob := { s.bob with cfg := { c with aerUncor := c.aerUncor ||| 0x1000, aerLog := c.aerLog.or (some (bar, off)) } } }

/-- POISONED_WRITE: a poisoned write is discarded whole, logged and reported (R49). -/
def execPoisonedWrite (bar : Bar) (off : BitVec 36) (s : State) : Host.Outcome State Fault Refusal :=
  .next (if s.bob.linkUp then
    raise (aerPoisoned s (barNumber bar) off.toNat) 244 (barNumber bar) 0 (w32 off.toNat) (w32 (off.toNat / 2 ^ 32))
  else s)

/-! ## Link and host-interface reset (R45, R84-R88, R580) -/

/-- LINK_CHANGE: speed or width change after the first training (R45). -/
def execLinkChange (speed width : Nat) (s : State) : Host.Outcome State Fault Refusal :=
  .next (if s.bob.linkUp && s.bob.trained && (speed != s.bob.speed || width != s.bob.width) then
    raise { s with bob := { s.bob with speed := speed, width := width } } 245 0 0 (w32 speed) (w32 width)
  else s)

/-- PCIE_LINK_UP: link training completes and the host link is usable (R580); a different speed or width than before is a change (R45). -/
def execPcieLinkUp (speed width : Nat) (s : State) : Host.Outcome State Fault Refusal :=
  .next (if s.glb.rstN && s.glb.pcieLock && !s.bob.linkUp then
    let changed := s.bob.trained && (speed != s.bob.speed || width != s.bob.width)
    let s := { s with bob := { s.bob with linkUp := true, trained := true, perstN := true, speed := speed, width := width } }
    if changed then raise s 245 0 0 (w32 speed) (w32 width) else s
  else s)

/-- A DMA descriptor in progress at a host-interface reset ends ABORTED: its status is written when its ring lies in SRAM or DRAM, behind
the requests a DRC that trains holds; in a frozen DRAM it cannot be, and is lost [A 88]; in a host-memory ring it is counted, up to 0xFFFF
(R84, R86) [A 89]. -/
def resetDesc (s : State) (n : Fin 32) : State :=
  let r := vget s.bob.rings n
  match r.desc with
  | none => s
  | some d =>
    let a := entryAddr r r.head + 0x18
    if r.space = 0 then { s with bob := { s.bob with dmaAborted := satAdd 0xFFFF s.bob.dmaAborted 1 } }
    else if accessHeld s r.space then queueReq s (.put none a (statusBytes d.moved 0x03))
    else if (accessErr s r.space a 8 false).isSome then s
    else spaceWrite s r.space a (statusBytes d.moved 0x03)

/-- Replies in staging over all pairs that no reset has counted yet (R86). -/
def stagedReplies (s : State) : Nat := ((indices 4).map fun p => (vget s.cmd.pairs p).staged.length - (vget s.cmd.pairs p).counted).sum

def resetCode : HostReset → Nat
  | .functionLevel => 0 | .hotReset => 1 | .linkDown => 2 | .perstLow => 2 | .returnToD0 => 0

/-- Whether the reset takes the link down (R88). -/
def resetsLink : HostReset → Bool
  | .linkDown => true | .perstLow => true | _ => false

/-- A request a bobbin makes. -/
def ofBobbin : DramReq → Bool
  | .descriptor _ => true
  | .burst _ => true
  | .status _ => true
  | .command _ => true
  | .reply _ => true
  | .event _ => true
  | .writeBack _ => true
  | _ => false

/-- A host-interface reset (R84-R86, R88): DMA descriptors and camera buffers in progress end, with what their bobbins wait for in the DRC; BAR2
writes received before it still land; configuration space and every BOB register but the reset report are cleared, the replies staged are counted, and EV_BOB_HOST_RESET carries the kind and both counts. -/
def hostReset (s : State) (kind : HostReset) : State :=
  let s := (indices 32).foldl (fun s n => if n.val < 16 then resetDesc s n else if n.val ≥ 28 then camCut s n true else s) s
  let s := engFree s
  let held := satAdd 0xFFFF s.bob.repliesHeld (stagedReplies s)
  let old := s.bob
  let keep (q : DramReq) : Bool := match q with
    | .bar2Write _ _ => true
    | .put _ _ _ => true
    | q => !(ofBar2 q || ofBobbin q)
  let s := { s with
    drcx := { s.drcx with waiting := s.drcx.waiting.filter keep }
    bob := { dmaAborted := old.dmaAborted, repliesHeld := held, linkUp := old.linkUp && !resetsLink kind, trained := old.trained
             speed := old.speed, width := old.width, perstN := old.perstN && kind != .perstLow }
    cmd := { s.cmd with pairs := s.cmd.pairs.map fun q => { q with afterReset := true, counted := q.staged.length } } }
  raise s 247 0 (resetCode kind) (w32 s.bob.dmaAborted) (w32 s.bob.repliesHeld)

/-- HOST_INTERFACE_RESET (R84, R88). -/
def execHostInterfaceReset (kind : HostReset) (s : State) : Host.Outcome State Fault Refusal :=
  .next (if s.glb.rstN then hostReset s kind else s)

/-- A DMA channel whose data transfer needs host memory, with the access that fails (R87). -/
def needsHost (s : State) (n : Fin 32) : Option (Bool × Nat) :=
  match (vget s.bob.rings n).desc with
  | none => none
  | some d =>
    let toRead := !(isEbc d && (engOf s n).isSome)
    if d.fin.isSome then none
    else if d.srcSpace = 0 && d.op != .fill && toRead then some (false, srcAt d)
    else if d.dstSpace = 0 then some (d.op != .compare, dstAt d)
    else none

/-- BME_CLEAR: Bus Master Enable is cleared, or D3hot entered: channels in the middle of a host-memory transfer halt with kind 0x07; the
other bobbins halt at their next host-memory access (R80, R87). -/
def bmeClear (d3hot : Bool) (s : State) : State :=
  let s := { s with bob := { s.bob with bme := s.bob.bme && d3hot, d3hot := s.bob.d3hot || d3hot } }
  let s := (indices 32).foldl (fun s n =>
    let r := vget s.bob.rings n
    if n.val < 16 && ringLive r then
      match needsHost s n with
      | some (w, a) => failDesc s n 7 w 0 a
      | none => s
    else s) s
  raise s 246 0 (b2n d3hot)

/-- With host memory out of reach already, the command only sets the state it names: nothing more stops, and nothing is reported (R87). -/
def execBmeClear (d3hot : Bool) (s : State) : Host.Outcome State Fault Refusal :=
  .next (if !s.bob.linkUp then s
    else if busMaster s then bmeClear d3hot s
    else { s with bob := { s.bob with bme := s.bob.bme && d3hot, d3hot := s.bob.d3hot || d3hot } })

end Sys2Proof.Machine
end

