-- ==== Sys2Proof/Machine/Dma.lean ====
section
/-! DEFINITION. The DMA engine: descriptors fetched and checked, bursts, turns, pacing, EBC blocks, completion and bus errors (R70-R81, R213). -/

namespace Sys2Proof.Machine

open Sys2Proof

def dmaOpOf : Nat → Option DmaOp
  | 1 => some .copy | 2 => some .fill | 3 => some .compare | 4 => some .ebcEncode | 5 => some .ebcDecode | _ => none

/-- The fields of a descriptor's words (R71). -/
def descOf (op : DmaOp) (ws : List Word) : Desc :=
  let w (i : Nat) : Word := ws.getD i 0
  { op := op, srcSpace := bits (w 0) 9 8, dstSpace := bits (w 0) 11 10, irq := bit (w 0) 12, burst := bits (w 0) 15 13
    periph := bits (w 0) 23 16, length := bits (w 1) 27 0, src := addr64 (w 2) (w 3), dst := addr64 (w 4) (w 5), operand := w 6 }

def periphOk (p : Nat) : Bool := p ≤ 4 || (0x10 ≤ p && p ≤ 0x30)

/-- Length of the destination range. -/
def dstLen (d : Desc) : Nat := if isEbc d then ebcBlocks d * (ebcSizes d).2 else d.length

/-- The check of R73 before any byte moves: none, BAD_DESC or BAD_ADDR. Control space is legal only as the destination of whole words
at a data FIFO marked as a DMA target (R72): a LENGTH that is no multiple of 4 is BAD_DESC, and an operation that is neither COPY nor FILL finds no
legal target there [A 94]. -/
def descCheck (s : State) (d : Desc) (w0 w1 : Word) : Option Nat :=
  let badEbc := isEbc d && (bits d.operand 3 2 == 0 || d.length % (ebcSizes d).1 != 0)
  let ctl := d.dstSpace == 3
  let badCtl := ctl && d.length % 4 != 0
  if d.length == 0 || d.burst == 7 || !periphOk d.periph || bits w0 31 24 != 0 || bits w1 31 28 != 0 || badEbc || badCtl then some 0x10
  else
    let srcOk := d.op == .fill || (d.srcSpace != 3 && inSpace s d.srcSpace d.src d.length)
    let dstOk := if ctl then (d.op == .copy || d.op == .fill) && (chainFifoAt d.dst).isSome else inSpace s d.dstSpace d.dst (dstLen d)
    if srcOk && dstOk then none else some 0x11

/-- A channel fetches the descriptor at its head, checks it and starts it; one that fails the check completes at once with RESULT 0
(R70, R73). `mine` says which OP codes the row is for. -/
def fetchDesc (s : State) (ch : Fin 16) (mine : Nat → Bool) : State :=
  let n := dmaBob ch
  let r := vget s.bob.rings n
  if !ringLive r || r.desc.isSome || ringUsed r = 0 then s
  else if accessHeld s r.space then hold s (.descriptor ch)
  else
    let a := entryAddr r r.head
    match accessErr s r.space a 32 true with
    | some k => haltBob s n k false r.space a true
    | none =>
      let ws := bytesWords (spaceRead s r.space a 32)
      let w0 := ws.getD 0 0
      if !mine (bits w0 7 0) then s
      else match dmaOpOf (bits w0 7 0) with
        | none => completeDesc (modRing s n fun r => { r with desc := some (descOf .copy ws) }) n 0x10 0
        | some op =>
          let d := descOf op ws
          let s := modRing s n fun r => { r with desc := some d }
          match descCheck s d w0 (ws.getD 1 0) with
          | some code => completeDesc s n code 0
          | none => s

/-- DMA_COPY: a COPY descriptor, or one whose OP is reserved and fails the check (R73, R75) [A 16]. -/
def execDmaCopy (n : Fin 16) (s : State) : Host.Outcome State Fault Refusal :=
  .next (fetchDesc s n fun op => op != 2 && op != 3 && op != 4 && op != 5)

/-- DMA_FILL (R75). -/
def execDmaFill (n : Fin 16) (s : State) : Host.Outcome State Fault Refusal := .next (fetchDesc s n (· == 2))

/-- DMA_COMPARE (R75). -/
def execDmaCompare (n : Fin 16) (s : State) : Host.Outcome State Fault Refusal := .next (fetchDesc s n (· == 3))

/-- DMA_EBC_ENCODE (R75). -/
def execDmaEbcEncode (n : Fin 16) (s : State) : Host.Outcome State Fault Refusal := .next (fetchDesc s n (· == 4))

/-- DMA_EBC_DECODE (R75). -/
def execDmaEbcDecode (n : Fin 16) (s : State) : Host.Outcome State Fault Refusal := .next (fetchDesc s n (· == 5))

/-- Bytes of the next burst: an EBC descriptor moves whole blocks (R71, R77, R213). -/
def burstLen (d : Desc) : Nat := if isEbc d then (ebcSizes d).2 else min (64 * 2 ^ d.burst) (d.length - d.moved)

/-- The pacing request of a descriptor is asserted (R77). -/
def paced (s : State) (n : Fin 32) (d : Desc) : Bool :=
  if d.periph = 0 then true
  else if d.periph ≤ 4 then
    match idx 4 (d.periph - 1) with
    | some c => chainRoom s c ≥ burstLen d
    | none => false
  else if d.periph = 0x30 then (vget s.bob.rings n).roundLatch
  else match idx 32 (d.periph - 0x10) with
    | some k => (vget s.tim.tacks k).dmaReq > 0
    | none => false

/-- A burst starts: a tack's fire is served, the round-end latch clears (R77). -/
def takeRequest (s : State) (n : Fin 32) (d : Desc) : State :=
  if d.periph = 0x30 then modRing s n fun r => { r with roundLatch := false }
  else if 0x10 ≤ d.periph then
    match idx 32 (d.periph - 0x10) with
    | some k => modTack s k fun t => { t with dmaReq := t.dmaReq - 1 }
    | none => s
  else s

/-- Source and destination of a COPY overlap (R75). -/
def overlaps (d : Desc) : Bool :=
  d.srcSpace == d.dstSpace && d.src < d.dst + d.length && d.dst < d.src + d.length

/-- The pattern bytes of a FILL from byte `k` on (R75). -/
def fillBytes (p : Word) (k len : Nat) : List Byte :=
  (List.range len).map fun i => b8 (p.toNat / 2 ^ (8 * ((k + i) % 4)))

/-- The place of the first difference of two byte lists. -/
def firstDiff : List Byte → List Byte → Option Nat
  | a :: as, b :: bs => if a = b then (firstDiff as bs).map (· + 1) else some 0
  | _, _ => none

/-- The destination of a burst written: control space takes whole words, the other spaces bytes (R52, R72). -/
def putBurst (s : State) (d : Desc) (a : Nat) (bs : List Byte) : State :=
  if d.dstSpace = 3 then
    match chainFifoAt d.dst with
    | some c => chainPush s c (bytesWords bs)
    | none => s
  else spaceWrite s d.dstSpace a bs true

/-- `len` more bytes of a descriptor have been moved; the last of them ends it OK with RESULT LENGTH (R74, R75). -/
def moved (s : State) (n : Fin 32) (d : Desc) (len : Nat) : State :=
  let m := d.moved + len
  modRing s n fun r => { r with desc := some { d with moved := m, fin := if m ≥ d.length then some (0x01, d.length) else none } }

/-- One burst of a COPY, FILL or COMPARE (R75, R78); a failing access ends it (R81). -/
def moveBurst (s : State) (n : Fin 32) (d : Desc) : State :=
  let len := burstLen d
  let sa := srcAt d
  let da := dstAt d
  match (if d.op = .fill then none else accessErr s d.srcSpace sa len true) with
  | some k => failDesc s n k false d.srcSpace sa
  | none => match (if d.dstSpace = 3 then none else accessErr s d.dstSpace da len (d.op == .compare)) with
    | some k => failDesc s n k (d.op != .compare) d.dstSpace da
    | none =>
      match d.op with
      | .compare =>
        match firstDiff (spaceRead s d.srcSpace sa len) (spaceRead s d.dstSpace da len) with
        | some i => modRing s n fun r => { r with desc := some { d with moved := d.moved + i, fin := some (0x02, d.moved + i) } }
        | none => moved s n d len
      | .fill => moved (putBurst s d da (fillBytes d.operand d.moved len)) n d len
      | _ =>
        if overlaps d then
          let (bs, s) := freeBytes s len
          moved (putBurst s d da bs) n d len
        else moved (putBurst s d da (spaceRead s d.srcSpace sa len)) n d len

/-- The read of a channel's next block into the engine (R213). -/
def engRead (s : State) (n : Fin 16) (d : Desc) : State :=
  match accessErr s d.srcSpace (srcAt d) (ebcSizes d).1 true with
  | some k => failDesc s (dmaBob n) k false d.srcSpace (srcAt d)
  | none => engTake s n d (spaceRead s d.srcSpace (srcAt d) (ebcSizes d).1)

/-- The turn of a channel with an EBC descriptor: it writes the output of its finished block, then reads its next block (R213). -/
def engTurn (s : State) (n : Fin 16) (d : Desc) : State :=
  match engOf s (dmaBob n) with
  | none => engRead (takeRequest s (dmaBob n) d) n d
  | some b =>
    match b.out with
    | some (.bytes out raw) =>
      match accessErr s d.dstSpace (dstAt d) (ebcSizes d).2 false with
      | some k => failDesc s (dmaBob n) k true d.dstSpace (dstAt d)
      | none =>
        let s := engPut s (dmaBob n) d out raw
        match (vget s.bob.rings (dmaBob n)).desc with
        | some d' =>
          if d'.fin.isSome || !paced s (dmaBob n) d' || accessHeld s d'.srcSpace then s
          else engRead (takeRequest s (dmaBob n) d') n d'
        | none => s
    | _ => s

/-- A channel has a burst to run but for the DRC: work left, its request asserted; with an EBC descriptor, engine 2 free or holding the
channel's finished block (R70, R77, R213). -/
def wantsTurn (s : State) (n : Fin 16) : Bool :=
  let r := vget s.bob.rings (dmaBob n)
  match r.desc with
  | none => false
  | some d =>
    ringLive r && d.fin.isNone &&
      (if isEbc d then match s.bob.eng with
        | none => paced s (dmaBob n) d
        | some b => b.chan == n && b.out.isSome
      else paced s (dmaBob n) d)

/-- A channel's burst waits for the DRC (R510, R512). -/
def turnHeld (s : State) (n : Fin 16) : Bool :=
  match (vget s.bob.rings (dmaBob n)).desc with
  | none => false
  | some d => (d.op != .fill && accessHeld s d.srcSpace) || accessHeld s d.dstSpace

/-- The channel whose turn it is: the first with work after the one that had the latest turn (R70). -/
def dmaNext (s : State) : Option (Fin 16) :=
  ((List.range 16).map fun k => (s.bob.dmaTurn + 1 + Fin.ofNat 16 k : Fin 16)).find? fun n => wantsTurn s n && !turnHeld s n

/-- A channel's turn (R70, R77, R213). -/
def runTurn (s : State) (n : Fin 16) : State :=
  match (vget s.bob.rings (dmaBob n)).desc with
  | none => s
  | some d =>
    let s := { s with bob := { s.bob with dmaTurn := n } }
    if isEbc d then engTurn s n d else moveBurst (takeRequest s (dmaBob n) d) (dmaBob n) d

/-- DMA_BURST: a channel runs one burst in its turn; before its turn comes nothing moves, and a burst the DRC holds waits there
(R70, R77, R78, R510). -/
def dmaBurst (n : Fin 16) (s : State) : State :=
  if dmaNext s = some n then runTurn s n
  else if wantsTurn s n && turnHeld s n then hold s (.burst n)
  else s

def execDmaBurst (n : Fin 16) (s : State) : Host.Outcome State Fault Refusal := .next (dmaBurst n s)

/-- EBC_BLOCK_DONE: engine 2 finishes the block it holds for a channel, self-check included; a failing block ends the descriptor with its index
(R76, R208, R213). -/
def ebcBlockDone (n : Fin 16) (s : State) : State :=
  match engOf s (dmaBob n), (vget s.bob.rings (dmaBob n)).desc with
  | some b, some d =>
    if b.out.isSome then s
    else
      match engRun s d b with
      | (.bytes out raw, s) => { s with bob := { s.bob with eng := some { b with out := some (.bytes out raw) } } }
      | (.failed code, s) => modRing (engFree s) (dmaBob n) fun r => { r with desc := some { d with fin := some (code, d.moved) } }
  | _, _ => s

def execEbcBlockDone (n : Fin 16) (s : State) : Host.Outcome State Fault Refusal := .next (ebcBlockDone n s)

/-- DMA_DESCRIPTOR_COMPLETE: the status is written after the data and the head advances (R74). -/
def dmaComplete (n : Fin 16) (s : State) : State :=
  let r := vget s.bob.rings (dmaBob n)
  match r.desc with
  | some d =>
    match d.fin with
    | some (code, result) =>
      if !ringLive r then s
      else if accessHeld s r.space then hold s (.status n)
      else completeDesc s (dmaBob n) code result
    | none => s
  | none => s

def execDmaDescriptorComplete (n : Fin 16) (s : State) : Host.Outcome State Fault Refusal := .next (dmaComplete n s)

def failKind : AccessFailure → Nat
  | .unsupportedRequest => 1 | .completerAbort => 2 | .timeout => 3 | .poisoned => 4 | .sram => 5 | .dramFrozen => 6 | .busMasterOff => 7

/-- The failures an access to a space can meet: on the host link a read fails by its completion, any access while Bus Master Enable is clear; a
posted write, once issued, never fails as the part sees it; DRAM fails frozen, SRAM by an uncorrectable word (R80). -/
def canFail (s : State) (why : AccessFailure) (space : Nat) (isWrite : Bool) : Bool :=
  match why with
  | .sram => space == 2
  | .dramFrozen => space == 1 && s.drc.frozen
  | .busMasterOff => space == 0 && !busMaster s
  | _ => space == 0 && !isWrite

/-- The access a failure names: space, address, whether it writes (R81, R82). -/
def failedAccess (s : State) (n : Fin 32) (which : FailedAccess) (isWrite : Bool) : Option (Nat × Nat × Bool) :=
  let r := vget s.bob.rings n
  match which with
  | .data =>
    match r.desc with
    | some d =>
      if d.fin.isSome then none
      else if isWrite then (if d.op = .compare then none else some (d.dstSpace, dstAt d, true))
      else if d.op = .fill then none else some (d.srcSpace, srcAt d, false)
    | none =>
      match idx 4 (n.val - 28) with
      | some b => if n.val < 28 then none else (bufOf s b).map fun c => (c.space, c.addr + c.used, true)
      | none => none
  | .compareDest =>
    match r.desc with
    | some d => if d.op = .compare && d.fin.isNone then some (d.dstSpace, dstAt d, false) else none
    | none => none
  | .descriptor => some (r.space, entryAddr r (if hostProduced n then r.head else r.tail), isWrite)
  | .status => some (r.space, entryAddr r r.head + 0x18, true)
  | .writeBack => if r.wbEn then some (r.space, r.wb, true) else none

/-- BUS_ERROR_HALT: a failed access halts a bobbin, completing or leaving its descriptor (R80, R81). -/
def busErrorHalt (n : Fin 32) (which : FailedAccess) (why : AccessFailure) (isWrite : Bool) (s : State) : State :=
  let r := vget s.bob.rings n
  match failedAccess s n which isWrite with
  | none => s
  | some (space, a, w) =>
    if !ringLive r || !canFail s why space w then s
    else match which with
      | .writeBack => haltBob s n (failKind why) true space a true
      | .descriptor => haltBob (dropDesc s n) n (failKind why) w space a true
      | .status => haltBob (dropDesc s n) n (failKind why) true space a true
      | _ =>
        if r.desc.isSome then failDesc s n (failKind why) w space a
        else haltBob (camCut s n false) n (failKind why) w space a false

def execBusErrorHalt (n : Fin 32) (which : FailedAccess) (why : AccessFailure) (isWrite : Bool) (s : State) :
    Host.Outcome State Fault Refusal := .next (busErrorHalt n which why isWrite s)

end Sys2Proof.Machine
end

