-- ==== Sys2Proof/Machine/Ptp.lean ====
section
/-! DEFINITION. Ethernet ports, stamps, PTP instances, the servo and host messages (R452-R464, R471-R475). -/

namespace Sys2Proof.Machine

open Sys2Proof

def modEth (s : State) (e : Fin 2) (f : EthPort → EthPort) : State := { s with eth := vmod s.eth e f }
def modEthQ (s : State) (e : Fin 2) (f : EthQ → EthQ) : State := { s with ethq := vmod s.ethq e f }

/-- The latency constants in force (R454). -/
def txLat (s : State) (e : Fin 2) : Nat :=
  let c := (vget s.eth e).cfg
  if c.latSet then c.txLat else (Config.ethTxLat e).toNat
def rxLat (s : State) (e : Fin 2) : Nat :=
  let c := (vget s.eth e).cfg
  if c.latSet then c.rxLat else (Config.ethRxLat e).toNat

/-- Time of an instance's time base in 1/16 ns. -/
def instTime (s : State) (e : Fin 2) : Nat := sixteenths (vget s.tim.tbs (vget s.eth e).ptp.tb).t
/-- Receive and transmit stamps taken now (R454). -/
def rxStamp (s : State) (e : Fin 2) : Nat := instTime s e - rxLat s e
def txStamp (s : State) (e : Fin 2) : Nat := instTime s e + txLat s e

/-- The three words of a stamp in a result (R471). -/
def stampWords (t : Nat) : List Word :=
  let ns := t / 16
  let secs := ns / 1000000000
  [w32 secs, pack [(secs / 2 ^ 32 % 65536, 0), (t % 16 * 4096, 16)], w32 (ns % 1000000000)]

/-- CT units of 2^k seconds (R457, R460, R462). -/
def logInterval (k : Int) : Nat := if k ≥ 0 then sec (2 ^ k.toNat) else sec 1 / 2 ^ (-k).toNat

/-- The message belongs to the instance: same domain and majorSdoId, and the instance is not DISABLED (R457). -/
def ptpMine (s : State) (e : Fin 2) (m : PtpMsg) : Bool :=
  let p := vget s.eth e
  p.link && p.ptp.role != .disabled && m.domain == p.ptp.domain && m.sdo == p.ptp.sdo

/-- The firmware that runs servo and messages is there (R470). -/
def ptpFw (s : State) : Bool := fwRuns s && s.fw.accepting

/-- Identifier of a queued stamp: sequenceId, messageType, domainNumber, majorSdoId (R456). -/
def stampIdent (kind seq domain sdo : Nat) : Word := pack [(seq % 65536, 0), (kind, 16), (domain, 20), (sdo, 28)]

/-- Identifier of a stamp of the instance's own message (R456). -/
def txIdent (s : State) (e : Fin 2) (kind seq : Nat) : Word :=
  let c := (vget s.eth e).ptp
  stampIdent kind seq c.domain.toNat c.sdo.toNat

/-- What follows when firmware takes a stamp from the queue (R456, R459, R460). -/
def serveTx (s : State) (e : Fin 2) (x : TxStamp) : State :=
  match x.use with
  | .sync seq => emit s (.eth e (.followUp seq x.stamp))
  | .delayReq seq =>
    modEth s e fun p => if p.delayOut == some (seq, none) then { p with delayOut := some (seq, some x.stamp) } else p
  | .pdelayReq seq =>
    modEth s e fun p => if p.pdelayOut == some (seq, none) then { p with pdelayOut := some (seq, some x.stamp) } else p
  | .pdelayResp req seq => emit s (.eth e (.pdelayRespFollowUp req seq x.stamp))
  | .host => s

/-- Firmware empties a port's transmit stamp queue, oldest first (R456). -/
def drainTx (s : State) (e : Fin 2) : State :=
  let q := (vget s.ethq e).txq
  q.foldl (fun s x => serveTx s e x) (modEthQ s e fun x => { x with txq := [] })

/-- The exchange of a message whose stamp was lost ends (R456). -/
def loseTx (s : State) (e : Fin 2) (u : TxUse) : State :=
  match u with
  | .delayReq _ => modEthQ (modEth s e fun p => { p with delayOut := none }) e fun q => { q with abandoned := q.abandoned + 1 }
  | .pdelayReq _ => modEthQ (modEth s e fun p => { p with pdelayOut := none }) e fun q => { q with abandoned := q.abandoned + 1 }
  | _ => s

/-- The stamp of a sent event message is queued, or discarded and counted when the queue of eight is full (R456). -/
def queueTx (s : State) (e : Fin 2) (ident : Word) (u : TxUse) : State :=
  let x : TxStamp := { stamp := txStamp s e, ident := ident, use := u }
  if (vget s.ethq e).txq.length < 8 then modEthQ s e fun q => { q with txq := q.txq ++ [x] }
  else
    let s := modEthQ s e fun q => { q with txOvf := satAdd 0xFFFF q.txOvf 1 }
    loseTx (raise s 169 e.val 0 x.ident) e u

/-- An event message leaves: its stamp is queued, and firmware takes the queued stamps at once when it is free to (R456). -/
def sendStamped (s : State) (e : Fin 2) (kind seq : Nat) (u : TxUse) (tx : EthTx) (fwTakes : Bool) : State :=
  let s := queueTx (emit s (.eth e tx)) e (txIdent s e kind seq) u
  if fwTakes && ptpFw s then drainTx s e else s

/-- The instance restarts: servo in ACQUIRING for a SLAVE, every exchange forgotten (R461, R472). -/
def restartInst (s : State) (e : Fin 2) : State :=
  modEth s e fun p =>
    { p with
      servo := if p.ptp.role == .slave then .acquiring else .free
      parent := none, integral := 0, good := 0, bad := 0, lastSync := s.ct, syncWait := none
      baseRate := (vget s.tim.tbs p.ptp.tb).rate
      delayOut := none, delayPair := none, dHist := [], dCur := none, linkHist := [], pdelayOut := none, pdelayWait := none
      nextSync := s.ct, nextDelay := s.ct, nextPdelay := s.ct }

/-! ## Ports and instances -/

/-- ETH_LINK_CHANGE: a port's PCS locks or loses lock; the servo's count of R462 goes on (R452, R475). -/
def execEthLinkChange (e : Fin 2) (up : Bool) (s : State) : Host.Outcome State Fault Refusal :=
  let p := vget s.eth e
  .next (if p.link == up || (up && (p.cfg.mode == 0 || !s.glb.sdLock)) then s
    else raise (modEth s e fun p => { p with link := up }) 173 e.val (b2n up) (w32 p.cfg.mode))

/-- ETH_FRAME_DISCARD: a frame that is no accepted PTP message is discarded and counted (R453). -/
def execEthFrameDiscard (e : Fin 2) (s : State) : Host.Outcome State Fault Refusal :=
  .next (if (vget s.eth e).link then modEthQ s e fun q => { q with dropFrames := satAdd 0xFFFF q.dropFrames 1 } else s)

/-- TIM.SET_PORT (R471). -/
def timSetPortSpec : CmdSpec :=
  fixedSpec 0x0902 [0xF, 0xFFFFFFFF, 0xFFFF, 0xFFFFF, 0xFFFFF, 0xFFFFFFFF, 0xFFFF, 0xFFFFFFFF, 0xFFFFFFFF, 0xFFFFFFFF,
    0xFFFFFFFF, 0xFFFFFFFF]

/-- The Ethernet port named in bit 0 of word 0. -/
def ethOf (c : Cmd) : Fin 2 := ⟨bits (pw c 0) 0 0, Nat.mod_lt _ (by decide)⟩

/-- The port takes its settings; a change of mode takes the link down and restarts the instance (R452, R472). -/
def timSetPort (c : Cmd) (s : State) : CmdRes :=
  let e := ethOf c
  let mode := bits (pw c 0) 2 1
  let cfg : EthCfg :=
    { mode := mode, an := bit (pw c 0) 3
      mac := BitVec.ofNat 48 ((pw c 1).toNat + 2 ^ 32 * bits (pw c 2) 15 0)
      latSet := true, txLat := bits (pw c 3) 19 0, rxLat := bits (pw c 4) 19 0, asym := sbits (pw c 5) 31 0
      vlan := BitVec.ofNat 12 (bits (pw c 6) 11 0), pcp := BitVec.ofNat 3 (bits (pw c 6) 14 12), tagVlan := bit (pw c 6) 15
      ipv4 := pw c 7
      ipv6 := BitVec.ofNat 128 ((pw c 8).toNat + 2 ^ 32 * (pw c 9).toNat + 2 ^ 64 * (pw c 10).toNat + 2 ^ 96 * (pw c 11).toNat) }
  let old := vget s.eth e
  let s1 := touch (modEth s e fun p => { p with cfg := cfg }) .tim
  let s2 :=
    if old.cfg.mode == mode then s1
    else
      let s1 := restartInst s1 e
      if old.link then raise (modEth s1 e fun p => { p with link := false }) 173 e.val 0 (w32 mode) else s1
  firstFail s [chkW (mode == 3) 0] (.ok s2)

def execTimSetPort (c : Cmd) (s : State) : Host.Outcome State Fault Refusal := .next (runCmd s timSetPortSpec c (timSetPort c))

/-- TIM.SET_PTP (R471). -/
def timSetPtpSpec : CmdSpec :=
  fixedSpec 0x0903 [0x0FFF0FFF, 0xFFFFFFFF, 0xFFFFFFFF, 0xFFFF, 0xFFFFFFFF, 0xFFFFFFFF, 0xFFFFFFFF]

def roleOf : Nat → PtpRole
  | 0 => .disabled | 1 => .slave | 2 => .master | _ => .passive

/-- DETAIL TB_TAKEN (R472). -/
def dTbTaken : Nat := 0x1005

/-- The instance takes its settings; a change of a SLAVE's role or time base, or becoming a SLAVE, restarts it; the next Sync fixes the master
anew (R457, R458, R472). -/
def timSetPtp (c : Cmd) (s : State) : CmdRes :=
  let e := ethOf c
  let w0 := pw c 0
  let tb : Fin 4 := ⟨bits w0 8 7, Nat.mod_lt _ (by decide)⟩
  let role := roleOf (bits w0 2 1)
  let ls := sbits (pw c 4) 7 0
  let ld := sbits (pw c 4) 15 8
  let lp := sbits (pw c 4) 23 16
  let loss := bits (pw c 4) 31 24
  let lim := (pw c 5).toNat
  let cfg : PtpCfg :=
    { role := role, p2p := bit w0 3, transport := bits w0 5 4, oneStep := bit w0 6, tb := tb, avg := bits w0 11 9
      domain := BitVec.ofNat 8 (bits w0 23 16), sdo := BitVec.ofNat 4 (bits w0 27 24)
      clockId := BitVec.ofNat 64 ((pw c 1).toNat + 2 ^ 32 * (pw c 2).toNat), portNumber := BitVec.ofNat 16 (bits (pw c 3) 15 0)
      logSync := ls, logDelay := ld, logPdelay := lp, syncLoss := loss
      stepLimit := lim, kp := bits (pw c 6) 15 0, ki := bits (pw c 6) 31 16 }
  let old := (vget s.eth e).ptp
  let taken := role == .slave && (indices 2).any fun o =>
    o != e && (vget s.eth o).ptp.role == .slave && (vget s.eth o).ptp.tb == tb
  let restart := (old.role != role) || (role == .slave && old.tb != tb)
  let s1 := touch (modEth s e fun p => { p with ptp := cfg }) .tim
  firstFail s
    [chkW (bits w0 5 4 == 3 || bits w0 11 9 > 3) 0, (taken, stBadParam, dTbTaken),
     chkW (ls < -7 || ls > 4 || ld < -7 || ld > 5 || lp < -7 || lp > 5 || loss < 2) 4,
     chkW (lim < 1000 || lim > 1000000000) 5]
    (.ok (if restart then restartInst s1 e else modEth s1 e fun p => { p with parent := none }))

def execTimSetPtp (c : Cmd) (s : State) : Host.Outcome State Fault Refusal := .next (runCmd s timSetPtpSpec c (timSetPtp c))

/-! ## The servo (R460, R461) -/

/-- Mean of the newest `2 ^ avg` values, rounded down [A 11]. -/
def meanOf (avg : Nat) (xs : List Int) : Int :=
  let ys := xs.take (2 ^ avg)
  if ys.isEmpty then 0 else ys.sum / (ys.length : Int)

/-- An offset as a signed 32-bit word, saturating (R474). -/
def offsetWord (o : Int) : Int := max (-(2 ^ 31 : Nat)) (min ((2 ^ 31 : Nat) - 1) o)

/-- The servo moves to another state; EV_TIM_LOCK reports each change to or from LOCKED. -/
def setServo (s : State) (e : Fin 2) (v : Servo) (o : Int) : State :=
  let p := vget s.eth e
  let s' := modEth s e fun p => { p with servo := v }
  if (p.servo == .locked) == (v == .locked) then s'
  else raise s' 171 p.ptp.tb.val (b2n (v == .locked)) (w32 (toBits 32 (offsetWord o)))

/-- An offset of the slave from its master is applied: a step, or a new RATE (R460, R461). -/
def servoApply (s : State) (e : Fin 2) (o d : Int) : State :=
  let p := vget s.eth e
  let s := modEthQ s e fun q => { q with servoOfs := offsetWord o, servoDly := d }
  if o.natAbs > p.ptp.stepLimit * 16 then
    let b := vget s.tim.tbs p.ptp.tb
    let t := ((b.t : Int) - o * ((tbNs / 16 : Nat) : Int)).toNat
    let ns := Int.tdiv (-o) 16
    let s := tbJump s p.ptp.tb t false 2 (Int.tdiv ns 1000000000) (Int.tmod ns 1000000000)
    let s := modEth s e fun p => { p with integral := 0, good := 0, bad := 0 }
    setServo s e .acquiring o
  else
    let integral := p.integral + o
    let raw := p.baseRate - ((p.ptp.kp : Int) * o + (p.ptp.ki : Int) * integral) / 65536
    let rate := max (-32768000) (min 32768000 raw)
    let good := if o.natAbs < 1600 then p.good + 1 else 0
    let bad := if o.natAbs ≥ 16000 then p.bad + 1 else 0
    let s := modTb s p.ptp.tb fun b => { b with rate := rate }
    let s := modEth s e fun p => { p with integral := integral, good := good, bad := bad }
    if p.servo == .locked then (if bad ≥ 4 then setServo s e .acquiring o else s)
    else if good ≥ 16 then setServo s e .locked o else s

/-- correctionField in 1/16 ns, rounded down [A 11]. -/
def corr16 (c : Int) : Int := c / 4096

/-- A Sync with its origin time, receive stamp and correction is complete: the offset is formed once a delay is known; the mean of an E2E
delay takes one value per exchange (R460) [A 78]. -/
def syncDone (s : State) (e : Fin 2) (t1 t2 : Nat) (cs : Int) : State :=
  let p := vget s.eth e
  let ms : Int := (t2 : Int) - t1 - cs
  if p.ptp.p2p then
    if p.linkHist.isEmpty then s
    else
      let d := meanOf p.ptp.avg p.linkHist
      servoApply s e (ms - d - p.cfg.asym) d
  else match p.delayPair with
    | none => s
    | some sm =>
      let cur := (ms + sm) / 2
      let d := meanOf p.ptp.avg ((cur :: p.dHist).take 8)
      servoApply (modEth s e fun p => { p with dCur := some cur }) e (ms - d - p.cfg.asym) d

/-- A Sync is discarded and EV_TIM_SYNC_DISCARD says why. -/
def discardSync (s : State) (e : Fin 2) (code seq : Nat) : State := raise s 176 e.val code (w32 seq)

/-- SYNC_RECEIVE: a SLAVE takes a Sync; the first after configuration or holdover fixes the master; a Sync ends holdover; a two-step
Sync waits for its Follow_Up (R457, R459, R460, R462). -/
def syncReceive (e : Fin 2) (m : PtpMsg) (s : State) : State :=
  let p := vget s.eth e
  let hold := p.servo == .holdover
  let other := match p.parent with
    | none => false
    | some q => !hold && q != m.src
  if other then discardSync s e 3 m.seq.toNat
  else
    let s :=
      if hold then
        let s := modEth s e fun p => { p with servo := .acquiring, integral := 0, good := 0, bad := 0, delayPair := none, dHist := [], dCur := none }
        raise s 170 p.ptp.tb.val 0 (w32 (toBits 32 (vget s.tim.tbs p.ptp.tb).rate))
      else s
    let t2 := rxStamp s e
    let s := match p.syncWait with
      | some w => discardSync s e 1 w.seq
      | none => s
    let s := modEth s e fun p => { p with parent := some m.src, lastSync := s.ct, syncWait := none }
    if m.twoStep then
      modEth s e fun p => { p with syncWait := some { seq := m.seq.toNat, t2 := t2, corr := m.corr, since := s.ct } }
    else syncDone s e m.ts t2 (corr16 m.corr)

def execSyncReceive (e : Fin 2) (m : PtpMsg) (s : State) : Host.Outcome State Fault Refusal :=
  .next (if ptpMine s e m && (vget s.eth e).ptp.role == .slave && ptpFw s then syncReceive e m s else s)

/-- FOLLOW_UP_RECEIVE: the Follow_Up of the waiting Sync completes it (R459, R460). -/
def followUpReceive (e : Fin 2) (m : PtpMsg) (s : State) : State :=
  match (vget s.eth e).syncWait with
  | some w =>
    if w.seq == m.seq.toNat && (vget s.eth e).parent == some m.src then
      syncDone (modEth s e fun p => { p with syncWait := none }) e m.ts w.t2 (corr16 (w.corr + m.corr))
    else s
  | none => s

def execFollowUpReceive (e : Fin 2) (m : PtpMsg) (s : State) : Host.Outcome State Fault Refusal :=
  .next (if ptpMine s e m && (vget s.eth e).ptp.role == .slave && ptpFw s then followUpReceive e m s else s)

/-- FOLLOW_UP_TIMEOUT: one Sync interval passes without the Follow_Up and the Sync is discarded (R459). -/
def execFollowUpTimeout (e : Fin 2) (s : State) : Host.Outcome State Fault Refusal :=
  .next (match (vget s.eth e).syncWait with
    | some w =>
      if ptpFw s then
        let s := advanceTo s (w.since + logInterval (vget s.eth e).ptp.logSync)
        discardSync (modEth s e fun p => { p with syncWait := none }) e 1 w.seq
      else s
    | none => s)

/-- DELAY_REQ_SEND: an E2E SLAVE with a master asks for its delay (R457). -/
def execDelayReqSend (e : Fin 2) (fwTakes : Bool) (s : State) : Host.Outcome State Fault Refusal :=
  let p := vget s.eth e
  .next (if p.link && p.ptp.role == .slave && !p.ptp.p2p && p.parent.isSome && ptpFw s then
    let s := advanceTo s p.nextDelay
    let s := modEth s e fun p =>
      { p with delayOut := some (p.seqDelay, none), nextDelay := s.ct + logInterval p.ptp.logDelay, seqDelay := (p.seqDelay + 1) % 65536 }
    sendStamped s e 1 p.seqDelay (.delayReq p.seqDelay) (.delayReq p.seqDelay) fwTakes
  else s)

/-- DELAY_RESP_RECEIVE: the answer to the Delay_Req gives the newest pair, t4 - t3 - c_r (R460). -/
def delayRespReceive (e : Fin 2) (m : PtpMsg) (s : State) : State :=
  let p := vget s.eth e
  match p.delayOut with
  | some (seq, some t3) =>
    if seq == m.seq.toNat && p.parent == some m.src && m.req == { clock := p.ptp.clockId, port := p.ptp.portNumber } then
      modEth s e fun p =>
        { p with
          delayOut := none, delayPair := some ((m.ts : Int) - t3 - corr16 m.corr), dCur := none
          dHist := (p.dCur.toList ++ p.dHist).take 8 }
    else s
  | _ => s

def execDelayRespReceive (e : Fin 2) (m : PtpMsg) (s : State) : Host.Outcome State Fault Refusal :=
  .next (if ptpMine s e m && (vget s.eth e).ptp.role == .slave && ptpFw s then delayRespReceive e m s else s)

/-- DELAY_REQ_RECEIVE: an E2E MASTER answers with the receive stamp (R457). -/
def execDelayReqReceive (e : Fin 2) (m : PtpMsg) (s : State) : Host.Outcome State Fault Refusal :=
  let p := vget s.eth e
  .next (if ptpMine s e m && p.ptp.role == .master && !p.ptp.p2p && ptpFw s then
    emit s (.eth e (.delayResp m.src m.seq.toNat (rxStamp s e)))
  else s)

/-- PDELAY_REQ_SEND: every role but DISABLED with P2P measures its link delay (R457). -/
def execPdelayReqSend (e : Fin 2) (fwTakes : Bool) (s : State) : Host.Outcome State Fault Refusal :=
  let p := vget s.eth e
  .next (if p.link && p.ptp.role != .disabled && p.ptp.p2p && ptpFw s then
    let s := advanceTo s p.nextPdelay
    let s := modEth s e fun p =>
      { p with pdelayOut := some (p.seqPdelay, none), pdelayWait := none, nextPdelay := s.ct + logInterval p.ptp.logPdelay
               seqPdelay := (p.seqPdelay + 1) % 65536 }
    sendStamped s e 2 p.seqPdelay (.pdelayReq p.seqPdelay) (.pdelayReq p.seqPdelay) fwTakes
  else s)

/-- PDELAY_REQ_RECEIVE: it is answered by a two-step Pdelay_Resp (R457, R459). -/
def execPdelayReqReceive (e : Fin 2) (m : PtpMsg) (fwTakes : Bool) (s : State) : Host.Outcome State Fault Refusal :=
  let p := vget s.eth e
  .next (if ptpMine s e m && p.ptp.p2p && ptpFw s then
    sendStamped s e 3 m.seq.toNat (.pdelayResp m.src m.seq.toNat) (.pdelayResp m.src m.seq.toNat (rxStamp s e)) fwTakes
  else s)

/-- The link delay of one peer exchange, ((t4 - t1) - (t3 - t2)) / 2 less the corrections (R460). -/
def linkDelay (t1 t2 t3 t4 : Nat) (c : Int) : Int := (((t4 : Int) - t1) - ((t3 : Int) - t2) - c) / 2

/-- PDELAY_RESP_RECEIVE: the response gives t2 and t4, its Follow_Up t3, and together a link delay (R460). -/
def pdelayRespReceive (e : Fin 2) (m : PtpMsg) (followUp : Bool) (s : State) : State :=
  let p := vget s.eth e
  let mine := m.req == { clock := p.ptp.clockId, port := p.ptp.portNumber }
  if !mine then s
  else if followUp then
    match p.pdelayWait with
    | some (seq, t2, c, t4) =>
      match p.pdelayOut with
      | some (seq', some t1) =>
        if seq == m.seq.toNat && seq' == seq then
          let d := linkDelay t1 t2 m.ts t4 (c + corr16 m.corr)
          let s := modEth s e fun p => { p with pdelayWait := none, pdelayOut := none, linkHist := (d :: p.linkHist).take 8 }
          modEthQ s e fun q => { q with servoDly := d }
        else s
      | _ => s
    | none => s
  else match p.pdelayOut with
    | some (seq, _) =>
      if seq == m.seq.toNat then
        let t4 := rxStamp s e
        modEth s e fun p => { p with pdelayWait := some (seq, m.ts, corr16 m.corr, t4) }
      else s
    | none => s

def execPdelayRespReceive (e : Fin 2) (m : PtpMsg) (followUp : Bool) (s : State) : Host.Outcome State Fault Refusal :=
  .next (if ptpMine s e m && (vget s.eth e).ptp.p2p && ptpFw s then pdelayRespReceive e m followUp s else s)

/-- SYNC_SEND: a MASTER sends Sync at its interval: one-step with the origin time in it, two-step with a Follow_Up once the stamp is
taken (R457, R459). -/
def execSyncSend (e : Fin 2) (fwTakes : Bool) (s : State) : Host.Outcome State Fault Refusal :=
  let p := vget s.eth e
  .next (if p.link && p.ptp.role == .master && ptpFw s then
    let s := advanceTo s p.nextSync
    let seq := p.seqSync
    let s := modEth s e fun p => { p with seqSync := (p.seqSync + 1) % 65536, nextSync := s.ct + logInterval p.ptp.logSync }
    if p.ptp.oneStep then emit s (.eth e (.sync seq (txStamp s e) false))
    else sendStamped s e 0 seq (.sync seq) (.sync seq 0 true) fwTakes
  else s)

/-- SYNC_LOSS_TIMEOUT: no Sync for SYNC_LOSS intervals: the SLAVE goes into holdover with its RATE kept and no slew pending (R462). -/
def execSyncLossTimeout (e : Fin 2) (s : State) : Host.Outcome State Fault Refusal :=
  let p := vget s.eth e
  .next (if p.ptp.role == .slave && p.servo != .holdover && ptpFw s then
    let s := advanceTo s (p.lastSync + p.ptp.syncLoss * logInterval p.ptp.logSync)
    let s := modTb s p.ptp.tb fun b => { b with slew := 0 }
    let s := setServo s e .holdover (vget s.ethq e).servoOfs
    let s := modEth s e fun p => { p with syncWait := none, good := 0, bad := 0 }
    raise s 170 p.ptp.tb.val 1 (w32 (toBits 32 (vget s.tim.tbs p.ptp.tb).rate))
  else s)

/-! ## Host messages (R463, R464) -/

/-- The words of a TIM.RECV_MSG result: at most 248 words of message fit a reply (R97) [A 12]. -/
def recvWords (e : Fin 2) (m : HostMsg) : List Word :=
  pack [(e.val, 0), (b2n m.stamp.isSome, 1), (m.bytes.length, 16)] :: stampWords (m.stamp.getD 0) ++ (bytesWords m.bytes).take 248

/-- Whether an outstanding command is a TIM.RECV_MSG that has started and takes messages of a port. -/
def recvFor (e : Fin 2) (o : OutCmd) : Bool :=
  o.op == 0x0905 && o.started && (bit (pw o.pkt 0) 1 || bits (pw o.pkt 0) 0 0 == e.val)

/-- The oldest waiting TIM.RECV_MSG of a port: pairs in rising order, then fetch order. -/
def recvWaiting (s : State) (e : Fin 2) : Option Cmd :=
  (indices 4).findSome? fun p => ((vget s.cmd.pairs p).outs.find? (recvFor e)).map (·.pkt)

/-- PTP_HOST_MESSAGE_RECEIVE: an Announce, Signaling or Management message goes to a waiting TIM.RECV_MSG, into the queue of 16, or is
discarded and counted (R457, R464). Event messages among them keep their receive stamp. -/
def hostMessage (e : Fin 2) (kind : BitVec 4) (bytes : List Byte) (s : State) : State :=
  let m : HostMsg := { came := s.ct, stamp := if kind.toNat < 8 then some (rxStamp s e) else none, bytes := bytes }
  match (if fwRuns s then recvWaiting s e else none) with
  | some c => finishTag s c.pair c.tag stOk 0 (recvWords e m)
  | none =>
    let q := (vget s.ethq e).rxq
    if q.length < 16 then
      raise (modEthQ s e fun x => { x with rxq := x.rxq ++ [m] }) 174 e.val kind.toNat (w32 (q.length + 1))
    else
      let s := modEthQ s e fun x => { x with dropMsgs := satAdd 0xFFFF x.dropMsgs 1 }
      raiseLimited s 175 e.val (sec 1) 1 fun n => (0, w32 n, 0, 0)

/-- After a takeover the messages that came meanwhile go to the commands that wait for them (R464, R492). -/
def serveRecv : Nat → Fin 2 → State → State
  | 0, _, s => s
  | k + 1, e, s =>
    match recvWaiting s e, (vget s.ethq e).rxq with
    | some c, m :: rest => serveRecv k e (finishTag (modEthQ s e fun q => { q with rxq := rest }) c.pair c.tag stOk 0 (recvWords e m))
    | _, _ => s

def execPtpHostMessageReceive (e : Fin 2) (kind : BitVec 4) (m : PtpMsg) (bytes : List Byte) (s : State) :
    Host.Outcome State Fault Refusal :=
  .next (if ptpMine s e m then hostMessage e kind bytes s else s)

/-- TIM.SEND_MSG (R463, R471): two words and the message's bytes. -/
def timSendMsgSpec : CmdSpec where
  op := 0x0904
  lenOk ws := ws.length ≥ 2 && ws.length == 2 + ceilDiv (bits (ws.getD 1 0) 10 0) 4
  rsvOk ws := only (ws.getD 0 0) 0x3 && only (ws.getD 1 0) 0x7FF
  async := true

/-- DETAILs PORT_DOWN, TXTS_LOST, RECV_FULL (R472). -/
def dEthDown : Nat := 0x1002
def dTxtsLost : Nat := 0x1003
def dRecvFull : Nat := 0x1004

/-- The message leaves; with STAMP the reply carries its transmit stamp, or FAILED when the stamp finds the queue full. An event message
without STAMP is stamped too and its stamp taken by firmware (R454, R456, R463). -/
def timSendMsg (c : Cmd) (s : State) : CmdRes :=
  let e := ethOf c
  let len := bits (pw c 1) 10 0
  let bs := (wordBytes (c.words.drop 2)).take len
  let s1 := emit s (.eth e (.hostMsg bs))
  let kind := (bs.headD 0).toNat % 16
  let seq := (bs.getD 30 0).toNat * 256 + (bs.getD 31 0).toNat
  let lost := (vget s.ethq e).txq.length ≥ 8
  let s2 := queueTx s1 e (stampIdent kind seq (bs.getD 4 0).toNat ((bs.headD 0).toNat / 16)) .host
  let s3 := modEthQ s2 e fun q => { q with txq := q.txq.filter fun x => x.use != .host }
  firstFail s [chkW (len < 34 || len > 1024) 1, chkS (!(vget s.eth e).link) dEthDown]
    (if !bit (pw c 0) 1 then .ok (if kind < 8 then s3 else s1)
     else if lost then .done stFailed dTxtsLost [] s2
     else .ok s3 (stampWords (txStamp s1 e)))

def execTimSendMsg (c : Cmd) (s : State) : Host.Outcome State Fault Refusal := .next (runCmd s timSendMsgSpec c (timSendMsg c))

/-- TIM.RECV_MSG (R464, R471). -/
def timRecvMsgSpec : CmdSpec := fixedSpec 0x0905 [0x3] (async := true)

/-- Takes the oldest message of the port, or of either port with ANY, or waits; a ninth of a pair is refused (R464). -/
def timRecvMsg (c : Cmd) (s : State) : CmdRes :=
  let waiting := ((vget s.cmd.pairs c.pair).outs.filter fun o => o.op == 0x0905 && o.started && o.pkt.tag != c.tag).length
  let oldest (e : Fin 2) := ((vget s.ethq e).rxq.head?).map fun m => (e, m)
  let pick : Option (Fin 2 × HostMsg) :=
    if bit (pw c 0) 1 then
      match oldest 0, oldest 1 with
      | some a, some b => if b.2.came < a.2.came then some b else some a
      | some a, none => some a
      | none, x => x
    else oldest (ethOf c)
  firstFail s [(waiting ≥ 8, stNoResource, dRecvFull)]
    (match pick with
     | some (e, m) => .ok (modEthQ s e fun q => { q with rxq := q.rxq.drop 1 }) (recvWords e m)
     | none => .started s)

def execTimRecvMsg (c : Cmd) (s : State) : Host.Outcome State Fault Refusal := .next (runCmd s timRecvMsgSpec c (timRecvMsg c))

end Sys2Proof.Machine
end

