-- ==== Sys2Proof/Machine/Seq.lean ====
section
/-! DEFINITION. The two sequencers and the thimble: heartbeats, digests, mirroring, grants, takeover, repair, planned swaps (R476-R505, R576). -/

namespace Sys2Proof.Machine

open Sys2Proof

def modSq (s : State) (q : Fin 2) (f : Sq → Sq) : State := { s with seq := { s.seq with sqs := vmod s.seq.sqs q f } }
def sqOf (s : State) (q : Fin 2) : Sq := vget s.seq.sqs q
def otherSq (q : Fin 2) : Fin 2 := 1 - q

/-- State codes of SEQ_STAT (R504). -/
def seqCode : SeqState → Nat
  | .reset => 0 | .selftest => 1 | .loading => 2 | .syncing => 3 | .standby => 4 | .active => 5 | .failed => 6

/-- A sequencer enters a state; EV_SEQ_STATE reports it with `code` (R488, R505). -/
def enterCode (s : State) (q : Fin 2) (st : SeqState) (code : Nat) : State :=
  let old := (sqOf s q).state
  let s := modSq s q fun x => { x with state := st, since := s.ct }
  raise s 197 q.val code (w32 (seqCode old))

def enterState (s : State) (q : Fin 2) (st : SeqState) : State := enterCode s q st (seqCode st)

/-! ## Mirror regions and digests (R476, R480) -/

/-- A word of a mirror region replaced; a word 0 is not listed. -/
def regionSet : List (Nat × Word) → Nat → Word → List (Nat × Word)
  | [], a, w => if w = 0 then [] else [(a, w)]
  | (k, v) :: r, a, w =>
    if k = a then (if w = 0 then r else (a, w) :: r)
    else if a < k then (if w = 0 then (k, v) :: r else (a, w) :: (k, v) :: r)
    else (k, v) :: regionSet r a w

def regionWrite (r : List (Nat × Word)) (ws : List (Fin 8192 × Word)) : List (Nat × Word) :=
  ws.foldl (fun r x => regionSet r x.1.val x.2) r

/-- The digest of a mirror region: the sum over all 8192 indices of (a * 2^32 + w_a) * 0x9E3779B97F4A7C15; the indices together give
33,550,336 * 2^32, and words not listed are 0. -/
def regionDigest (r : List (Nat × Word)) : BitVec 64 :=
  (BitVec.ofNat 64 (33550336 * 2 ^ 32) + BitVec.ofNat 64 ((r.map fun x => x.2.toNat).sum)) * 0x9E3779B97F4A7C15#64

/-- A sequencer is given the active's whole region and follows its records from there (R496). -/
def resync (s : State) (q : Fin 2) : State :=
  let a := sqOf s (otherSq q)
  modSq s q fun x => { x with region := a.region, msn := a.msn, dig := regionDigest a.region, stuck := false, matched := 0 }

/-! ## Grants (R478, R484, R497, R498, R576) -/

/-- The sequencer is SYNCED (R488). -/
def synced (s : State) (q : Fin 2) : Bool := (sqOf s q).state == .standby

/-- The grant goes to a sequencer with the next epoch. -/
def grant (s : State) (q : Fin 2) (cold : Bool) : State :=
  let e := s.seq.epoch + 1
  let s := enterState s q .active
  let s := modSq s q fun x => { x with hbAt := s.ct, hbLost := false, stuck := false, matched := 0, mismatch := false }
  let s := { s with seq := { s.seq with
    granted := true, active := q, epoch := e, digests := [], lastEpoch := if s.seq.lastCause = 0 then 0 else e.setWidth 16, headless := false
    takeover := some (s.ct, cold), gntWait := false } }
  let s := raise s 193 q.val 0 e
  if (sqOf s (otherSq q)).state == .syncing then resync s (otherSq q) else s

/-- GLB_RESET_CAUSE as a word (R587). -/
def resetCauseWord (s : State) : Word :=
  let g := s.glb
  pack [(b2n g.causePowerOn, 0), (b2n g.causePin, 1), (b2n g.causeSysPll, 2), (b2n g.causeBrownOut, 3), (b2n g.causeDebug, 4),
    (g.resetCount, 8)]

/-- The first grant after chip reset: epoch 1, the BOOT cause clears, the reset cause is reported (R576, R588). -/
def firstGrant (s : State) (q : Fin 2) : State :=
  let s := grant s q true
  let s := { s with fw := { s.fw with granted := true }, seq := { s.seq with takeover := none, swapFrom := s.ct } }
  raise (setFault s fltBoot false) 13 0 0 (resetCauseWord s)

/-- A SEQ.REPAIR that waits for this sequencer ends (R503). -/
def endRepair (s : State) (q : Fin 2) (ok : Bool) : State :=
  match (sqOf s q).repair with
  | none => s
  | some (p, tag) =>
    let s := modSq s q fun x => { x with repair := none }
    if ok then finishTag s p tag stOk 0 [0] else finishTag s p tag stFailed 0x1004

/-- A sequencer is revoked or dropped: held in RESET for repair, or FAILED at the third time within an hour (R487, R496, R497). -/
def dropSq (s : State) (q : Fin 2) : State :=
  let times := (s.ct :: (sqOf s q).drops).filter fun t => decide (s.ct < t + sec 3600)
  let s := modSq s q fun x => { x with drops := times, lockup := 0, halted := false, stuck := false, matched := 0, hbLost := false, mismatch := false }
  if times.length ≥ 3 then endRepair (enterState s q .failed) q false else enterState s q .reset

/-- While the chip is headless a homing in progress stops under DMAX; its command ends with the cold start (R498). -/
def onHeadless (s : State) : State :=
  (indices 6).foldl (fun s n =>
    if (axis s n).state == .homing then beginStop (modAxis s n fun x => { x with homing := none }) n false false else s) s

/-- The thimble withdraws the grant (R484): EV_SEQ_REVOKE; on codes 4 and 5 the old active becomes standby, otherwise it goes to repair;
a SYNCED standby is granted (or the one selected), and without one the chip is headless (R498). -/
def revoke (s : State) (cause : Nat) : State :=
  let q := s.seq.active
  let lock := if cause = 3 then (sqOf s q).lockup else 0
  let s := { s with seq := { s.seq with
    granted := false, revocations := satAdd 255 s.seq.revocations 1, lastSeq := q, lastCause := cause, lastLockup := lock, lastEpoch := 0
    lastCt := s.ct } }
  let s := raise s 192 q.val cause s.seq.epoch (w32 lock)
  let ready := synced s (otherSq q)
  let s := if cause = 4 || cause = 5 then (if ready then enterState s q .standby else dropSq s q) else dropSq s q
  if ready then grant s (otherSq q) false
  else
    let s := raise { s with seq := { s.seq with headless := true } } 199 0 0
    onHeadless (setFault s fltHeadless true)

/-! ## Heartbeats and mirroring (R479, R481, R484-R488) -/

/-- A standby reports an MSN that the thimble holds with another digest: EV_SEQ_DIGEST_MISMATCH at the first difference, and outside
external-thimble mode the active loses the grant; in it the active's heartbeat pin rests (R486, R500). -/
def digestMismatch (s : State) (m : BitVec 16) (da ds : BitVec 64) : State :=
  let q := s.seq.active
  if s.seq.ext && (sqOf s q).mismatch then s
  else
    let s := raise s 198 q.val 0 (w32 m.toNat) (w32 da.toNat) (w32 ds.toNat)
    if s.seq.ext then modSq s q fun x => { x with mismatch := true } else revoke s 2

/-- The standby loses SYNCED and is resynchronised (R481, R486). -/
def loseSync (s : State) (q : Fin 2) (why : Nat) : State :=
  let s := raise s 202 q.val why (w32 (sqOf s (otherSq q)).msn.toNat)
  resync (if (sqOf s q).state == .standby then enterState s q .syncing else s) q

/-- The heartbeat of the active closes an MSN: the thimble keeps its digest, and a follower that has every record of it stands at it. -/
def closeMsn (s : State) (q : Fin 2) : State :=
  let m := (sqOf s q).msn + 1
  let d := regionDigest (sqOf s q).region
  let s := modSq s q fun x => { x with msn := m, dig := d }
  let s := { s with seq := { s.seq with digests := ((m, d) :: s.seq.digests).take 4 } }
  modSq s (otherSq q) fun x =>
    if (x.state == .standby || x.state == .syncing) && !x.stuck then { x with msn := m, dig := regionDigest x.region } else x

/-- What the thimble makes of the digest a follower reports (R486, R488). -/
def compareDigest (s : State) (q : Fin 2) : State :=
  let x := sqOf s q
  match s.seq.digests.find? fun p => p.1 == x.msn with
  | some (m, d) =>
    if x.state == .standby then 
      (if d == x.dig then modSq s s.seq.active fun x => { x with mismatch := false } else digestMismatch s m d x.dig)
    else if d != x.dig then modSq s q fun x => { x with matched := 0 }
    else if x.matched + 1 < 2 then modSq s q fun x => { x with matched := x.matched + 1 }
    else
      let s := raise (enterState s q .standby) 196 q.val 0 (w32 m.toNat)
      let s := setReady s 1
      let s := endRepair s q true
      if s.seq.gntWait && (if s.seq.gnt then 1 else 0) == q.val && q != s.seq.active then revoke s 5 else s
  | none => if x.state == .standby && s.seq.digests.length = 4 then loseSync s q 1 else s

/-- HEARTBEAT: every 10 us of CT a sequencer not in reset sends its heartbeat; `stray` is what its firmware wrote to its own region
outside the mirror channel (R479, R486, R500). -/
def heartbeat (q : Fin 2) (stray : List (Fin 8192 × Word)) (s : State) : State :=
  let x := sqOf s q
  if x.state == .reset || x.state == .failed || x.halted || x.lockup != 0 then s
  else
    let s := advanceTo s (x.hbAt + us 10)
    let act := s.seq.granted && s.seq.active == q
    let s := modSq s q fun x => { x with region := regionWrite x.region stray, hbAt := s.ct, hbLost := false
                                         hbPin := if s.seq.ext && !x.mismatch then !x.hbPin else x.hbPin }
    let s := if act then closeMsn s q else s
    let s := modSq s q fun x => { x with hbMsn := x.msn, hbDig := x.dig, hbActive := act }
    if s.seq.thmOk && s.seq.granted && !act && (x.state == .standby || x.state == .syncing) then compareDigest s q else s

def execHeartbeat (q : Fin 2) (stray : List (Fin 8192 × Word)) (s : State) : Host.Outcome State Fault Refusal :=
  .next (heartbeat q stray s)

/-- HEARTBEAT_LOSS: 1200 cycles of the thimble's 40 MHz, 30 us, pass without a heartbeat: the active loses the grant with code 1, a
standby goes to repair; in external-thimble mode no grant changes (R484, R487, R500). -/
def heartbeatLoss (q : Fin 2) (s : State) : State :=
  let x := sqOf s q
  if !s.seq.thmOk || x.state == .reset || x.state == .failed then s
  else
    let s := advanceTo s (x.hbAt + us 30)
    if s.seq.granted && s.seq.active == q then
      if s.seq.ext then modSq s q fun x => { x with hbLost := true } else revoke s 1
    else if x.state == .standby || x.state == .syncing then dropSq s q
    else s

def execHeartbeatLoss (q : Fin 2) (s : State) : Host.Outcome State Fault Refusal := .next (heartbeatLoss q s)

def lockCode : LockReason → Nat
  | .memoryError => 1 | .doubleFault => 2 | .fetchError => 3 | .noRetirement => 4

/-- LOCKUP: a sequencer's lock-up signal rises (R485, R487, R585). -/
def lockupSq (q : Fin 2) (code : Nat) (s : State) : State :=
  let x := sqOf s q
  if x.state == .reset || x.state == .failed then s
  else
    let s := modSq s q fun x => { x with lockup := code }
    if !s.seq.thmOk then s
    else if s.seq.granted && s.seq.active == q then (if s.seq.ext then s else revoke s 3)
    else if x.state == .standby || x.state == .syncing then dropSq s q
    else s

def execLockup (q : Fin 2) (why : LockReason) (s : State) : Host.Outcome State Fault Refusal := .next (lockupSq q (lockCode why) s)

/-- MIRROR_RECORD_RECEIVE: a change of the active's region reaches the follower, which applies it when its CRC passes (R481). -/
def execMirrorRecordReceive (words : List (Fin 8192 × Word)) (crcOk : Bool) (s : State) : Host.Outcome State Fault Refusal :=
  let a := s.seq.active
  .next (if s.seq.granted && !(sqOf s a).halted && (sqOf s a).lockup == 0 then
    let s := modSq s a fun x => { x with region := regionWrite x.region words }
    modSq s (otherSq a) fun x =>
      if x.state == .standby || x.state == .syncing then
        if crcOk && !x.stuck then { x with region := regionWrite x.region words } else { x with stuck := true }
      else x
  else s)

/-- MIRROR_ACK_TIMEOUT: no acknowledgement within 2 us: the standby leaves SYNCED and is resynchronised (R481). -/
def execMirrorAckTimeout (s : State) : Host.Outcome State Fault Refusal :=
  let q := otherSq s.seq.active
  .next (if s.seq.granted && ((sqOf s q).state == .standby || (sqOf s q).state == .syncing) then
    loseSync (advance s (us 2)) q 2
  else s)

/-! ## Repair and start (R488, R496, R497, R576) -/

/-- SEQ_RESET_RELEASE: after 1 us in RESET the sequencer is released into SELFTEST (R496). -/
def execSeqResetRelease (q : Fin 2) (s : State) : Host.Outcome State Fault Refusal :=
  let x := sqOf s q
  .next (if x.state == .reset && s.glb.bootState == .done then enterState (advanceTo s (x.since + us 1)) q .selftest else s)

/-- SEQ_SELFTEST_DONE: self-test ends in LOADING or FAILED; when none is left for the first grant the boot ends FAILED with REASON 8
(R488, R497, R576). -/
def seqSelftestDone (q : Fin 2) (pass : Bool) (s : State) : State :=
  if (sqOf s q).state != .selftest then s
  else if pass then enterState s q .loading
  else
    let s := modSq s q fun x => { x with testFails := satAdd 255 x.testFails 1 }
    let s := endRepair (enterCode s q .failed 8) q false
    let o := otherSq q
    if s.fw.granted then s
    else if (sqOf s o).state == .failed then
      let s := { s with glb := { s.glb with bootState := .failed, bootReason := 8 } }
      raise s 8 s.glb.bootSource 2 s.glb.fwVersion (w32 (bits (w32 (leNat (memRead s.sram (fwShared + 0xC) 4))) 5 0)) 8
    else if q == 0 && (sqOf s o).state == .syncing && !s.seq.ext then firstGrant s o
    else s

def execSeqSelftestDone (q : Fin 2) (pass : Bool) (s : State) : Host.Outcome State Fault Refusal := .next (seqSelftestDone q pass s)

/-- THM_GNT selects this sequencer (R500). -/
def gntSelects (s : State) (q : Fin 2) : Bool := (if s.seq.gnt then 1 else 0) == q.val

/-- A grant that ends a headless period starts cold (R498). -/
def coldGrant (s : State) (q : Fin 2) : State :=
  let s := grant s q true
  setFault (raise s 199 0 1 s.seq.epoch) fltHeadless false

/-- With no grant standing, a sequencer that has loaded and waits takes it: SQA first, in external-thimble mode the selected one
(R498, R500, R576) [A 108]. -/
def grantLoaded (s : State) : State :=
  let may (q : Fin 2) : Bool := (sqOf s q).state == .syncing && (!s.seq.ext || gntSelects s q)
  let give (q : Fin 2) : State := if s.fw.granted then coldGrant s q else firstGrant s q
  if s.seq.granted || !s.seq.thmOk then s
  else if may 0 then give 0
  else if may 1 && (s.fw.granted || s.seq.ext || (sqOf s 0).state == .failed) then give 1
  else s

/-- SEQ_LOADING_DONE: the firmware is loaded: the first grant, a cold grant that ends a headless period, or resynchronisation
(R488, R498, R576). -/
def seqLoadingDone (q : Fin 2) (s : State) : State :=
  if (sqOf s q).state != .loading then s
  else if !s.fw.granted then
    let take := s.seq.thmOk &&
      (if s.seq.ext then gntSelects s q else q == 0 || (sqOf s 0).state == .failed)
    if take then firstGrant s q else enterState s q .syncing
  else if s.seq.headless && s.seq.thmOk && (!s.seq.ext || gntSelects s q) then
    coldGrant s q
  else
    let s := enterState s q .syncing
    if s.seq.granted then resync s q else s

def execSeqLoadingDone (q : Fin 2) (s : State) : Host.Outcome State Fault Refusal := .next (seqLoadingDone q s)

/-- SEQUENCER_HALT: a debugger at level 2 halts a sequencer, which then retires nothing (R578, R579). -/
def execSequencerHalt (q : Fin 2) (s : State) : Host.Outcome State Fault Refusal :=
  .next (if s.glb.dbgLevel == 2 || !Config.locked then modSq s q fun x => { x with halted := true } else s)

/-! ## Takeover (R489-R493, R498) -/

/-- Replies of a pair posted in production order until one cannot be; how many were posted. -/
def postAll (s : State) (p : Fin 4) : Nat → State × Nat
  | 0 => (s, 0)
  | k + 1 =>
    let n := (vget s.cmd.pairs p).staged.length
    let s' := postReply s p
    if (vget s'.cmd.pairs p).staged.length < n then
      let (t, m) := postAll s' p k
      (t, m + 1)
    else (s', 0)

/-- A PTP exchange in progress is discarded and counted (R470, R483). -/
def dropExchange (s : State) (e : Fin 2) : State :=
  let p := vget s.eth e
  let s := match p.syncWait with
    | some w => discardSync (modEth s e fun p => { p with syncWait := none }) e 2 w.seq
    | none => s
  if p.delayOut.isSome || p.pdelayOut.isSome then
    modEthQ (modEth s e fun p => { p with delayOut := none, pdelayOut := none, pdelayWait := none }) e fun q =>
      { q with abandoned := q.abandoned + 1 }
  else s

/-- The commands a switch-over abandons: TIM.SEND_MSG, HLK.LOOPBACK, SEQ.REPAIR (R492). -/
def switchAbandons (op : Nat) : Bool := op == 0x0904 || op == opLoopback || op == 0x0D03

/-- No loopback answers its command any more: the takeover has abandoned it (R109, R492). -/
def orphanLoops (s : State) : State :=
  { s with hlk := { s.hlk with ports := s.hlk.ports.map fun h => { h with
    lanes := h.lanes.map fun x => { x with loop := x.loop.map fun r => { r with dead := true } } } } }

/-- After a cold start no work of the blocks answers a command from before it: the work goes on and its end is silent (R109, R498). -/
def orphanAll (s : State) : State :=
  let bare (j : CommitJob) : CommitJob := { j with cmd := none }
  { s with
    cmd := { s.cmd with cancels := [], ended := [] }
    pdp := { s.pdp with job := s.pdp.job.map fun j => { j with dead := true }, waits := [] }
    nhd := { s.nhd with
      gates := s.nhd.gates.map fun g => { g with run := g.run.map fun r => { r with dead := true } }
      run := s.nhd.run.map fun r => { r with dead := true }
      writes := s.nhd.writes.map bare, hem := s.nhd.hem.map bare
      load := s.nhd.load.map fun x => (none, x.2), read := s.nhd.read.map fun x => (none, x.2) }
    hlk := { s.hlk with ports := s.hlk.ports.map fun h => { h with identCmd := none, sleepCmds := [] } }
    cam := { s.cam with ctxs := s.cam.ctxs.map fun x => { x with waits := x.waits.map fun w => { w with dead := true } } }
    mot := { s.mot with axes := s.mot.axes.map fun x => { x with cmd := none, waits := [], ends := [] } }
    cal := { s.cal with cmds := [] }
    drcx := { s.drcx with
      resetCmd := s.drcx.resetCmd.map fun x => (none, x.2), retrainCmd := s.drcx.retrainCmd.map fun _ => none } }

/-- Every command of a pair that the takeover abandons is ABANDONED with DETAIL SWITCH_OVER; how many. -/
def abandonTags (s : State) (p : Fin 4) (all : Bool) : State × Nat :=
  let tags := ((vget s.cmd.pairs p).outs.filter fun o => all || (o.started && switchAbandons o.op.toNat)).map (·.pkt.tag)
  (tags.foldl (fun s t => finishTag s p t stAbandoned 0x0006) s, tags.length)

/-- The MGMT transactions in flight on a port are sent again with their TIDs; a cold start has lost the transfers they belong to
(R483, R498). -/
def resendMgmt (cold : Bool) (s : State) (p : Fin 16) : State :=
  let s := if cold then modHport s p fun h => { h with mgmt := [] } else s
  let s := (hport s p).identOut.foldl (fun s r => sendFrame s p { body := .mgmt r.1 false r.2.1 r.2.2 [] }) s
  (hport s p).mgmt.foldl (fun s m => match m.out with
    | some (tid, n, _) =>
      let data := if m.write then memRead s.dram (m.dram + m.done) n else []
      sendFrame (modMgmt s p m fun m => { m with out := some (tid, n, s.ct) }) p { body := .mgmt tid m.write (m.addr + m.done) n data }
    | none => s) s

/-- A cold start puts the servo of a SLAVE in ACQUIRING with nothing of its mirrored state left (R498) [A 79]. -/
def coldServo (s : State) (e : Fin 2) : State :=
  if (vget s.eth e).ptp.role == .slave then restartInst (setServo s e .acquiring (vget s.ethq e).servoOfs) e else s

/-- TAKEOVER_DONE: the new active posts the staged replies, ends or resumes each tag and resumes its work; a cold start abandons every
tag and puts servos in ACQUIRING; every block sees the new epoch (R491-R493, R498). -/
def takeoverDone (s : State) : State :=
  match s.seq.takeover with
  | none => s
  | some (t0, cold) =>
    let a := s.seq.active
    if !s.seq.granted || (sqOf s a).halted || (sqOf s a).lockup != 0 then s
    else
      let s := { s with seq := { s.seq with takeover := none } }
      let (s, posted) := (indices 4).foldl (fun x p =>
        let (t, k) := postAll x.1 p (vget x.1.cmd.pairs p).staged.length
        (t, x.2 + k)) (s, 0)
      let s := orphanLoops (if cold then orphanAll s else replayEnds s)
      let (s, gone) := (indices 4).foldl (fun x p =>
        let (t, k) := abandonTags x.1 p cold
        (t, x.2 + k)) (s, 0)
      let s := (indices 2).foldl (fun s q => modSq s q fun x => { x with repair := none }) s
      let resumed := ((indices 4).map fun p => (vget s.cmd.pairs p).outs.length).sum
      let s := (indices 2).foldl (fun s e => serveRecv (vget s.ethq e).rxq.length e s) s
      let s := (indices 2).foldl dropExchange s
      let s := if cold then (indices 2).foldl coldServo { s with seq := { s.seq with swapCmd := none, swapRan := false } } else s
      let s := (indices 16).foldl (resendMgmt cold) s
      let s := { s with ep := s.ep.map fun (e : EpochReg) => { e with epoch := s.seq.epoch } }
      let s := if s.seq.swapRan then
          match s.seq.swapCmd with
          | some (p, tag) =>
            finishTag { s with seq := { s.seq with swapCmd := none, swapRan := false } } p tag stOk 0 [s.seq.epoch]
          | none => { s with seq := { s.seq with swapRan := false } }
        else s
      raise s 194 a.val 0 (w32 resumed) (w32 gone) (w32 posted) (w32 (s.ct - t0))

def execTakeoverDone (s : State) : Host.Outcome State Fault Refusal := .next (takeoverDone s)

/-! ## Planned swaps and the external thimble (R494, R495, R500, R502, R503) -/

/-- A command that a swap would abandon is outstanding (R494). -/
def swapBlocked (s : State) : Bool :=
  s.cmd.pairs.any fun p => p.outs.any fun o => switchAbandons o.op.toNat

/-- A swap is put off for 1 s (R494) [A 18]. -/
def deferSwap (s : State) : State :=
  raise { s with seq := { s.seq with swapRetry := some (s.ct + sec 1) } } 195 s.seq.active.val 1 0

/-- A swap is tried: deferred for 1 s, or done; a standby whose digest differs makes it a revocation with code 2, after which no standby
is SYNCED and the swap is deferred (R494, R495). A standby that has not acknowledged every record is not ready for one. -/
def trySwap (s : State) : State :=
  let q := s.seq.active
  let o := otherSq q
  if !synced s o || (sqOf s o).stuck || swapBlocked s then deferSwap s
  else
    let da := regionDigest (sqOf s q).region
    let ds := regionDigest (sqOf s o).region
    if da != ds then deferSwap (digestMismatch s (sqOf s q).msn da ds)
    else
      let s := modSq s q fun x => { x with msn := x.msn + 1 }
      let s := modSq s o fun x => { x with msn := (sqOf s q).msn }
      let s := revoke s 4
      let s := { s with seq := { s.seq with
        swaps := satAdd 255 s.seq.swaps 1, swapFrom := s.ct, swapRetry := none, swapRan := s.seq.swapCmd.isSome } }
      raise s 195 o.val 0 s.seq.epoch

/-- The thimble can swap: it runs, a grant stands, and the mode is not external. -/
def canSwap (s : State) : Bool := s.seq.thmOk && s.seq.granted && !s.seq.ext && s.seq.takeover.isNone

/-- PLANNED_SWAP: SWAP_INTERVAL seconds after the last completed swap (R494). -/
def execPlannedSwap (s : State) : Host.Outcome State Fault Refusal :=
  .next (if canSwap s && s.seq.swapInterval > 0 && s.seq.swapRetry.isNone then
    trySwap (advanceTo s (s.seq.swapFrom + sec s.seq.swapInterval))
  else s)

/-- SWAP_DEFER_RETRY: a deferred swap is tried again after 1 s (R494). -/
def execSwapDeferRetry (s : State) : Host.Outcome State Fault Refusal :=
  .next (match s.seq.swapRetry with
    | some t => if canSwap s then trySwap (advanceTo s t) else s
    | none => s)

/-- THM_GNT_CHANGE: in external-thimble mode the level selects the sequencer that holds the grant (R500, R576). -/
def thmGntChange (high : Bool) (s : State) : State :=
  let s := { s with seq := { s.seq with gnt := high } }
  let sel : Fin 2 := if high then 1 else 0
  if !s.seq.ext || !s.seq.thmOk then s
  else if !s.seq.granted then grantLoaded s
  else if sel == s.seq.active then { s with seq := { s.seq with gntWait := false } }
  else
    let a := sqOf s s.seq.active
    if synced s sel || a.hbLost || a.lockup != 0 then revoke s 5
    else
      let s := raise s 200 sel.val 0 (w32 (seqCode (sqOf s sel).state))
      { s with seq := { s.seq with gntWait := true } }

def execThmGntChange (high : Bool) (s : State) : Host.Outcome State Fault Refusal := .next (thmGntChange high s)

/-- SEQ DETAILs (R503). -/
def dNoStandby : Nat := 0x1001
def dExtMode : Nat := 0x1002
def dNotFailed : Nat := 0x1003

def seqSetSwapSpec : CmdSpec := fixedSpec 0x0D01 [0x1FFFF] (priv := true)

/-- SEQ.SET_SWAP; 0 also calls off a planned swap that was put off (R494, R502, R503). -/
def seqSetSwap (c : Cmd) (s : State) : CmdRes :=
  let n := bits (pw c 0) 16 0
  firstFail s [chkS s.seq.ext dExtMode, chkW (n > 86400) 0] 
    (.ok { s with seq := { s.seq with
      swapInterval := n, swapRetry := if n = 0 && s.seq.swapCmd.isNone then none else s.seq.swapRetry } })

def execSeqSetSwap (c : Cmd) (s : State) : Host.Outcome State Fault Refusal := .next (runCmd s seqSetSwapSpec c (seqSetSwap c))

def seqSwapSpec : CmdSpec := fixedSpec 0x0D02 [] (async := true) (priv := true)

/-- SEQ.SWAP requests a swap at once; its reply comes from the new active (R494, R503). -/
def seqSwap (c : Cmd) (s : State) : CmdRes :=
  firstFail s
    [chkS (!synced s (otherSq s.seq.active)) dNoStandby, chkS s.seq.ext dExtMode, (s.seq.swapCmd.isSome, stBusy, 0)]
    (.started (trySwap { s with seq := { s.seq with swapCmd := some (c.pair, c.tag) } }))

def execSeqSwap (c : Cmd) (s : State) : Host.Outcome State Fault Refusal := .next (runCmd s seqSwapSpec c (seqSwap c))

def seqRepairSpec : CmdSpec := fixedSpec 0x0D03 [0x1] (async := true) (priv := true)

/-- SEQ.REPAIR of a FAILED sequencer (R488, R503). -/
def seqRepair (c : Cmd) (s : State) : CmdRes :=
  let q : Fin 2 := ⟨bits (pw c 0) 0 0, Nat.mod_lt _ (by decide)⟩
  firstFail s [chkS ((sqOf s q).state != .failed) dNotFailed]
    (.started (modSq (enterState s q .reset) q fun x => { x with repair := some (c.pair, c.tag) }))

def execSeqRepair (c : Cmd) (s : State) : Host.Outcome State Fault Refusal := .next (runCmd s seqRepairSpec c (seqRepair c))

end Sys2Proof.Machine
end

