-- ==== Sys2Proof/Machine/Sys.lean ====
section
/-! DEFINITION. The SYS group: versions, barrier, cancel (R94-R96, R107-R115). -/

namespace Sys2Proof.Machine

open Sys2Proof

/-! ## SYS.HELLO and SYS.NOP -/

/-- Command-set versions of the part (R111). -/
def cmdVersions : List Nat := [0x0300, 0x0301, 0x0302]

/-- The version list: format, version, in force (R111, R115). -/
def versionList (s : State) : List Word :=
  let entry (fmt : Nat) (inForce : Bool) (v : Nat) : Word := pack [(v, 0), (b2n inForce, 16), (fmt, 24)]
  let xs := cmdVersions.map (fun v => entry 1 (s.cmd.cmdVer.toNat == v) v) ++ [entry 2 (s.cmd.evtVer == 0x0100) 0x0100, entry 3 false 0x0100,
    entry 4 false 0x0100] ++ rlVersions.map (entry 5 false) ++ [entry 6 false 0x0100]
  w32 xs.length :: xs

/-- SYS.HELLO: a selection needs pair 0 (R107). -/
def sysHelloSpec : CmdSpec := { fixedSpec 0x0101 [all32] with priv := fun _ ws => ws.getD 0 0 != 0 }

/-- Queries, or selects both versions until chip reset (R112, R113, R126). -/
def sysHello (c : Cmd) (s : State) : CmdRes :=
  let cv := bits (pw c 0) 15 0
  let ev := bits (pw c 0) 31 16
  if cv = 0 && ev = 0 then .ok s (versionList s)
  else firstFail s [chkW (cv = 0 || ev = 0) 0, (!cmdVersions.contains cv, stVersion, 1), (ev != 0x0100, stVersion, 2),
      chkS (s.cmd.cmdVer != 0 && (s.cmd.cmdVer.toNat != cv || s.cmd.evtVer.toNat != ev)) 0x0005]
    (if s.cmd.cmdVer != 0 then .ok s (versionList s)
     else
      let s := { s with cmd := { s.cmd with cmdVer := BitVec.ofNat 16 cv, evtVer := BitVec.ofNat 16 ev } }
      .ok (raise s 5 0 0 (pack [(cv, 0), (ev, 16)])) (versionList s))

def execSysHello (c : Cmd) (s : State) : Host.Outcome State Fault Refusal := .next (runCmd s sysHelloSpec c (sysHello c))

def sysNopSpec : CmdSpec := fixedSpec 0x0102 []

def execSysNop (c : Cmd) (s : State) : Host.Outcome State Fault Refusal := .next (runCmd s sysNopSpec c fun s => .ok s)

/-! ## SYS.CANCEL -/

/-- SYS.CANCEL: naming another pair needs pair 0 (R107). -/
def sysCancelSpec : CmdSpec := { fixedSpec 0x0103 [0x3FFFF] with priv := fun p ws => bits (ws.getD 0 0) 17 16 != p.val }

/-- The items of a commit taken back return to the staged list, before what has been staged since; where both do not fit, they are dropped
[A 57]. -/
def unstage (s : State) (j : CommitJob) : State :=
  let newer (i : Staged) : Bool := match i with
    | .entry n _ => s.nhd.staged.any (isEntryOf n)
    | .range _ _ _ => false
  let all := j.items.filter (!newer ·) ++ s.nhd.staged
  let ranges := all.countP fun x => match x with
    | .range _ _ _ => true
    | .entry _ _ => false
  modNhd s fun n => { n with
    staged := if all.length - ranges ≤ 4096 && ranges ≤ 64 then all else n.staged
    stagedKernels := j.kernels.filter (fun k => !n.stagedKernels.any (·.1 == k.1)) ++ n.stagedKernels }

/-- NHD.COMMIT_MAP and NHD.LOAD_MAP leave nothing partial until their write begins: a copy, a commit behind another one's write and one that
waits for its hem end at once; a write under way goes on (R96, R263, R265). -/
def cancelCommit (s : State) (p : Fin 4) (tag : BitVec 16) : State :=
  let mine (j : CommitJob) : Bool := j.cmd == some (p, tag) && (j.source == .host || j.source == .load)
  if s.nhd.load.any (·.1 == some (p, tag)) then finishTag (modNhd s fun n => { n with load := none }) p tag stAbandoned 0
  else if s.nhd.hem.any mine then
    finishTag ((s.nhd.hem.toList).foldl unstage (modNhd s fun n => { n with hem := none })) p tag stAbandoned 0
  else
    let behind := s.nhd.writes.drop 1
    if behind.any mine then
      finishTag ((behind.filter mine).foldl unstage (modNhd s fun n => { n with writes := n.writes.take 1 ++ behind.filter (!mine ·) }))
        p tag stAbandoned 0
    else s

/-- NHD.READ_MAP changes nothing of the map: it ends at once (R96). -/
def cancelRead (s : State) (p : Fin 4) (tag : BitVec 16) : State :=
  if s.nhd.read.any (·.1 == some (p, tag)) then finishTag (modNhd s fun n => { n with read := none }) p tag stAbandoned 0 else s

/-- A swatch is ended before its first line is computed; later it prints and is analysed (R293). -/
def cancelSwatch (s : State) (p : Fin 4) (tag : BitVec 16) : State :=
  match s.nhd.run with
  | some r =>
    if r.pair == p && r.tag == tag && !r.dead && !r.begun then finishTag (modNhd s fun n => { n with run := none }) p tag stAbandoned 0 else s
  | none => s

/-- A gate run stops at the next nozzle boundary (R284); whether the target ends so. -/
def cancelGate (s : State) (p : Fin 4) (tag : BitVec 16) : State × Bool :=
  let mine (g : Fin 2) : Bool := (gateOf s g).run.any fun r => r.pair == p && r.tag == tag && !r.dead && r.stop.isNone
  ((indices 2).foldl (fun s g => if mine g then modGateRun s g fun r => { r with stop := some false } else s) s, (indices 2).any mine)

/-- A transfer of head memory stops at the next transaction boundary (R364). -/
def cancelMgmt (s : State) (p : Fin 4) (tag : BitVec 16) : State × Bool :=
  let mine (m : Mgmt) : Bool := m.pair == p && m.tag == tag
  ((indices 16).foldl (fun s q => if (hport s q).mgmt.any mine then
      pumpMgmt (modHport s q fun h => { h with mgmt := h.mgmt.map fun m => if mine m then { m with cancel := true } else m }) q else s) s,
    (indices 16).any fun q => (hport s q).mgmt.any mine)

/-- A loopback ends at once (R326). -/
def cancelLoop (s : State) (p : Fin 4) (tag : BitVec 16) : State :=
  (indices 16).foldl (fun s q => (indices 2).foldl (fun s l =>
    if (laneOfPort s q l).loop.any fun x => x.pair == p && x.tag == tag && !x.dead then finishTag (endLoop s q l) p tag stAbandoned 0 else s) s) s

/-- A CAL.RUN ends at the next group boundary: at once while no group runs (R560). -/
def cancelCal (s : State) (p : Fin 4) (tag : BitVec 16) : State :=
  let s := modCalCmds s fun c => if c.pair == p && c.tag == tag then { c with cancel := true } else c
  if s.cal.groups.toList.any (·.running.isSome) then s else calCancelled s

/-- A started motion command is stopped: some axis holds the reply it gets at rest (R419). -/
def motEnding (s : State) (p : Fin 4) (tag : BitVec 16) : Bool :=
  s.mot.axes.toList.any fun x => x.ends.any fun e => e.pair == p && e.tag == tag && e.status == stAbandoned

/-- What a cancel does to a started asynchronous target by its operation, and whether the target ends by it later (R96, R166, R169, R284, R293,
R326, R364, R407, R417, R419, R464, R503, R560). -/
def cancelStarted (s : State) (p : Fin 4) (tag : BitVec 16) (op : Nat) : State × Bool :=
  match op with
  | 0x0205 => (finishTag { s with pdp := { s.pdp with waits := s.pdp.waits.filter fun w => !(w.1 == p && w.2.1 == tag) } } p tag stAbandoned 0, false)
  | 0x0301 | 0x0302 | 0x0303 | 0x0304 | 0x0305 | 0x0306 | 0x0307 =>
    (if s.pdp.job.any fun j => j.pair == p && j.tag == tag && !j.dead && !j.copying then
      finishTag { s with pdp := { s.pdp with job := none } } p tag stAbandoned 0 else s, false)
  | 0x0503 | 0x0505 => (cancelCommit s p tag, false)
  | 0x0506 => (cancelRead s p tag, false)
  | 0x050A => cancelGate s p tag
  | 0x050C => (cancelSwatch s p tag, false)
  | 0x0604 => (cancelLoop s p tag, false)
  | 0x0611 | 0x0612 => cancelMgmt s p tag
  | 0x070B => (camCancel s p tag, false)
  | 0x0806 | 0x0807 | 0x0809 =>
    let s := motCancel s p tag
    (s, motEnding s p tag)
  | 0x0905 => (finishTag s p tag stAbandoned 0, false)
  | 0x0C02 => (cancelCal s p tag, true)
  | 0x0D02 =>
    let due := s.seq.swapInterval > 0 && s.ct ≥ s.seq.swapFrom + sec s.seq.swapInterval
    (if s.seq.swapCmd == some (p, tag) && !s.seq.swapRan then
      finishTag { s with seq := { s.seq with swapCmd := none, swapRetry := if due then s.seq.swapRetry else none } } p tag stAbandoned 0
     else s, false)
  | _ => (s, false)

/-- SYS.CANCEL: outcome 2 without such a command, 0 once the target has its reply ABANDONED, 1 when it runs to its own end; a target that ends
at its next boundary is waited for (R96). -/
def sysCancel (c : Cmd) (s : State) : CmdRes :=
  let tag : BitVec 16 := (pw c 0).setWidth 16
  let p : Fin 4 := ⟨bits (pw c 0) 17 16, Nat.mod_lt _ (by decide)⟩
  match findTag s p tag with
  | none => .ok s [2]
  | some o =>
    if !o.started then .ok (finishTag s p tag stAbandoned 0) [0]
    else if !o.async then .ok s [1]
    else
      let (s, ending) := cancelStarted s p tag o.op.toNat
      if (findTag s p tag).isNone then .ok s [0]
      else if ending then
        .started { s with cmd := { s.cmd with cancels := s.cmd.cancels ++ [{ pair := c.pair, tag := c.tag, target := p, targetTag := tag }] } }
      else .ok s [1]

def execSysCancel (c : Cmd) (s : State) : Host.Outcome State Fault Refusal := .next (runCmd s sysCancelSpec c (sysCancel c))

end Sys2Proof.Machine
end

