-- ==== Sys2Proof/Machine/Fetch.lean ====
section
/-! DEFINITION. The interpreter's fetch: framing, the checks of R612, and what makes a command outstanding (R66, R89-R92, R100-R102). -/

namespace Sys2Proof.Machine

open Sys2Proof

/-! ## Every operation of R93 -/

def sysSpecs : List CmdSpec := [sysHelloSpec, sysNopSpec, sysCancelSpec]
def jobSpecs : List CmdSpec := [jobOpenPanelSpec, jobReadySpec, jobHemSpec, jobAbortSpec, jobWaitHemSpec]
def pdpSpecs : List CmdSpec := [pdpLoadCurvesSpec, pdpLoadGlobalCurveSpec, pdpLoadScreenSpec, pdpLoadSeamMaskSpec, pdpSetLevelMapSpec, pdpSetSelvedgeSpec, pdpSetSeamSpec]
def firSpecs : List CmdSpec := [firSetFeedSpec, firSetRowsSpec, firSetOverspeedSpec, firClearFaultSpec]
def nhdSpecs : List CmdSpec := [nhdSetGateSpec, nhdGateRunSpec, setSwatchSpec, nhdPrintSwatchSpec, nhdCommitMapSpec, setNozzlesSpec, nhdSetRangeSpec, nhdDiscardStagedSpec, nhdSetKernelSpec, nhdSetPolicySpec, nhdLoadMapSpec, nhdReadMapSpec]
def hlkSpecs : List CmdSpec := [hlkMgmtReadSpec, hlkMgmtWriteSpec, hlkSetTimersSpec, hlkIdentifySpec, hlkSleepSpec, hlkLoopbackSpec, hlkSetPortSpec, hlkRethreadSpec]
def camSpecs : List CmdSpec := [camSetInputSpec, camSetMapSpec, camSetContextSpec, camSetSensorSpec, camSetMatrixSpec, camLoadToneSpec, camSetDefectsSpec, setOutputSpec, camSetGeometrySpec, camSetFlatfieldSpec, camCommitSpec, camSetStatsSpec, camSetRateSpec]
def motSpecs : List CmdSpec := [motSetAxisSpec, motSetLimitsSpec, motSetBandsSpec, motSetInputsSpec, motEnableSpec, motMoveToSpec, motSetVelocitySpec, motStopSpec, motHomeSpec, motSetPositionSpec, motClearSpec]
def timSpecs : List CmdSpec := [timSetPortSpec, timSetPtpSpec, timSendMsgSpec, timRecvMsgSpec, timSetTbSpec]
def hkpSpecs : List CmdSpec := [hkpSetChannelSpec, hkpSetThreshSpec, hkpSetHeadSpec, hkpSetThrottleSpec, hkpClearSpec]
def lgtSpecs : List CmdSpec := [lgtSetSinkSpec, lgtSetPwmSpec, lgtSetChainSpec]
def calSpecs : List CmdSpec := [calSetSpec, calRunSpec]
def seqSpecs : List CmdSpec := [seqSetSwapSpec, seqSwapSpec, seqRepairSpec]
def drcSpecs : List CmdSpec := [drcResetSpec, drcRetrainSpec, drcSetRefreshSpec, drcSetQosSpec, drcInjectSpec]

/-- Every operation of the part (R93, R94). -/
def allSpecs : List CmdSpec :=
  sysSpecs ++ jobSpecs ++ pdpSpecs ++ firSpecs ++ nhdSpecs ++ hlkSpecs ++ camSpecs ++ motSpecs ++ timSpecs ++ hkpSpecs ++ lgtSpecs ++ calSpecs ++ seqSpecs ++ drcSpecs

/-- The operation of an opcode. -/
def specOf (op : Nat) : Option CmdSpec := allSpecs.find? fun x => x.op == op

/-! ## COMMAND_FETCH -/

/-- The packet whose bytes start a command bobbin's ring, with its opcode (R89). -/
def packetOf (p : Fin 4) (bs : List Byte) (len : Nat) : Nat × Cmd :=
  let ws := bytesWords (bs.take (4 * len))
  let w (i : Nat) : Word := ws.getD i 0
  (bits (w 0) 15 0, { pair := p, tag := (w 0 >>> 16).setWidth 16, flags := (w 1 >>> 16).setWidth 16, version := (w 2).setWidth 16
                      rsvHi := (w 2 >>> 16).setWidth 16, rsvWord := w 3, words := ws.drop 4 })

/-- A framing error: reply, STOPPED, EV_SYS_CMD_FRAMING; the head stays on the packet (R91). -/
def framingError (s : State) (p : Fin 4) (tag op : BitVec 16) (head len : Nat) : State :=
  let s := stageReply s p tag op stBadLength 0x0002 [] false
  raise (modPair s p fun q => { q with stopped := true }) 4 p.val 0 (w32 head) (w32 len)

/-- The packet at the head of a pair's command bobbin is read, checked for framing, consumed whole and checked; a sound one is outstanding and
starts with its own command (R90-R92, R100, R612). A failed read halts the bobbin (R80). -/
def commandFetch (p : Fin 4) (s : State) : State :=
  let n := cmdBob p
  let r := vget s.bob.rings n
  let used := ringUsed r
  if !mayFetch s p || !ringLive r || used = 0 then s
  else if accessHeld s r.space then hold s (.command p)
  else match ringErr s r r.head 1 true with
    | some (e, a) => haltBob s n e false r.space a true
    | none =>
      let h := ringRead s r r.head 1
      let (op, c) := packetOf p h 8
      let len := leNat ((h.drop 4).take 2)
      let k := ceilDiv (4 * len) 32
      if len < 4 || len > 2048 || k > 2 ^ r.log2n then framingError s p c.tag (BitVec.ofNat 16 op) r.head len
      else if used < k then s
      else match ringErr s r r.head k true with
        | some (e, a) => haltBob s n e false r.space a true
        | none =>
          let (_, c) := packetOf p (ringRead s r r.head k) len
          let s := modRing s n fun r => { r with head := idxAdd r r.head k, wbDue := true }
          match fetchCheck s (specOf op) op c with
          | some (st, det) => stageReply s p c.tag (BitVec.ofNat 16 op) st det [] false
          | none => addOut s op c

def execCommandFetch (p : Fin 4) (s : State) : Host.Outcome State Fault Refusal := .next (commandFetch p s)

end Sys2Proof.Machine
end

