-- ==== Sys2Proof/Machine/DrcServe.lean ====
section
/-! DEFINITION. The order in which the DRC serves the requests that waited, and the ends of bring-up and retraining, which release them
(R26, R50, R510, R512, R514, R520, R522). -/

namespace Sys2Proof.Machine

open Sys2Proof

/-- The port of a request: a real-time port, or a class of best-effort ports (R522). -/
inductive DramPort where
  | realTime (p : Fin 3) | bestEffort (k : Fin 4)
  deriving DecidableEq, Repr

/-- DMA and EBC engines, host BAR2, tables and sequencers, the scrubber. Ring accesses of the interpreter and of EVT, index write-backs, what
commands read, head-memory transfers and the nozzle map count with the sequencers [A 95]. -/
def dramPortOf : DramReq → DramPort
  | .descriptor _ => .bestEffort 0
  | .burst _ => .bestEffort 0
  | .status _ => .bestEffort 0
  | .bar2Read _ _ => .bestEffort 1
  | .bar2Write _ _ => .bestEffort 1
  | .doorbell _ _ => .bestEffort 1
  | .command _ => .bestEffort 2
  | .reply _ => .bestEffort 2
  | .event _ => .bestEffort 2
  | .writeBack _ => .bestEffort 2
  | .put none _ _ => .bestEffort 2
  | .put (some p) _ _ => .realTime p
  | .openPanel _ => .bestEffort 2
  | .loadTone _ => .bestEffort 2
  | .setDefects _ => .bestEffort 2
  | .mgmt _ => .bestEffort 2
  | .table => .bestEffort 2
  | .mapLoad => .bestEffort 2
  | .mapRead => .bestEffort 2
  | .scrub _ => .bestEffort 3
  | .camLine => .realTime 1
  | .spill _ _ => .realTime 2

/-- Weights of the best-effort classes (R522). -/
def weight (k : Fin 4) : Nat := if k.val ≤ 1 then 4 else if k.val = 2 then 2 else 1

/-- The oldest waiting request of a port: each source is served in its order (R520). -/
def oldestOf (s : State) (p : DramPort) : Option Nat := s.drcx.waiting.findIdx? fun q => dramPortOf q == p

/-- What the DRC does next: a refresh of a rank, or a waiting request, with the best-effort turn after it. -/
inductive DramTurn where
  | refresh (rank : Fin 2)
  | serve (i : Nat) (turn : Fin 4) (given : Nat)
  deriving DecidableEq, Repr

/-- The real-time port, of those for which `f` holds, that has waited longest in panic and has a request. -/
def rtNext (s : State) (f : RtPort → Bool) : Option Nat :=
  let ps := (indices 3).filterMap fun p =>
    let x := vget s.drc.ports p
    if f x then (oldestOf s (.realTime p)).map fun i => (x.since, i) else none
  ps.foldl (fun (m : Option (Nat × Nat)) x => match m with
    | none => some x
    | some y => if x.1 < y.1 then some x else m) none |>.map (·.2)

/-- The best-effort request next in the weighted round robin. -/
def bestEffortNext (s : State) : Option (Nat × Fin 4 × Nat) :=
  let x := s.drcx
  ([(x.turn, x.given), (x.turn + 1, 0), (x.turn + 2, 0), (x.turn + 3, 0), (x.turn, 0)] : List (Fin 4 × Nat)).findSome? fun c =>
    if c.2 < weight c.1 then (oldestOf s (.bestEffort c.1)).map fun i => (i, c.1, c.2 + 1) else none

/-- The order of precedence of R522: real-time ports in panic, the longest in panic first; refresh at its limit; real-time ports not in panic;
best effort by weighted round robin. -/
def dramNext (s : State) : Option DramTurn :=
  let keep (i : Nat) : DramTurn := .serve i s.drcx.turn s.drcx.given
  match rtNext s (·.panic) with
  | some i => some (keep i)
  | none =>
    match (indices 2).find? fun r => vget s.drc.postponed r ≥ postponeLimit s.drc.mode with
    | some r => some (.refresh r)
    | none =>
      match rtNext s (!·.panic) with
      | some i => some (keep i)
      | none => (bestEffortNext s).map fun x => .serve x.1 x.2.1 x.2.2

/-- A request that waited is served. -/
def serveReq (s : State) : DramReq → State
  | .descriptor n => fetchDesc s n fun _ => true
  | .burst n => if wantsTurn s n then runTurn s n else s
  | .status n => dmaComplete n s
  | .bar2Read off len => bar2Read off len s
  | .bar2Write off bs => bar2Write off bs s
  | .doorbell n v => bobDb s n v
  | .command p => commandFetch p s
  | .reply p => if fwRuns s then postReply s p else s
  | .event k => eventStagingWrite k s
  | .writeBack n => flushWb s n
  | .put _ a bs => dramWrite s a bs
  | .table => tableCopyDone s
  | .mapLoad => mapCopyDone s
  | .mapRead => mapReadDone s
  | .scrub r => scrubNext s r
  | .camLine => pipelineLine s
  | .spill p _ => pump s p
  | .openPanel c => openPanelCmd c s
  | .loadTone c => loadToneCmd c s
  | .setDefects c => setDefectsCmd c s
  | .mgmt p => pumpMgmt s p

/-- One turn of the DRC. -/
def serveTurn (s : State) : DramTurn → State
  | .refresh r => { s with
      drc := { s.drc with postponed := vmod s.drc.postponed r (· - 1) }
      drcx := { s.drcx with refreshes := s.drcx.refreshes + 1 } }
  | .serve i turn given =>
    match s.drcx.waiting[i]? with
    | none => s
    | some q => serveReq { s with drcx := { s.drcx with waiting := s.drcx.waiting.eraseIdx i, turn := turn, given := given } } q

/-- The DRC serves what waits while it is in service; `fuel` bounds the turns. -/
def serveWaiting : Nat → State → State
  | 0, s => s
  | fuel + 1, s =>
    if s.drcx.waiting.isEmpty || !dramReady s then s
    else match dramNext s with
      | none => s
      | some t => serveWaiting fuel (serveTurn s t)

/-- The requests held until now are served: each, and the refreshes that come before them. -/
def releaseDram (s : State) : State := serveWaiting (s.drcx.waiting.length + 16) s

/-- DRAM_BRINGUP_DONE: training and ECC initialisation end in service with every byte zero, or failed; after a FAILED boot
it does not run. In service, the requests held since are served (R510, R522, R577, R581). -/
def execDramBringupDone (r : TrainResult) (s : State) : Host.Outcome State Fault Refusal :=
  .next (if s.drc.bringUp.isSome && !s.drc.frozen && s.glb.dramLock && s.glb.bootState != .failed then
    match r with
    | .pass =>
      let s := { s with
        dram := []
        drc := { s.drc with bringUp := none, training := false, ready := true, scrubbing := s.drc.scrubHours != 0 }
        drcx := { s.drcx with zqAt := Vector.replicate 4 s.ct, dqsAt := Vector.replicate 4 s.ct, tempAt := Vector.replicate 2 s.ct } }
      releaseDram (setReady (raise s 208 0 0 (drcStat s)) 2)
    | .fail step sc rank =>
      let s := { s with drc := { s.drc with
        bringUp := none, training := false, trainFail := true, failStep := step.val + 1, failSc := sc.val, failRank := rank.val } }
      setFault (raise s 208 0 3 (drcStat s)) fltDramTrain true
  else s)

/-- DRC_RETRAIN_DONE: training has been repeated on every rank, the contents are kept, the reply carries the worst margin, and the requests
held meanwhile are served (R512, R522, R531). -/
def execDrcRetrainDone (margin : Fin 64) (s : State) : Host.Outcome State Fault Refusal :=
  .next (match s.drcx.retrainCmd with
    | none => s
    | some cmd =>
      let s := { s with drcx := { s.drcx with retrainCmd := none } }
      if s.drc.frozen then finishOpt { s with drc := { s.drc with training := false } } cmd stHwFault dDrcFrozen
      else
        let s := { s with drc := { s.drc with ready := true, training := false } }
        releaseDram (finishOpt (raise s 208 0 2 (drcStat s)) cmd stOk 0 [w32 margin.val]))

end Sys2Proof.Machine
end

