-- ==== Sys2Proof/Machine/Crypto.lean ====
section
/-! DEFINITION. SHA-384 and the verification of ECDSA over P-384, which R570, R571 and R578 name: the standards' own definitions [A 7]. -/

namespace Sys2Proof.Machine

open Sys2Proof

/-! ## SHA-384 -/

/-- The eight working words of SHA-512 and SHA-384. -/
structure ShaWords where
  a : BitVec 64
  b : BitVec 64
  c : BitVec 64
  d : BitVec 64
  e : BitVec 64
  f : BitVec 64
  g : BitVec 64
  h : BitVec 64

/-- The eighty round constants: the first 64 fraction bits of the cube roots of the first eighty primes. -/
def shaK0 : List (BitVec 64) :=
  [0x428a2f98d728ae22, 0x7137449123ef65cd, 0xb5c0fbcfec4d3b2f, 0xe9b5dba58189dbbc, 0x3956c25bf348b538,
   0x59f111f1b605d019, 0x923f82a4af194f9b, 0xab1c5ed5da6d8118, 0xd807aa98a3030242, 0x12835b0145706fbe]
def shaK1 : List (BitVec 64) :=
  [0x243185be4ee4b28c, 0x550c7dc3d5ffb4e2, 0x72be5d74f27b896f, 0x80deb1fe3b1696b1, 0x9bdc06a725c71235,
   0xc19bf174cf692694, 0xe49b69c19ef14ad2, 0xefbe4786384f25e3, 0x0fc19dc68b8cd5b5, 0x240ca1cc77ac9c65]
def shaK2 : List (BitVec 64) :=
  [0x2de92c6f592b0275, 0x4a7484aa6ea6e483, 0x5cb0a9dcbd41fbd4, 0x76f988da831153b5, 0x983e5152ee66dfab,
   0xa831c66d2db43210, 0xb00327c898fb213f, 0xbf597fc7beef0ee4, 0xc6e00bf33da88fc2, 0xd5a79147930aa725]
def shaK3 : List (BitVec 64) :=
  [0x06ca6351e003826f, 0x142929670a0e6e70, 0x27b70a8546d22ffc, 0x2e1b21385c26c926, 0x4d2c6dfc5ac42aed,
   0x53380d139d95b3df, 0x650a73548baf63de, 0x766a0abb3c77b2a8, 0x81c2c92e47edaee6, 0x92722c851482353b]
def shaK4 : List (BitVec 64) :=
  [0xa2bfe8a14cf10364, 0xa81a664bbc423001, 0xc24b8b70d0f89791, 0xc76c51a30654be30, 0xd192e819d6ef5218,
   0xd69906245565a910, 0xf40e35855771202a, 0x106aa07032bbd1b8, 0x19a4c116b8d2d0c8, 0x1e376c085141ab53]
def shaK5 : List (BitVec 64) :=
  [0x2748774cdf8eeb99, 0x34b0bcb5e19b48a8, 0x391c0cb3c5c95a63, 0x4ed8aa4ae3418acb, 0x5b9cca4f7763e373,
   0x682e6ff3d6b2b8a3, 0x748f82ee5defb2fc, 0x78a5636f43172f60, 0x84c87814a1f0ab72, 0x8cc702081a6439ec]
def shaK6 : List (BitVec 64) :=
  [0x90befffa23631e28, 0xa4506cebde82bde9, 0xbef9a3f7b2c67915, 0xc67178f2e372532b, 0xca273eceea26619c,
   0xd186b8c721c0c207, 0xeada7dd6cde0eb1e, 0xf57d4f7fee6ed178, 0x06f067aa72176fba, 0x0a637dc5a2c898a6]
def shaK7 : List (BitVec 64) :=
  [0x113f9804bef90dae, 0x1b710b35131c471b, 0x28db77f523047d84, 0x32caab7b40c72493, 0x3c9ebe0a15c9bebc,
   0x431d67c49c100d4c, 0x4cc5d4becb3e42b6, 0x597f299cfc657e2a, 0x5fcb6fab3ad6faec, 0x6c44198c4a475817]
def shaK : List (BitVec 64) := shaK0 ++ shaK1 ++ shaK2 ++ shaK3 ++ shaK4 ++ shaK5 ++ shaK6 ++ shaK7

/-- SHA-384's start: the first 64 fraction bits of the square roots of the ninth to the sixteenth prime. -/
def shaStart : ShaWords :=
  { a := 0xcbbb9d5dc1059ed8, b := 0x629a292a367cd507, c := 0x9159015a3070dd17, d := 0x152fecd8f70e5939
    e := 0x67332667ffc00b31, f := 0x8eb44a8768581511, g := 0xdb0c2e0d64f98fa7, h := 0x47b5481dbefa4fa4 }

/-- The six functions of the standard: two sums and two schedule functions of one word, choice and majority of three. -/
def shaSum0 (x : BitVec 64) : BitVec 64 := x.rotateRight 28 ^^^ x.rotateRight 34 ^^^ x.rotateRight 39
def shaSum1 (x : BitVec 64) : BitVec 64 := x.rotateRight 14 ^^^ x.rotateRight 18 ^^^ x.rotateRight 41
def shaMix0 (x : BitVec 64) : BitVec 64 := x.rotateRight 1 ^^^ x.rotateRight 8 ^^^ x >>> 7
def shaMix1 (x : BitVec 64) : BitVec 64 := x.rotateRight 19 ^^^ x.rotateRight 61 ^^^ x >>> 6
def shaCh (x y z : BitVec 64) : BitVec 64 := x &&& y ^^^ ~~~x &&& z
def shaMaj (x y z : BitVec 64) : BitVec 64 := x &&& y ^^^ x &&& z ^^^ y &&& z

/-- One round. -/
def shaRound (s : ShaWords) (kw : BitVec 64 × BitVec 64) : ShaWords :=
  let t1 := s.h + shaSum1 s.e + shaCh s.e s.f s.g + kw.1 + kw.2
  { a := t1 + (shaSum0 s.a + shaMaj s.a s.b s.c), b := s.a, c := s.b, d := s.c, e := s.d + t1, f := s.e, g := s.f, h := s.g }

/-- The schedule: the sixteen words of a block extended by `n` more, newest first. -/
def shaSchedule : Nat → List (BitVec 64) → List (BitVec 64)
  | 0, w => w
  | n + 1, w => shaSchedule n ((shaMix1 (w.getD 1 0) + w.getD 6 0 + shaMix0 (w.getD 14 0) + w.getD 15 0) :: w)

/-- A number from bytes, most significant first. -/
def beNat (bs : List Byte) : Nat := bs.foldl (fun n b => 256 * n + b.toNat) 0

/-- The words of a block of 128 bytes. -/
def shaBlockWords (b : List Byte) : List (BitVec 64) := (List.range 16).map fun i => BitVec.ofNat 64 (beNat ((b.drop (8 * i)).take 8))

/-- One block taken in. -/
def shaBlock (s : ShaWords) (b : List Byte) : ShaWords :=
  let r := (shaK.zip (shaSchedule 64 (shaBlockWords b).reverse).reverse).foldl shaRound s
  { a := s.a + r.a, b := s.b + r.b, c := s.c + r.c, d := s.d + r.d, e := s.e + r.e, f := s.f + r.f, g := s.g + r.g, h := s.h + r.h }

/-- `n` blocks one after another. -/
def shaBlocks : Nat → List Byte → ShaWords → ShaWords
  | 0, _, s => s
  | n + 1, m, s => shaBlocks n (m.drop 128) (shaBlock s (m.take 128))

/-- Bytes of a number, most significant first. -/
def beBytes (n k : Nat) : List Byte := (natLe n k).reverse

/-- A message padded to whole blocks: a one bit, zeros, and its length in bits. -/
def shaPad (m : List Byte) : List Byte :=
  m ++ 0x80 :: List.replicate ((239 - m.length % 128) % 128) 0 ++ beBytes (8 * m.length) 16

/-- The SHA-384 digest of a message. -/
def sha384 (m : List Byte) : List Byte :=
  let p := shaPad m
  let r := shaBlocks (p.length / 128) p shaStart
  [r.a, r.b, r.c, r.d, r.e, r.f].flatMap fun w => beBytes w.toNat 8

/-! ## ECDSA over P-384 -/

/-- The field's prime, the curve's b, the order and the base point. -/
def p384 : Nat := 2 ^ 384 - 2 ^ 128 - 2 ^ 96 + 2 ^ 32 - 1
def p384B : Nat := 0xb3312fa7e23ee7e4988e056be3f82d19181d9c6efe8141120314088f5013875ac656398d8a2ed19d2a85c8edd3ec2aef
def p384N : Nat := 0xffffffffffffffffffffffffffffffffffffffffffffffffc7634d81f4372ddf581a0db248b0a77aecec196accc52973
def p384Gx : Nat := 0xaa87ca22be8b05378eb1c71ef320ad746e1d3b628ba79b9859f741e082542a385502f25dbf55296c3a545e3872760ab7
def p384Gy : Nat := 0x3617de4a96262c6f5d9e98bf9292dc29f8f41dbd289a147ce9da3113b5f0b8c00a60b1ce1d7e819d7a431d7c90ea0e5f

/-- A difference in the field. -/
def subP (a b : Nat) : Nat := (a + (p384 - b % p384)) % p384

/-- A power modulo `m`, the exponent below 2 to the first argument. -/
def powMod : Nat → Nat → Nat → Nat → Nat
  | 0, _, _, _ => 1
  | f + 1, b, e, m =>
    let r := powMod f (b * b % m) (e / 2) m
    if e % 2 = 1 then b * r % m else r

/-- The inverse modulo a prime below 2^384. -/
def invMod (a m : Nat) : Nat := powMod 384 (a % m) (m - 2) m

/-- A point as X / Z^2, Y / Z^3; infinity has Z = 0. -/
structure CurvePoint where
  x : Nat
  y : Nat
  z : Nat

/-- Twice a point, with a = -3. -/
def doublePoint (p : CurvePoint) : CurvePoint :=
  let y2 := p.y * p.y % p384
  let s := 4 * p.x * y2 % p384
  let z2 := p.z * p.z % p384
  let m := 3 * (subP p.x z2 * (p.x + z2)) % p384
  let x := subP (m * m) (2 * s)
  { x := x, y := subP (m * subP s x) (8 * y2 * y2), z := 2 * p.y * p.z % p384 }

/-- The sum of two points. -/
def addPoint (p q : CurvePoint) : CurvePoint :=
  if p.z = 0 then q
  else if q.z = 0 then p
  else
    let zp := p.z * p.z % p384
    let zq := q.z * q.z % p384
    let u := p.x * zq % p384
    let h := subP (q.x * zp) u
    let s := p.y * zq * q.z % p384
    let r := subP (q.y * zp * p.z) s
    if h = 0 then (if r = 0 then doublePoint p else { x := 1, y := 1, z := 0 })
    else
      let h2 := h * h % p384
      let h3 := h2 * h % p384
      let v := u * h2 % p384
      let x := subP (subP (r * r) h3) (2 * v)
      { x := x, y := subP (r * subP v x) (s * h3), z := h * p.z * q.z % p384 }

/-- A multiple of a point, the factor below 2 to the first argument. -/
def mulPoint : Nat → Nat → CurvePoint → CurvePoint
  | 0, _, _ => { x := 1, y := 1, z := 0 }
  | f + 1, k, p =>
    let r := mulPoint f (k / 2) (doublePoint p)
    if k % 2 = 1 then addPoint p r else r

/-- The point of a public key of 97 bytes, 0x04 then X and Y, when it lies on the curve. -/
def keyPoint (key : List Byte) : Option CurvePoint :=
  let x := beNat ((key.drop 1).take 48)
  let y := beNat (key.drop 49)
  if key.length = 97 && key.head? == some 0x04 && x < p384 && y < p384 && y * y % p384 == (x * x * x + (p384 - 3) * x + p384B) % p384 then
    some { x := x, y := y, z := 1 }
  else none

/-- The signature (r, s) on a message verifies under a public key. -/
def ecdsaVerifies (key msg sigR sigS : List Byte) : Bool :=
  let r := beNat sigR
  let s := beNat sigS
  match keyPoint key with
  | none => false
  | some q =>
    if r = 0 || r ≥ p384N || s = 0 || s ≥ p384N then false
    else
      let w := invMod s p384N
      let t := addPoint (mulPoint 384 (beNat (sha384 msg) * w % p384N) { x := p384Gx, y := p384Gy, z := 1 }) (mulPoint 384 (r * w % p384N) q)
      if t.z = 0 then false
      else
        let zi := invMod t.z p384
        t.x * zi % p384 * zi % p384 % p384N == r

end Sys2Proof.Machine
end

