-- ==== Sys2Proof/Machine/Glb.lean ====
section
/-! DEFINITION. Start-up: resets, PLLs, boot images, the debug lock, the thimble's faults (R34, R35, R499, R567-R588). -/

namespace Sys2Proof.Machine

open Sys2Proof

/-! ## Resets (R35, R566-R569) -/

/-- The source of a chip reset (R567, R587). -/
inductive ResetCause where
  | pin | sysPll | brownOut | debug
  deriving DecidableEq, Repr

/-- A chip reset: every block goes to its reset state but the thimble's oscillator monitor, the reset cause and its count. Pins, the
straps last latched, host memory and the flash are outside what it clears, and commands on their way stay waiting [A 5, A 23]. -/
def chipReset (s : State) (c : ResetCause) : State :=
  { State.reset with
    pending := s.pending, out := s.out, freeCtr := s.freeCtr, hostMem := s.hostMem, flash := s.flash
    glb := { State.reset.glb with
      rstN := s.glb.rstN, bootSrc := s.glb.bootSrc, strapThmExt := s.glb.strapThmExt
      sysLost := s.glb.sysLost, thmOscLost := s.glb.thmOscLost
      causePowerOn := false, causePin := c == .pin, causeSysPll := c == .sysPll, causeBrownOut := c == .brownOut
      causeDebug := c == .debug, resetCount := satAdd 255 s.glb.resetCount 1 }
    bob := { State.reset.bob with perstN := s.bob.perstN }
    seq := { State.reset.seq with
      ext := s.glb.strapThmExt, gnt := s.seq.gnt, oscBad := s.seq.oscBad, vddThmBad := s.seq.vddThmBad } }

/-- POWER_ON_RESET: the whole chip, the thimble included; the reset cause is power-on and its count 0 (R35, R567, R587). -/
def execPowerOnReset (s : State) : Host.Outcome State Fault Refusal :=
  .next { State.reset with
    pending := s.pending, out := s.out, freeCtr := s.freeCtr, hostMem := s.hostMem, flash := s.flash
    seq := { State.reset.seq with gnt := s.seq.gnt } }

/-- BROWN_OUT: a chip reset (R567). -/
def execBrownOut (s : State) : Host.Outcome State Fault Refusal := .next (chipReset s .brownOut)

/-- PIN_RESET: SYS_RST_N has been low for 10 us: a chip reset, held until the pin rises (R567). -/
def execPinReset (s : State) : Host.Outcome State Fault Refusal :=
  .next (chipReset { s with glb := { s.glb with rstN := false } } .pin)

/-- DEBUG_RESET: the reset instruction at debug level 2, or on a part whose LOCKED fuse is not blown (R567, R578). -/
def execDebugReset (s : State) : Host.Outcome State Fault Refusal :=
  .next (if s.glb.dbgLevel == 2 || !Config.locked then chipReset s .debug else s)

/-- RESET_RELEASE: the rising edge of SYS_RST_N latches the straps (R569, R500). -/
def execResetRelease (bootSrc : BitVec 2) (thmExt : Bool) (s : State) : Host.Outcome State Fault Refusal :=
  .next (if s.glb.rstN then s
    else { s with
      glb := { s.glb with rstN := true, bootSrc := bootSrc, strapThmExt := thmExt }
      seq := { s.seq with ext := thmExt } })

/-! ## PLLs (R34, R35, R446, R586) -/

/-- A lost bit of GLB_CLK_STAT becomes set: EV_GLB_CLK_LOSS with the bit at its place (R35, R126). -/
def clkLoss (s : State) (was : Bool) (place : Nat) : State := if was then s else raise s 0 (2 ^ place) 0

/-- SYS_PLL_LOCK: CORE and FIRE run, CT starts, and the thimble's oscillator is measured against FIRE; a
failure that stands is a fault from here on (R34, R446, R499, R580) [A 93]. -/
def execSysPllLock (s : State) : Host.Outcome State Fault Refusal :=
  .next (if s.glb.rstN && !s.glb.sysLock then
    let good := !s.seq.oscBad && !s.seq.vddThmBad
    let s := settleLanes { s with
      glb := { s.glb with sysLock := true, thmOscOk := !s.seq.oscBad }
      seq := { s.seq with thmOk := good, thmFaultAt := s.ct } }
    if good then s else setFault (raise s 201 0 (if s.seq.oscBad then 1 else 2)) fltThm true
  else s)

/-- SYS_PLL_LOSS: SYS_LOST is set and the chip is reset; SYS_LOST survives it (R35, R567). -/
def execSysPllLoss (s : State) : Host.Outcome State Fault Refusal :=
  .next (if s.glb.sysLock then
    let s' := chipReset s .sysPll
    clkLoss { s' with glb := { s'.glb with sysLost := true } } s.glb.sysLost 8
  else s)

/-- The PLL cause of GLB_FAULT stands while a PLL that lost lock has not held it again for 1 ms (R586). -/
def pllFault (s : State) : State := setFault s fltPll (s.glb.dramUnheld || s.glb.sdUnheld || s.glb.pcieUnheld)

/-- DRAM_PLL_LOSS (R524, R586). -/
def execDramPllLoss (s : State) : Host.Outcome State Fault Refusal :=
  .next (if s.glb.dramLock then
    let s' := { s with glb := { s.glb with dramLock := false, dramLost := true, dramUnheld := true } }
    drcFreeze (pllFault (clkLoss s' s.glb.dramLost 9)) (freezeBare czClock 0 0)
  else s)

/-- SD_PLL_LOSS: every head lane and Ethernet port goes down (R583, R586). -/
def execSdPllLoss (s : State) : Host.Outcome State Fault Refusal :=
  .next (if s.glb.sdLock then
    let s' := { s with glb := { s.glb with sdLock := false, sdLost := true, sdUnheld := true } }
    let s' := pllFault (clkLoss s' s.glb.sdLost 10)
    let s' := (indices 2).foldl (fun s e =>
      if (vget s.eth e).link then raise (modEth s e fun p => { p with link := false }) 173 e.val 0 (w32 (vget s.eth e).cfg.mode) else s) s'
    settleLanes ((indices 16).foldl (fun s p => laneLost (laneLost s p 0 2) p 1 2) s')
  else s)

/-- PCIE_PLL_LOSS: a host-interface reset reported as link down (R88, R583, R586). -/
def execPciePllLoss (s : State) : Host.Outcome State Fault Refusal :=
  .next (if s.glb.pcieLock then
    let s' := { s with glb := { s.glb with pcieLock := false, pcieLost := true, pcieUnheld := true } }
    hostReset (pllFault (clkLoss s' s.glb.pcieLost 11)) .linkDown
  else s)

/-- The lock bit of a PLL rises and its period of held lock starts (R586). -/
def pllRise (s : State) (p : Pll) : State :=
  if !s.glb.rstN then s
  else match p with
    | .dram => if s.glb.dramLock then s else { s with glb := { s.glb with dramLock := true, dramRise := s.ct } }
    | .sd => if s.glb.sdLock then s else settleLanes { s with glb := { s.glb with sdLock := true, sdRise := s.ct } }
    | .pcie => if s.glb.pcieLock then s else { s with glb := { s.glb with pcieLock := true, pcieRise := s.ct } }

/-- PLL_LOCK: a PLL locks at start-up (R574, R580). -/
def execPllLock (p : Pll) (s : State) : Host.Outcome State Fault Refusal := .next (pllRise s p)

/-- PLL_RELOCK: a PLL that lost lock locks again (R586). -/
def execPllRelock (p : Pll) (s : State) : Host.Outcome State Fault Refusal :=
  let lost := match p with
    | .dram => s.glb.dramUnheld | .sd => s.glb.sdUnheld | .pcie => s.glb.pcieUnheld
  .next (if lost then pllRise s p else s)

/-- PLL_LOCK_HELD: a PLL has held lock for 1 ms since its lock bit rose: its part of the PLL cause ends (R586). -/
def execPllLockHeld (p : Pll) (s : State) : Host.Outcome State Fault Refusal :=
  .next (match p with
    | .dram =>
      if s.glb.dramLock && s.glb.dramUnheld then
        let s := advanceTo s (s.glb.dramRise + ms 1)
        pllFault { s with glb := { s.glb with dramUnheld := false } }
      else s
    | .sd =>
      if s.glb.sdLock && s.glb.sdUnheld then
        let s := advanceTo s (s.glb.sdRise + ms 1)
        pllFault { s with glb := { s.glb with sdUnheld := false } }
      else s
    | .pcie =>
      if s.glb.pcieLock && s.glb.pcieUnheld then
        let s := advanceTo s (s.glb.pcieRise + ms 1)
        pllFault { s with glb := { s.glb with pcieUnheld := false } }
      else s)

/-! ## Boot (R570-R577) -/

/-- Bytes `a` to `b` (exclusive) of a header are 0. -/
def zeroRange (h : List Byte) (a b : Nat) : Bool := ((h.drop a).take (b - a)).all (· == 0)

/-- A 32-bit field of a header. -/
def hdrWord (h : List Byte) (a : Nat) : Word := w32 (leNat ((h.drop a).take 4))

/-- MAGIC, HDR_KIND and the reserved fields (R570). -/
def headerOk (h : List Byte) : Bool :=
  hdrWord h 0x000 == 0x8512B0F1 && hdrWord h 0x004 == 0x0001 && bits (hdrWord h 0x00C) 31 6 == 0 && bits (hdrWord h 0x018) 31 6 == 0 &&
    zeroRange h 0x01C 0x100 && zeroRange h 0x161 0x180 && zeroRange h 0x1E0 0x200

def payloadLen (h : List Byte) : Nat := (hdrWord h 0x008).toNat
def lengthOk (h : List Byte) (avail : Nat) : Bool :=
  let n := payloadLen h
  4096 ≤ n && n ≤ 491520 && n % 64 == 0 && 512 + n ≤ avail

/-- The checks of R571 from the header on, in order: the REASON of the first failure. -/
def imageReason (h payload : List Byte) (avail : Nat) : Option Nat :=
  let key := (h.drop 0x100).take 97
  let sec := bits (hdrWord h 0x00C) 5 0
  if !headerOk h then some 2
  else if !lengthOk h avail then some 3
  else if Config.keySet && sha384 key != Config.keyHash then some 4
  else if !ecdsaVerifies key (h.take 0x180 ++ payload) ((h.drop 0x180).take 48) ((h.drop 0x1B0).take 48) then some 5
  else if sec < Config.secMin.toNat then some 6
  else none

/-- Installed capacity in GiB of an organisation (R506); 0 for one the part does not support. -/
def capacityGib (density ranks : Nat) : Nat :=
  match density, ranks with
  | 0, 0 => 16 | 0, 1 => 32 | 1, 0 => 32 | 1, 1 => 64 | 2, 0 => 64 | _, _ => 0

/-- An image has passed: both sequencers go to SELFTEST, DRAM bring-up starts, the subsystem IDs are latched, EV_GLB_BOOT reports it
(R575). -/
def imagePass (s : State) (src : Nat) (h : List Byte) : State :=
  let d := hdrWord h 0x018
  let ids := hdrWord h 0x014
  let s := { s with
    glb := { s.glb with
      bootState := .done, bootSource := src, pushed := none, fwVersion := hdrWord h 0x010
      subVid := if bits ids 15 0 = 0 then 0x1F5B else BitVec.ofNat 16 (bits ids 15 0)
      subId := if bits ids 31 16 = 0 then 0x8512 else BitVec.ofNat 16 (bits ids 31 16) }
    drc := { s.drc with
      density := bits d 1 0, ranks := bits d 2 2, rate := bits d 5 3, capGib := capacityGib (bits d 1 0) (bits d 2 2)
      training := true, bringUp := some s.ct } }
  let s := enterState (enterState s 0 .selftest) 1 .selftest
  raise s 8 src 0 (hdrWord h 0x010) (w32 (bits (hdrWord h 0x00C) 5 0)) 0

/-- An image is rejected with a REASON (R571, R587, R588). -/
def imageReject (s : State) (src reason : Nat) (h : List Byte) : State :=
  let s := { s with glb := { s.glb with bootReason := reason, bootAttempts := satAdd 255 s.glb.bootAttempts 1 } }
  raise s 8 src 1 (hdrWord h 0x010) (w32 (bits (hdrWord h 0x00C) 5 0)) (w32 reason)

/-- SRAM_INIT_DONE: the host window becomes accessible; under strap 0b01 the boot waits for the host (R569, R573, R574). -/
def execSramInitDone (s : State) : Host.Outcome State Fault Refusal :=
  .next (if s.glb.sysLock && !s.glb.sramInit then
    { s with
      sram := []
      glb := { s.glb with sramInit := true
                          bootState := if s.glb.bootSrc == 1 && s.glb.bootState == .booting then .waitHost else s.glb.bootState } }
  else s)

/-- The image is hashed while it is copied to the start of firmware shared data (R571). -/
def copyImage (s : State) (h payload : List Byte) : State := sramWrite s fwShared (h ++ payload)

/-- FLASH_SLOT_VERIFY: the slot in turn has been read; pass, or the next slot, the wait for the host, or FAILED (R571, R572). -/
def flashSlotVerify (a : FlashAnswer) (s : State) : State :=
  let g := s.glb
  if !(g.sysLock && g.sramInit) || g.bootState != .booting || g.pushed.isSome || g.bootSrc == 1 || g.bootSource > 1 then s
  else
    let base := if g.bootSource = 0 then 0 else 0x1000000
    let h := if a == .answers then memRead s.flash base 512 else []
    let avail := if g.bootSource = 0 then 0x1000000 else 0x3000000
    let good := headerOk h && lengthOk h avail
    let payload := if good then memRead s.flash (base + 512) (payloadLen h) else []
    let reason := if a == .answers then imageReason h payload avail else some 1
    let s := if good then copyImage s h payload else s
    match reason with
    | none => imagePass s g.bootSource h
    | some r =>
      let s := imageReject s g.bootSource r h
      if g.bootSource = 0 then { s with glb := { s.glb with bootSource := 1 } }
      else if g.bootSrc == 2 then
        let s := { s with glb := { s.glb with bootState := .failed } }
        raise s 8 1 2 (hdrWord h 0x010) (w32 (bits (hdrWord h 0x00C) 5 0)) (w32 r)
      else { s with glb := { s.glb with bootState := .waitHost } }

def execFlashSlotVerify (a : FlashAnswer) (s : State) : Host.Outcome State Fault Refusal := .next (flashSlotVerify a s)

/-- HOST_IMAGE_VERIFY_DONE: the pushed image passes or is rejected back to WAIT_HOST (R571, R573). -/
def hostImageVerifyDone (s : State) : State :=
  match s.glb.pushed with
  | none => s
  | some len =>
    let lenOk := 4608 ≤ len && len ≤ 492032
    let h := if lenOk then memRead s.sram hostWinLo 512 else []
    let good := headerOk h && lengthOk h len
    let payload := if good then memRead s.sram (hostWinLo + 512) (payloadLen h) else []
    let reason := if lenOk then imageReason h payload len else some 7
    let s := { s with glb := { s.glb with pushed := none } }
    let s := if good then copyImage s h payload else s
    match reason with
    | none => imagePass s 2 h
    | some r =>
      let s := imageReject s 2 r h
      { s with glb := { s.glb with bootState := .waitHost } }

def execHostImageVerifyDone (s : State) : Host.Outcome State Fault Refusal := .next (hostImageVerifyDone s)

/-- FIRMWARE_INIT_DONE: commands are accepted and GLB_READY.SEQ is reported; every block has seen the first epoch (R574, R581). -/
def execFirmwareInitDone (s : State) : Host.Outcome State Fault Refusal :=
  .next (if s.fw.granted && fwRuns s && !s.fw.accepting then
    setReady { s with
      fw := { s.fw with accepting := true }
      ep := s.ep.map fun e => { e with epoch := s.seq.epoch } } 0
  else s)

/-! ## Debug lock (R578) -/

/-- The fused serial number as eight bytes, little-endian. -/
def serialBytes : List Byte := natLe Config.serial.toNat 8

/-- DEBUG_CHALLENGE: 32 random bytes and the serial number are read (R578). -/
def execDebugChallenge (random : List Byte) (s : State) : Host.Outcome State Fault Refusal :=
  let ch := random.take 32 ++ serialBytes
  .next (emit { s with glb := { s.glb with challenge := some ch } } (.jtag ch))

/-- A response is refused and counted; the third refusal locks the port out (R578). -/
def debugRefuse (s : State) (level : Nat) : State :=
  let n := min 3 (s.glb.dbgRefused + 1)
  let s' := { s with glb := { s.glb with challenge := none, dbgRefused := n, dbgLockout := s.glb.dbgLockout || n = 3 } }
  raise s' 11 0 (if s'.glb.dbgLockout && !s.glb.dbgLockout then 2 else 1) (w32 level)

/-- DEBUG_RESPONSE: accepted when the key's digest equals the fuses and the signature over challenge and level verifies; levels 1 and 2 (R578). -/
def debugResponse (sigR sigS : List Byte) (level : Fin 2) (key : List Byte) (s : State) : State :=
  let lv := level.val + 1
  match s.glb.challenge with
  | none => debugRefuse s lv
  | some ch =>
    if !s.glb.dbgLockout && sha384 key == Config.debugKeyHash && ecdsaVerifies key (ch ++ [b8 lv]) sigR sigS then
      raise { s with glb := { s.glb with challenge := none, dbgLevel := lv } } 11 0 0 (w32 lv)
    else debugRefuse s lv

def execDebugResponse (sigR sigS : List Byte) (level : Fin 2) (key : List Byte) (s : State) : Host.Outcome State Fault Refusal :=
  .next (debugResponse sigR sigS level key s)

/-! ## The thimble's faults (R499, R585) -/

/-- THM_FAULT: the oscillator or VDD_THM fails: the grant stays as it stands, THM_OK clears, FAULT_N is asserted (R34, R499). While the system PLL
is not locked the failure is kept and nothing is set or reported, THM_OSC_LOST neither, until the lock [A 93]. -/
def thmFault (osc : Bool) (s : State) : State :=
  if !s.glb.sysLock then { s with seq := { s.seq with oscBad := s.seq.oscBad || osc, vddThmBad := s.seq.vddThmBad || !osc } }
  else
    let lost := s.glb.thmOscLost
    let s := { s with
      glb := { s.glb with thmOscOk := s.glb.thmOscOk && !osc, thmOscLost := lost || osc }
      seq := { s.seq with oscBad := s.seq.oscBad || osc, vddThmBad := s.seq.vddThmBad || !osc, thmOk := false, thmFaultAt := s.ct } }
    let s := if osc then clkLoss s lost 12 else s
    setFault (raise s 201 0 (if osc then 1 else 2)) fltThm true

def execThmFault (osc : Bool) (s : State) : Host.Outcome State Fault Refusal := .next (thmFault osc s)

/-- THM_RESTORE: both have been good for 10 ms: the thimble takes the grant held in the latch as its own and supervises again (R585). -/
def thmRestore (s : State) : State :=
  if !s.glb.sysLock || !(s.seq.oscBad || s.seq.vddThmBad) then s
  else
    let s := advanceTo s (s.seq.thmFaultAt + ms 10)
    let s := { s with
      glb := { s.glb with thmOscOk := true }
      seq := { s.seq with oscBad := false, vddThmBad := false, thmOk := true, sqs := s.seq.sqs.map fun x => { x with hbAt := s.ct } } }
    grantLoaded (raise (setFault s fltThm false) 12 0 0 s.seq.epoch)

def execThmRestore (s : State) : Host.Outcome State Fault Refusal := .next (thmRestore s)

end Sys2Proof.Machine
end

