-- ==== Sys2Proof/Machine/PrintPath.lean ====
section
/-! DEFINITION. PDP's engine: lines computed, sent and unpicked, and the registers that a read captures (R140, R147, R169, R172-R180,
R187-R189). -/

namespace Sys2Proof.Machine

open Sys2Proof

/-! ## Computing lines (R140, R147, R173, R175-R178) -/

/-- The held-back count of an event is 0: nothing has been held back since it was last raised. -/
def reported (s : State) (num inst : Nat) : Bool := s.evt.limits.any fun e => e.1 == num && e.2.1 == inst && e.2.2.2 == 0

/-- Ink lost by darning on a line: counted, and reported at most once per millisecond and plane with the first line and dot lost since the event
before (R275). -/
def darnLosses (s : State) (ls : List PlaneLine) (line : Nat) : State :=
  ls.zipIdx.foldl (fun s x =>
    let d := x.1.darned
    if d.lost = 0 then s
    else
      let here := (x.2, line, d.firstLost.getD 0)
      let first := (s.nhd.darnFirst.find? (·.1 = x.2)).getD here
      let others := s.nhd.darnFirst.filter (·.1 != x.2)
      let s := raiseLimited { s with nhd := { s.nhd with darnLost := sat32 s.nhd.darnLost d.lost } } 54 x.2 (ms 1) d.lost
        fun n => (0, w32 n, w32 first.2.1, w32 first.2.2)
      { s with nhd := { s.nhd with darnFirst := if reported s 54 x.2 then others else first :: others } }) s

/-- EV_PDP_TABLE_ECC for each bad SRAM word that the line meets (R160). -/
def tableEcc (s : State) (pan : Panel) (line : Nat) (ports : List (Fin 16)) : State :=
  (badTables s pan line ports).foldl (fun s x => raise s 23 x.1 0 (w32 x.2)) s

/-- A line joins a port's basted lines, in rising order. -/
def basteLine (s : State) (p : Fin 16) (l : PLine) : State :=
  modPport s p fun q => { q with lines := q.lines.filter (·.abs < l.abs) ++ l :: q.lines.filter (l.abs < ·.abs) }

/-- GEN_FIRST: the generation of line 0 (R185). -/
def noteFirst (s : State) (pan : Panel) (line gen : Nat) : State :=
  if line = 0 then modPanel s pan.num fun x => { x with genFirst := some gen } else s

/-- The swatch in print has a line computed (R293). -/
def swatchBegins (s : State) (pan : Panel) (line : Nat) : State :=
  match s.nhd.run with
  | some r => if r.panel == pan.num && r.start ≤ line then { s with nhd := { s.nhd with run := some { r with begun := true } } } else s
  | none => s

/-- A line that an invalid table keeps from being computed ends UNFIRED: on the bar, or on each port where it has not ended when it has been
decided FIRE already (R169, R175, R184). -/
def unfireInvalid (s : State) (pan : Panel) (abs : Nat) : State :=
  let s := setEndKind s pan.num 6
  if abs < s.fir.next then
    ((partPorts pan).filter fun p => !endedOn s p abs).foldl (fun s p => endOn s pan p abs false) s
  else unfireBar s ((panelNamed s pan.num).getD pan) abs (abs + 1) 6

/-- LINE_COMPUTE of the next line: all stages for the whole bar, once it lies in the window, its band is ready and its tables are valid
(R139, R140, R169, R173, R175). -/
def computeNext (s : State) : State :=
  let c := nowC s
  let s := { s with pdp := { s.pdp with c := c } }
  match panelAt s c with
  | none => s
  | some pan =>
    let line := c - pan.base
    let band := line / 8
    if !mayCompute s || c ≥ paceOf s pan + 64 then s
    else if usesInvalid s pan then
      let s := unfireInvalid s pan c
      { s with pdp := { s.pdp with c := c + 1, starved := false } }
    else if band ≥ pan.ready then
      let s := { s with pdp := { s.pdp with starved := true } }
      if pan.starvedBand == some band then s
      else raise (modPanel s pan.num fun x => { x with starvedBand := some band }) 18 pan.num.toNat 0 (w32 band) (w32 pan.ready)
    else if !bandReady s pan band then s
    else
      let ls := allPlanes s pan line
      let s := tableEcc (darnLosses s ls line) pan line (partPorts pan)
      let s := (partPorts pan).foldl (fun s p =>
        if endedOn s p c then s else basteLine s p { abs := c, gen := s.pdp.gen, rows := portRows s pan ls line p }) s
      let s := noteFirst s pan line s.pdp.gen
      dropBands (swatchBegins { s with pdp := { s.pdp with c := c + 1, starved := false } } pan line) false

/-- The first discarded line of the lowest port that cannot be computed again for want of a valid table (R169). -/
def deadLine (s : State) : Option (Fin 16 × Nat × Panel) :=
  (indices 16).findSome? fun p => (missing s p).bind fun a => (panelAt s a).bind fun pan => if usesInvalid s pan then some (p, a, pan) else none

/-- LINE_COMPUTE of a discarded line: one port's segment, lines queued for unpick first, lowest line first; a line that needs an invalid
table ends UNFIRED on its port (R169, R177, R178). -/
def recomputeLine (s : State) : State :=
  if !mayCompute s then s
  else match deadLine s with
    | some (p, abs, pan) => endOn (setEndKind s pan.num 6) pan p abs false
    | none => match workPort s with
      | none => s
      | some p => match missing s p with
        | none => s
        | some abs => match panelAt s abs with
          | none => s
          | some pan =>
            let line := abs - pan.base
            if (pport s p).lines.any (·.unpick) || !segReady s pan (line / 8) p then s
            else
              let s := tableEcc s pan line [p]
              let s := basteLine s p { abs := abs, gen := s.pdp.gen, rows := portRows s pan (allPlanes s pan line) line p }
              dropBands (noteFirst s pan line s.pdp.gen) true

def execLineCompute (recompute : Bool) (s : State) : Host.Outcome State Fault Refusal :=
  .next (if recompute then recomputeLine s else computeNext s)

/-! ## Sending (R173, R177, R179, R344, R345) -/

/-- The next line for a port can be handed over: basted, within 32 lines of F[p], the port up with its HELLO complete (R173, R341). -/
def sendable (s : State) (p : Fin 16) : Option (Panel × PLine) :=
  let q := pport s p
  match panelAt s q.s with
  | none => none
  | some pan =>
    if takes pan p && portUp s p && (hport s p).helloDone && q.s < q.f + 32 then
      (q.lines.find? fun l => l.abs = q.s && !l.sent).map fun l => (pan, l)
    else none

/-- LINE_SEND: a basted line goes to HLK as data frames; unpick lines go first while the slack is 8 or more (R173, R175, R179). -/
def lineSend (p : Fin 16) (s : State) : State :=
  let q := pport s p
  match sendable s p with
  | none => s
  | some (pan, l) =>
    if q.s - q.f ≥ 8 && q.lines.any (·.unpick) then s
    else
      let s := modPport s p fun q => { q with
        s := q.s + 1, sentTop := max q.sentTop (l.abs + 1)
        lines := q.lines.map fun x => if x.abs = l.abs then { x with sent := true } else x }
      settlePort (sendLine s p pan.num (l.abs - pan.base) l.rows l.gen none) p

def execLineSend (p : Fin 16) (s : State) : Host.Outcome State Fault Refusal := .next (lineSend p s)

/-- UNPICK_LINE_SEND: the lowest line queued for unpick is recomputed with the newest generation and handed to HLK, unless it has become
guarded; below a slack of 8 new data lines go first (R176, R177, R179, R342). -/
def unpickLineSend (s : State) : State :=
  match workPort s with
  | none => s
  | some p =>
    let q := pport s p
    match q.lines.find? (·.unpick) with
    | none => s
    | some l =>
      let set (f : PLine → PLine) (s : State) : State :=
        modPport s p fun q => { q with lines := q.lines.map fun x => if x.abs = l.abs then f x else x }
      match panelAt s l.abs with
      | none => set (fun x => { x with unpick := false }) s
      | some pan =>
        let line := l.abs - pan.base
        if !portUp s p || guarded s pan p l.abs then set (fun x => { x with unpick := false }) s
        else if !mayCompute s || usesInvalid s pan || !segReady s pan (line / 8) p || (q.s - q.f < 8 && (sendable s p).isSome) then s
        else
          let rows := portRows s pan (allPlanes s pan line) line p
          let gen := s.pdp.gen
          let s := set (fun x => { x with unpick := false, gen := gen, rows := rows, old := some (heldGen x) }) (tableEcc s pan line [p])
          let s := modPpt (noteFirst s pan line gen) pan.num p fun x => { x with unpicked := x.unpicked + 1 }
          dropBands (closeChanges (sendLine s p pan.num line rows gen (some l.abs)) p) true

def execUnpickLineSend (s : State) : Host.Outcome State Fault Refusal := .next (unpickLineSend s)

/-! ## An SRAM error in a basted line (R160) -/

/-- An uncorrectable error in the basting region discards the basted line kept there, and PDP computes it again; line `abs` is kept in
slot `abs` modulo 64 (R160) [A 40]. -/
def basteError (s : State) (addr : Nat) : State :=
  let slot := (addr - 0xAE0000) / 98304
  { s with pdp := { s.pdp with ports := s.pdp.ports.map fun q => { q with lines := q.lines.filter fun l => l.sent || l.abs % 64 != slot } } }

/-! ## Registers that a read captures (R187-R189) -/

/-- The lowest band of a panel that a queued unpick or a recomputation needs, with the bands its samples refer to (R189, R200). -/
def neededBand (s : State) (pan : Panel) : Nat → Nat → Nat
  | 0, band => band
  | fuel + 1, band =>
    if band > 0 && (List.range pan.nplanes).any fun pl => bit (wordAt (bandEntry s pan band pl) 0x20) 20 then neededBand s pan fuel (band - 1)
    else band

/-- Bands released in a panel: every port that takes part is past them, and no queued unpick or recomputation needs them (R189). -/
def released (s : State) (pan : Panel) : Nat :=
  let f := minList ((partPorts pan).map fun p => (pport s p).f)
  let past := if f ≥ panelEnd pan then nbands pan.lines else (f - pan.base) / 8
  let here (abs : Nat) : Option Nat := if pan.base ≤ abs && abs < panelEnd pan then some ((abs - pan.base) / 8) else none
  let work := (indices 16).flatMap fun p =>
    (((pport s p).lines.filter (·.unpick)).map (·.abs) ++ (missing s p).toList).filterMap here
  (work.map fun b => neededBand s pan b b).foldl min past

/-- The next line lies in a band that is not ready (R140). -/
def starvedNow (s : State) : Bool :=
  s.pdp.starved && (panelAt s (nowC s)).any fun pan => (nowC s - pan.base) / 8 ≥ pan.ready

/-- The engine computes new lines: the next line lies in the window, its band is in place and its tables are valid (R159, R173, R187). -/
def computingNow (s : State) : Bool :=
  mayCompute s && (panelAt s (nowC s)).any fun pan =>
    let band := (nowC s - pan.base) / 8
    nowC s < paceOf s pan + 64 && band < pan.ready && bandReady s pan band && !usesInvalid s pan

/-- A line given as a number of the active panel. -/
def relLine (s : State) (abs : Nat) : Word :=
  match s.pdp.active with
  | some pan => w32 (abs - pan.base)
  | none => 0

/-- PDP_STAT (R187). -/
def pdpStat (s : State) : Word :=
  pack [(b2n s.pdp.active.isSome, 0), (b2n s.pdp.queued.isSome, 1), (b2n (computingNow s), 2),
    (b2n (recomputing s), 3), (b2n (s.pdp.job.any (·.copying)), 4), (b2n (starvedNow s), 5), (b2n !s.pdp.invalid.isEmpty, 6),
    ((s.pdp.active.map (·.num.toNat)).getD 0, 16)]

/-- PDP_STAT_READ: the host's read captures the cursors (R188). -/
def pdpStatRead (s : State) : State :=
  let rel := match s.pdp.active with
    | some pan => w32 (released s pan)
    | none => 0
  answerRead { s with pdp := { s.pdp with
    snapC := relLine s (nowC s), snapReleased := rel
    snapS := s.pdp.ports.map fun q => relLine s q.s, snapF := s.pdp.ports.map fun q => relLine s q.f } } (pdpStat s)

def execPdpStatRead (s : State) : Host.Outcome State Fault Refusal := .next (if s.bob.linkUp then pdpStatRead s else s)

end Sys2Proof.Machine
end

