-- ==== Sys2Proof/Machine/RegsA.lean ====
section
/-! DEFINITION. Control space as the host reads it, first part: GLB, BOB, CMD, EVT, PDP, EBC, FIR, NHD. A reserved offset reads 0 (R15). -/

namespace Sys2Proof.Machine

open Sys2Proof

/-- The entry and the byte within it of an offset into an array of `n` entries of `stride` bytes each. -/
def slotAt (n stride base off : Nat) : Option (Fin n × Nat) :=
  if base ≤ off then (idx n ((off - base) / stride)).map fun i => (i, (off - base) % stride) else none

/-- A number's low and high word. -/
def loW (n : Nat) : Word := w32 n
def hiW (n : Nat) : Word := w32 (n / 2 ^ 32)

/-- GLB_CLK_STAT (R34). -/
def clkStat (s : State) : Word :=
  let g := s.glb
  pack [(b2n g.sysLock, 0), (b2n g.dramLock, 1), (b2n g.sdLock, 2), (b2n g.pcieLock, 3), (b2n g.thmOscOk, 4), (b2n g.sysLost, 8),
    (b2n g.dramLost, 9), (b2n g.sdLost, 10), (b2n g.pcieLost, 11), (b2n g.thmOscLost, 12)]

def bootStateCode : BootState → Nat
  | .booting => 0 | .waitHost => 1 | .done => 2 | .failed => 3

/-- GLB (R34, R587). -/
def regGlb (s : State) (off : Nat) : Word :=
  let g := s.glb
  match off with
  | 0x00 => pack [(0x8512, 0), (0xB0, 16), (b2n Config.buildX, 24)]
  | 0x04 => loW Config.serial.toNat
  | 0x08 => hiW Config.serial.toNat
  | 0x0C => g.fwVersion
  | 0x10 => resetCauseWord s
  | 0x14 => pack [(g.bootSrc.toNat, 0), (b2n g.strapThmExt, 2)]
  | 0x18 => pack [(bootStateCode g.bootState, 0), (g.bootSource, 2), (g.bootReason, 4), (g.bootAttempts, 8)]
  | 0x20 => readyWord s
  | 0x24 => w32 g.fault.toNat
  | 0x28 => pack [(b2n Config.keySet, 0), (b2n Config.locked, 1), (Config.secMin.toNat, 2), (b2n Config.debugKeySet, 8)]
  | 0x2C => pack [(g.dbgLevel, 0), (g.dbgRefused, 2), (b2n g.dbgLockout, 4)]
  | 0x100 => clkStat s
  | _ => 0

/-- A request of a bobbin's own entries that the DRC holds (R520). -/
def waitsOn (n : Fin 32) : DramReq → Bool
  | .command p => cmdBob p == n
  | .reply p => replyBob p == n
  | .event k => evBob k == n
  | .descriptor d => d.val == n.val
  | _ => false

/-- Work on an entry of a bobbin has begun and not finished (R615). -/
def bobActive (s : State) (n : Fin 32) : Bool :=
  let r := vget s.bob.rings n
  ringLive r && (r.desc.isSome || camBufferHeld s n || s.drcx.waiting.any (waitsOn n) ||
    (n.val ≥ 17 && n.val < 28 && n.val != 18 && n.val != 20 && n.val != 22 && r.wbDue && r.wbEn))

/-- The producer holds items because the ring is full, and events also while the bobbin is disabled (R61, R67, R121). -/
def bobHeld (s : State) (n : Fin 32) : Bool :=
  let r := vget s.bob.rings n
  (ringLive r && (indices 4).any (fun p => replyBob p == n && !(vget s.cmd.pairs p).staged.isEmpty && replyHeld s p)) ||
    (indices 4).any fun k => evBob k == n && !(vget s.evt.bobs k).staging.isEmpty && (!r.en || ringFree r == 0)

/-- BOB_STAT (R61). -/
def bobStat (s : State) (n : Fin 32) : Word :=
  let r := vget s.bob.rings n
  pack [(b2n (bobActive s n), 0), (b2n r.halted, 1), (b2n r.dbBad, 2), (b2n r.cfgRej, 3), (b2n (bobHeld s n), 4), (r.errKind, 8)]

/-- A bobbin's register set (R57). -/
def regRing (s : State) (n : Fin 32) (o : Nat) : Word :=
  let r := vget s.bob.rings n
  match o with
  | 0x00 => r.baseLo | 0x04 => r.baseHi | 0x08 => r.wbLo | 0x0C => r.wbHi
  | 0x10 => bobCfg r | 0x14 => w32 r.head | 0x18 => w32 r.tail | 0x1C => bobStat s n
  | _ => 0

/-- BOB (R57, R65, R82, R86); doorbells are write-only and read 0. -/
def regBob (s : State) (off : Nat) : Word :=
  let b := s.bob
  if off < 0x10800 then match slotAt 32 64 0x10000 off with
    | some (n, o) => regRing s n o
    | none => 0
  else if 0x18000 ≤ off && off < 0x18400 then match slotAt 64 16 0x18000 off with
    | some (i, o) => let e := vget b.msix i
      (match o with
      | 0 => e.addrLo | 4 => e.addrHi | 8 => e.data | _ => e.ctrl)
    | none => 0
  else match off with
    | 0x12000 => pack [(b.errVector, 0), (b2n b.errIrqEn, 6)]
    | 0x12004 => pack [(b2n b.errValid, 0), (b2n b.errDir, 1), (b.errSpace, 2), (b2n b.errRing, 4), (b.errBobbin, 5), (b.errKind, 16)]
    | 0x12008 => loW b.errAddr
    | 0x1200C => hiW b.errAddr
    | 0x12010 => w32 b.errMore
    | 0x12014 => pack [(b.dmaAborted, 0), (b.repliesHeld, 16)]
    | 0x19000 => pack ((indices 64).map fun i => (if i.val < 32 then b2n (vget b.pba i) else 0, i.val % 32))
    | 0x19004 => pack ((indices 64).map fun i => (if i.val < 32 then 0 else b2n (vget b.pba i), i.val % 32))
    | _ => 0

/-- CMD (R116). -/
def regCmd (s : State) (off : Nat) : Word :=
  if off = 0x20000 then pack [(s.cmd.cmdVer.toNat, 0), (s.cmd.evtVer.toNat, 16)]
  else match slotAt 4 4 0x20010 off with
    | some (p, 0) =>
      let q := vget s.cmd.pairs p
      let held := !q.staged.isEmpty && replyHeld s p
      pack [(q.outs.length, 0), (b2n q.stopped, 8), (b2n held, 9), (if held then min 2048 ((q.staged.map replyEntries).sum) else 0, 16)]
    | _ => 0

/-- EVT (R119, R123). -/
def regEvt (s : State) (off : Nat) : Word :=
  if off < 0x30400 then match slotAt 256 4 0x30000 off with
    | some (i, 0) => let r := vget s.evt.routes i
      pack [(r.bobbin.val, 0), (b2n r.en, 2)]
    | _ => 0
  else match slotAt 4 4 0x30400 off with
    | some (k, 0) => w32 (vget s.evt.bobs k).lost
    | _ => 0

/-- PDP (R187, R188); `free` stands for PDP_ENGINE_LOAD, whose measure the spec does not give [A 1]. -/
def regPdp (s : State) (free : Word) (off : Nat) : Word :=
  match off with
  | 0x100000 => pdpStat s
  | 0x100004 => s.pdp.snapC
  | 0x100008 => s.pdp.snapReleased
  | 0x10000C => w32 (s.pdp.gen % 65536)
  | 0x100010 => (vget s.ep (epIdx .pdp)).epoch
  | 0x100014 => w32 (vget s.ep (epIdx .pdp)).stale
  | 0x100018 => pack [(bits free 9 0, 0), (bits free 25 16, 16)]
  | _ => match slotAt 16 16 0x100100 off with
    | some (p, 0x0) => vget s.pdp.snapS p
    | some (p, 0x4) => vget s.pdp.snapF p
    | some (p, 0x8) =>
      let q := pport s p
      pack [(min 255 (q.s - q.f), 0), (min 255 (q.lines.countP fun l => l.unpick && unguarded s p l.abs), 8),
        (b2n (s.pdp.active.any (takes · p)), 16), (b2n q.down, 17)]
    | some (p, 0xC) => w32 (pport s p).staleCnt
    | _ => 0

/-- Coded blocks that wait in decode staging with what they refer to in place: PDP's decoders are at work on the first two (R148, R210). -/
def codedWaiting (s : State) : Nat :=
  ((s.pdp.store ++ s.pdp.staging).map fun b => match panelNamed s b.panel with
    | some pan => b.coded.countP fun c => (blockPlace (pan.planes.getD b.plane {}) b c.1).2.2 && refReady s pan b c.1
    | none => 0).sum

/-- The block the camera encoder is at: the oldest of the lowest context that has one waiting (R402). -/
def encoderBlock (s : State) : Option CodedBlk :=
  (indices 8).findSome? fun k => ((camCtx s k).frames.find? (!·.todo.isEmpty)).bind fun f => f.todo.head?

/-- BUSY and LEVEL of an engine (R214). -/
def engState (s : State) (e : Fin 4) : Bool × Nat :=
  if e.val < 2 then (e.val < codedWaiting s, 0)
  else if e = 2 then ((vget s.ebc e).busy, (vget s.ebc e).level)
  else match encoderBlock s with
    | some b => (true, b.level)
    | none => (false, 0)

/-- EBC (R214). -/
def regEbc (s : State) (off : Nat) : Word :=
  if off = 0x140000 then 0x0100
  else match slotAt 4 16 0x140010 off with
    | some (e, o) =>
      let x := vget s.ebc e
      (match o with
      | 0x0 => pack [(b2n (engState s e).1, 0), ((engState s e).2, 1)]
      | 0x4 => w32 x.blocks
      | 0x8 => pack [(x.short, 0), (x.overrun, 12), (x.verify, 24)]
      | _ => w32 x.noFit)
    | none => 0

/-- FIR_INTERLOCK (R255). -/
def firInterlock (s : State) : Word :=
  let pan := s.pdp.active.isSome
  let rev := s.fir.revPending
  pack ([(b2n s.fir.jetEn, 0), (b2n pan, 1), (b2n !rev, 2), (b2n (s.fir.jetEn && pan && !rev), 3)] ++
    (indices 16).map fun p => (b2n (portUp s p && headInWindow s p), 16 + p.val))

/-- FIR_LIM: f_lim and its limiting term: the part's own, the rank records', the thermal one (R236). -/
def firLim (s : State) : Word :=
  let f := match s.pdp.active with
    | some pan => fOther s pan
    | none => 80000
  let t := thermalRate s
  pack [(min f t, 0), (if t < f then 2 else if f < 80000 then 1 else 0, 17)]

/-- FIR (R254, R255). -/
def regFir (s : State) (off : Nat) : Word :=
  let f := s.fir
  match off with
  | 0x180000 => firStat s
  | 0x180004 => pack [(f.src, 0), (f.axis, 2), (b2n f.dir, 5), (b2n f.enc, 6), (f.revWin, 8), (f.ashift, 16), (f.cshift, 20), (f.tb.val, 24)]
  | 0x180008 => loW f.scale
  | 0x18000C => w32 (f.scale / 2 ^ 32 % 256)
  | 0x180010 => pack [(f.base, 0), (f.extrap, 8), (f.stop, 16)]
  | 0x180014 => w32 f.lead
  | 0x180018 => loW (toBits 64 f.snapP)
  | 0x18001C => hiW (toBits 64 f.snapP)
  | 0x180020 => loW (toBits 64 f.snapHwm)
  | 0x180024 => hiW (toBits 64 f.snapHwm)
  | 0x180028 => w32 (toBits 32 f.snapV)
  | 0x18002C => firLim s
  | 0x180030 => firInterlock s
  | 0x180034 => (vget s.ep (epIdx .fir)).epoch
  | 0x180038 => w32 (vget s.ep (epIdx .fir)).stale
  | 0x18003C => w32 f.skippedCnt
  | 0x180040 => w32 f.reactiveCnt
  | 0x180044 => w32 f.feedErr
  | 0x180048 => pack [(f.skipFloor, 0), (f.capMargin, 8)]
  | _ =>
    if off < 0x180400 then match slotAt 16 8 0x180100 off with
      | some (p, 0) => w32 (portDelay s p % 2 ^ 20)
      | some (p, 4) => w32 (toBits 32 (vget f.trim p))
      | _ => 0
    else match slotAt 512 4 0x180400 off with
      | some (g, 0) => w32 (vget f.rowOff g)
      | _ => 0

/-- NHD (R296). -/
def regNhd (s : State) (off : Nat) : Word :=
  let n := s.nhd
  let entries := n.staged.countP fun x => match x with
    | .entry _ _ => true
    | .range _ _ _ => false
  match off with
  | 0x1C0000 => pack [(b2n !n.writes.isEmpty, 0), (b2n n.hem.isSome, 1), (b2n n.run.isSome, 2), (b2n n.swatch.isSome, 3),
      (b2n (n.load.isSome || n.read.isSome), 4), (n.proposed, 16)]
  | 0x1C0004 => n.version
  | 0x1C0008 => loW n.commitCt
  | 0x1C000C => hiW n.commitCt
  | 0x1C0010 => pack ([(entries, 0), (n.staged.length - entries, 21)] ++ (List.range 8).map fun p => (b2n (n.stagedKernels.any (·.1 == p)), 13 + p))
  | 0x1C0014 => pack [(b2n n.autoGate, 0), (b2n n.autoSwatch, 1), (n.autoMode, 2), (b2n n.portOverlay, 4)]
  | 0x1C0018 => w32 n.overlay.toNat
  | 0x1C001C => (vget s.ep (epIdx .nhd)).epoch
  | 0x1C0020 => w32 (vget s.ep (epIdx .nhd)).stale
  | 0x1C0024 => w32 n.darnLost
  | 0x1C0028 => pack [(n.eccCorr, 0), (n.eccUnc, 16)]
  | _ =>
    if off < 0x1C0060 then match slotAt 2 16 0x1C0040 off with
      | some (g, 0) =>
        let x := gateOf s g
        pack [(b2n x.run.isSome, 0), (b2n (x.run.any (·.pausedAt.isSome)), 1), ((x.run.map (·.port.val)).getD 0, 2), (x.sink, 6), (x.baseline, 16)]
      | some (g, 4) => w32 (gateOf s g).pos
      | _ => 0
    else match slotAt 8 8 0x1C0100 off with
      | some (p, 0) => let k := vget n.kernels p
        pack [(k.w1, 0), (k.w2, 8), (k.w3, 16)]
      | some (p, 4) => let k := vget n.kernels p
        pack [(k.wr, 0), (k.weakGive, 16), (k.devMove, 25)]
      | _ => 0

end Sys2Proof.Machine
end

