-- ==== Sys2Proof/Machine/RegsB.lean ====
section
/-! DEFINITION. Control space as the host reads it, second part: HLK, CAM, MOT, TIM, ETH, SEQ, DRC, HKP, LGT, CAL. -/

namespace Sys2Proof.Machine

open Sys2Proof

/-- Every enabled lane has a direction asleep (R328). -/
def portAsleep (s : State) (p : Fin 16) : Bool :=
  let ls := (indices 2).filter fun l => vget (hport s p).laneEn l
  !ls.isEmpty && ls.all fun l => (laneOfPort s p l).txSleep || (laneOfPort s p l).rxSleep

/-- A lane's registers (R328). -/
def regLane (s : State) (p : Fin 16) (l : Fin 2) (o : Nat) : Word :=
  let x := laneOfPort s p l
  match o with
  | 0x00 => pack [(laneCode x.state, 0), (x.rate, 4), (b2n x.txSleep, 6), (b2n x.rxSleep, 7), (x.preset, 8), (x.farPreset, 12), (x.farRates, 16),
      (x.farRx, 19), (b2n x.polInv, 22), (x.lastPark, 24)]
  | 0x04 => pack [(x.margin, 0), (x.checks, 6), (x.passMask, 16)]
  | 0x08 => pack [(x.errBlock, 0), (x.errTs, 16)]
  | 0x0C => pack [(x.attempts, 0), (x.step.getD 0, 8), (if x.state == .unthreaded then min 0xFFFF (ceilDiv (x.nextAt - s.ct) (ms 1)) else 0, 16)]
  | 0x10 => w32 x.losses
  | _ => 0

/-- A port's registers (R328, R366). -/
def regPort (s : State) (p : Fin 16) (o : Nat) : Word :=
  let h := hport s p
  match o with
  | 0x000 => pack [(b2n (portUp s p), 0), (lanesUp s p, 1), (h.target, 3), (b2n (h.ratesShort || runsShort s p), 5),
      (b2n (h.lanes.any rateMoving), 6), (b2n (portAsleep s p), 7)]
  | 0x004 => pack [(b2n h.en, 0), (b2n (vget h.laneEn 0), 1), (b2n (vget h.laneEn 1), 2), (b2n h.raise', 3)]
  | 0x100 => pack [(if h.helloDone then h.version else 0, 0), (b2n h.helloDone, 16), (b2n h.identified, 17), (b2n h.timeOk, 18), (b2n h.silent, 19), (b2n h.held, 20)]
  | 0x104 => w32 (laneDelay (laneOfPort s p 0) % 2 ^ 20)
  | 0x108 => w32 (laneDelay (laneOfPort s p 1) % 2 ^ 20)
  | 0x10C => pack [(min (2 ^ 19 - 1) (heldBytes h), 0), (min 4095 h.stalls, 19), (b2n (spills h), 31)]
  | 0x110 => pack [(h.errCrc, 0), (h.errSeq, 8), (h.errMalf, 16), (h.errReplay, 24)]
  | 0x114 => pack [(h.naksSent, 0), (h.naksRcvd, 16)]
  | 0x118 => pack [(h.mgmtTimeouts, 0), (h.mgmtBad, 8)]
  | 0x11C => w32 h.missedCnt
  | 0x120 => (vget s.ep (epIdx .hlk)).epoch
  | 0x124 => w32 h.staleWrites
  | _ => match slotAt 2 32 0x10 o with
    | some (l, r) => regLane s p l r
    | none => 0

/-- HLK. -/
def regHlk (s : State) (off : Nat) : Word :=
  match slotAt 16 0x1000 0x200000 off with
  | some (p, o) => regPort s p o
  | none => 0

/-- The map entry that feeds a context, lowest first (R372). -/
def ctxEntry (s : State) (k : Fin 8) : Option (Fin 16) := (indices 16).find? fun e => (vget s.cam.map e).en && (vget s.cam.map e).ctx == k

/-- Microseconds the pipeline has been held (R382, R408). -/
def camHeldUs (s : State) : Nat :=
  (s.cam.heldCt + (match s.cam.heldFrom with
    | some t => s.ct - t
    | none => 0)) / 400

/-- CAM (R408). -/
def regCam (s : State) (off : Nat) : Word :=
  let c := s.cam
  match off with
  | 0x300000 => pack ((indices 4).map (fun i => (b2n (c.map.toList.any fun m => m.en && m.input == i && (camCtx s m.ctx).open'), i.val)) ++
      (indices 8).map (fun k => (b2n (camCtx s k).en, 4 + k.val)) ++ [(b2n c.heldFrom.isSome, 12)])
  | 0x300004 => w32 c.rate
  | 0x300008 => w32 (min 0xFFFFFFFF (camHeldUs s))
  | 0x30000C => (vget s.ep (epIdx .cam)).epoch
  | 0x300010 => w32 (vget s.ep (epIdx .cam)).stale
  | _ =>
    if off < 0x300200 then match slotAt 4 16 0x300100 off with
      | some (i, o) =>
        let x := camIn s i
        (match o with
        | 0x0 => pack [(b2n x.en, 0), (b2n x.ulps, 1), (b2n x.deskewed, 2), (b2n (x.unmappedAt.any fun t => decide (s.ct < t + sec 1)), 3),
            (x.lanes, 4), (x.weight, 8)]
        | 0x4 => pack [(x.fifo.length, 0), (x.peak, 8)]
        | 0x8 => pack [(x.eccCorr, 0), (x.eccErr, 8), (x.crc, 16), (x.noFs, 24)]
        | _ => pack [(x.feMissing, 0), (x.timeout, 8), (x.longLine, 16), (x.shortLine, 24)])
      | none => 0
    else match slotAt 8 16 0x300200 off with
      | some (k, 0x0) =>
        let x := camCtx s k
        pack [(b2n x.en, 0), (b2n (x.frames.any (!·.closed)), 1), (b2n x.next.isSome, 2), (b2n !(liveFires s x).isEmpty, 3),
          (((ctxEntry s k).map (·.val)).getD 0, 4), (b2n (ctxEntry s k).isSome, 8), (x.frame.toNat, 16)]
      | some (k, 0x4) => pack [((camCtx s k).drops, 0), ((camCtx s k).lostOuts, 16)]
      | some (k, 0x8) => pack [((camCtx s k).beyond, 0), ((camCtx s k).shorts, 16)]
      | _ => 0

/-- An axis (R443, R444). -/
def regAxis (s : State) (n : Fin 6) (o : Nat) : Word :=
  let x := axis s n
  let tgt := toBits 64 (x.target / one32)
  let i (k : Fin 2) : MotInput := vget x.inputs k
  match o with
  | 0x00 => motStat s n
  | 0x04 => pack [(b2n x.encEn, 0), (b2n x.dirInv, 1), (b2n x.rejectRev, 2), (b2n x.jogEn, 3), (b2n x.configured, 4), (x.encFilt, 8), (x.hyst, 16)]
  | 0x08 => loW (toBits 64 x.snapPos)
  | 0x0C => hiW (toBits 64 x.snapPos)
  | 0x10 => loW tgt
  | 0x14 => hiW tgt
  | 0x18 => w32 (toBits 32 x.snapVel)
  | 0x1C => w32 (toBits 32 x.snapEnc)
  | 0x20 => w32 (toBits 32 x.snapDev)
  | 0x24 => w32 x.devPeak
  | 0x28 => pack [(b2n (i 0).raw, 0), (b2n (i 1).raw, 1), (b2n (i 0).qual, 2), (b2n (i 1).qual, 3), (b2n (i 0).chat, 4), (b2n (i 1).chat, 5),
      ((i 0).role, 8), ((i 1).role, 10), (x.debounce, 16)]
  | 0x2C => x.plk
  | 0x30 => if x.jog then w32 (toBits 32 x.vt) else 0
  | 0x34 => pack [(x.errQuad, 0), (x.errDev, 16)]
  | 0x38 => w32 (x.ceil.getD 0)
  | 0x3C => pack [(x.runI, 0), (x.holdI, 8), (x.homeI, 16), (x.holdDelay, 24)]
  | 0x40 => w32 x.vmax
  | 0x44 => w32 x.amax
  | 0x48 => w32 x.dmax
  | 0x4C => w32 x.jmax
  | 0x50 => w32 x.qdmax
  | 0x54 => w32 x.qjmax
  | 0x58 => pack [(x.devWin, 0), (x.stallWin, 16)]
  | 0x5C => w32 (toBits 32 x.ratio)
  | _ => match slotAt 8 4 0x60 o with
    | some (b, 0) => w32 (vget x.up b)
    | _ => 0

/-- MOT (R443). -/
def regMot (s : State) (off : Nat) : Word :=
  if off = 0x382000 then (vget s.ep (epIdx .mot)).epoch
  else if off = 0x382004 then w32 (vget s.ep (epIdx .mot)).stale
  else match slotAt 6 0x400 0x380000 off with
    | some (n, o) => regAxis s n o
    | none => 0

def servoCode : Servo → Nat
  | .free => 0 | .acquiring => 1 | .locked => 2 | .holdover => 3
def roleCode : PtpRole → Nat
  | .disabled => 0 | .slave => 1 | .master => 2 | .passive => 3

/-- A time base's registers (R473). -/
def regTb (s : State) (b : Fin 4) (o : Nat) : Word :=
  let x := vget s.tim.tbs b
  let t := vget s.tim.tbSnap b
  match o with
  | 0x00 => w32 (tbSec t)
  | 0x04 => pack [(tbSec t / 2 ^ 32 % 65536, 0), (tbFrac t, 16)]
  | 0x08 => w32 (tbNsPart t)
  | 0x0C => w32 (toBits 32 x.rate)
  | 0x10 => w32 (toBits 32 (slewNs x))
  | 0x14 =>
    let e := tbSlave s b
    let servo := match e with
      | some e => (vget s.eth e).servo
      | none => .free
    pack [(servoCode servo, 0), (b2n e.isSome, 2), ((e.map (·.val)).getD 0, 3), (b2n (servo == .holdover), 4), (b2n (x.slew != 0), 5), (x.steps.toNat, 16)]
  | _ => 0

/-- TIM (R473). -/
def regTim (s : State) (off : Nat) : Word :=
  match off with
  | 0x3C0000 => w32 s.ct
  | 0x3C0004 => hiW s.tim.ctSnap
  | 0x3C0100 => (vget s.ep (epIdx .tim)).epoch
  | 0x3C0104 => w32 (vget s.ep (epIdx .tim)).stale
  | _ =>
    if off < 0x3C0090 then match slotAt 4 32 0x3C0010 off with
      | some (b, o) => regTb s b o
      | none => 0
    else if off < 0x3C1200 then match slotAt 32 16 0x3C1000 off with
      | some (n, o) =>
        let k := vget s.tim.tacks n
        (match o with
        | 0x0 => k.targetS
        | 0x4 => k.periodS
        | 0x8 => w32 k.ctrlW.toNat
        | _ => pack [(b2n k.armed, 0), (b2n k.late, 1), (b2n k.stepped, 2), (b2n k.rejected, 3), (k.missed, 8), (k.fires.toNat, 16)])
      | none => 0
    else match slotAt 32 4 0x3C1200 off with
      | some (n, 0) => w32 (vget s.tim.tacks n).ovf
      | _ => 0

/-- ETH (R474). -/
def regEth (s : State) (off : Nat) : Word :=
  match slotAt 2 0x100 0x400000 off with
  | none => 0
  | some (e, o) =>
    let x := vget s.eth e
    let q := vget s.ethq e
    match o with
    | 0x00 => pack [(b2n x.link, 0), (x.cfg.mode, 1), (roleCode x.ptp.role, 3), (x.ptp.tb.val, 5), (q.rxq.length, 16)]
    | 0x04 => w32 (if x.cfg.latSet then x.cfg.txLat else (Config.ethTxLat e).toNat)
    | 0x08 => w32 (if x.cfg.latSet then x.cfg.rxLat else (Config.ethRxLat e).toNat)
    | 0x0C => w32 (toBits 32 x.cfg.asym)
    | 0x10 => pack [(q.txq.length, 0), (q.txOvf, 16)]
    | 0x14 => pack [(q.dropFrames, 0), (q.dropMsgs, 16)]
    | 0x18 => w32 (toBits 32 q.servoOfs)
    | 0x1C => w32 (toBits 32 q.servoDly)
    | _ => 0


/-- Seconds until the next planned swap, rounded up; 0 while none is planned (R494, R504). -/
def swapNext (s : State) : Nat :=
  if s.seq.ext then 0
  else match s.seq.swapRetry with
  | some t => ceilDiv (t - s.ct) (sec 1)
  | none => if s.seq.swapInterval = 0 then 0 else ceilDiv (s.seq.swapFrom + sec s.seq.swapInterval - s.ct) (sec 1)

/-- SEQ (R504). -/
def regSeq (s : State) (off : Nat) : Word :=
  let q := s.seq
  match off with
  | 0x480000 => pack [(q.active.val, 0), (b2n q.granted, 1), (b2n q.ext, 2), (b2n q.headless, 3), (seqCode (sqOf s 0).state, 4),
      (seqCode (sqOf s 1).state, 8), (b2n q.thmOk, 11)]
  | 0x480004 => q.epoch
  | 0x480008 => w32 q.swapInterval
  | 0x48000C => w32 (swapNext s % 2 ^ 17)
  | 0x480010 => pack [(q.swaps, 0), (q.revocations, 8), (q.discards, 16)]
  | 0x480014 => pack [(q.lastSeq.val, 0), (q.lastCause, 1), (q.lastLockup, 4), (q.lastEpoch.toNat, 16)]
  | 0x480018 => w32 q.lastCt
  | _ => match slotAt 2 16 0x480020 off with
    | some (i, o) =>
      let x := sqOf s i
      (match o with
      | 0x0 => pack [(x.hbMsn.toNat, 0), (b2n (synced s i), 16), (b2n x.hbActive, 17)]
      | 0x4 => loW x.hbDig.toNat
      | 0x8 => hiW x.hbDig.toNat
      | _ => pack [(min 255 (x.drops.countP fun t => decide (s.ct < t + sec 3600)), 0), (min 255 x.testFails, 8)])
    | none => 0

/-- DRC and the SRAM's registers (R532). -/
def regDrc (s : State) (off : Nat) : Word :=
  let d := s.drc
  match off with
  | 0x500000 => drcStat s
  | 0x500004 => pack [(d.density, 0), (d.ranks, 2), (d.rate, 3), (d.capGib, 16)]
  | 0x500008 => pack [(d.mode, 0), (b2n d.doubled, 2), (d.nbrK, 8), (d.scrubHours, 16), (b2n d.corrWb, 24)]
  | 0x50000C => pack [((vget d.ports 0).thresh, 0), ((vget d.ports 1).thresh, 10), ((vget d.ports 2).thresh, 16)]
  | 0x500010 => pack [(b2n (vget d.ports 0).panic, 0), (b2n (vget d.ports 1).panic, 1), (b2n (vget d.ports 2).panic, 2)]
  | 0x500014 => w32 d.eccCorr
  | 0x500018 => w32 d.wcrc
  | 0x50001C => freezeWord d.freeze
  | 0x500020 => loW d.freeze.addr
  | 0x500024 => hiW d.freeze.addr
  | 0x500038 => (vget s.ep (epIdx .drc)).epoch
  | 0x50003C => w32 (vget s.ep (epIdx .drc)).stale
  | 0x500200 => pack [(s.drcx.sramCorr, 0), (s.drcx.sramUnc, 16)]
  | 0x500204 => w32 s.drcx.sramErrAddr
  | 0x500208 => w32 s.drcx.sramGuard
  | _ =>
    if off < 0x500038 then match slotAt 4 4 0x500028 off with
      | some (i, 0) => vget d.freeze.synd i
      | _ => 0
    else match slotAt 40 4 0x500100 off with
      | some (i, 0) => w32 (vget d.devErr i)
      | _ => 0

/-- HKP_CH_STAT[n] (R562). -/
def chStat (s : State) (n : Fin 46) : Word :=
  let c := chan s n
  pack [(toBits 16 (if c.broken then 32767 else c.temp), 0), (if n.val < 40 then c.mode else 1, 16), (b2n (sensorValid s (.ch n)), 18), (b2n c.broken, 19),
    (c.fault, 20), (b2n (covered s (.ch n)), 23), (b2n (adcRuns s || (calGroup s 10).stale), 24)]

/-- The level of a group: 0 normal, 1 WARN, 2 THROTTLE, 3 SHUTDOWN. -/
def groupLevel (g : HkpGroup) : Nat := if g.inShutdown then 3 else if g.inThrottle then 2 else if g.inWarn then 1 else 0

def throttleCode : Throttle → Nat
  | .none => 0 | .requested => 1 | .enforced => 2

/-- HKP_HEAD[p] (R540, R562). -/
def headStat (s : State) (p : Fin 16) : Word :=
  let w := vget s.hkp.heads p
  let xs := headSensors s p
  pack [(b2n w.inside, 0), (b2n w.latched, 1), (b2n xs.isEmpty, 2), (b2n (adcRuns s || (calGroup s 10).stale), 3),
    (toBits 16 ((maxTemp ((xs.filter (sensorValid s)).map (sensorTemp s))).getD 0), 16)]

/-- HKP (R562). -/
def regHkp (s : State) (off : Nat) : Word :=
  let h := s.hkp
  match off with
  | 0x580000 => pack [(b2n h.shutdown, 0), (throttleCode h.throttle, 1), (b2n h.slowReq, 3), (h.term.getD 0 / 10, 4)]
  | 0x580004 => pack [(h.round, 0), (h.slot, 16)]
  | 0x580008 => (vget s.ep (epIdx .hkp)).epoch
  | 0x58000C => w32 (vget s.ep (epIdx .hkp)).stale
  | _ =>
    if off < 0x580200 then match slotAt 46 4 0x580100 off with
      | some (n, 0) => chStat s n
      | _ => 0
    else if off < 0x580300 then match slotAt 9 4 0x580200 off with
      | some (g, 0) => pack [(toBits 16 ((groupTemp s g).getD 0), 0), (groupLevel (vget h.groups g), 16), (b2n (vget h.groups g).latched, 18)]
      | _ => 0
    else if off < 0x580400 then match slotAt 16 4 0x580300 off with
      | some (p, 0) => headStat s p
      | _ => 0
    else match slotAt 16 4 0x580400 off with
      | some (m, 0) => pack [(min 0xFFFF (rail s m).mv, 0), (b2n (rail s m).uv, 16), (b2n (rail s m).ov, 17)]
      | _ => 0

/-- LGT (R562); the chain FIFOs are write-only. -/
def regLgt (s : State) (off : Nat) : Word :=
  match off with
  | 0x5C0000 => pack [(b2n s.lgt.limited, 0), ((s.lgt.scale - 1) % 256, 1), (s.lgt.power, 16)]
  | 0x5C0004 => w32 s.lgt.period
  | 0x5C0008 => w32 s.lgt.plimit
  | _ =>
    if off < 0x5C0030 then match slotAt 8 4 0x5C0010 off with
      | some (k, 0) => w32 (sink s k).dutyW
      | _ => 0
    else if off < 0x5C00C0 then match slotAt 8 16 0x5C0040 off with
      | some (k, o) =>
        let x := sink s k
        let g := calGroup s ⟨k.val, by omega⟩
        (match o with
        | 0x0 => pack [(b2n x.en, 0), (b2n x.strobe, 1), (x.tack.val, 2), (x.iset, 8), (x.phase, 16), (x.sensor, 24)]
        | 0x4 => pack [(x.f, 0), (b2n x.fault, 9), (b2n g.stale, 10), (b2n g.running.isSome, 11), (x.pin, 16), (x.firesLost, 24)]
        | 0x8 => pack [(toBits 16 x.knee, 0), (toBits 16 x.endT, 16)]
        | _ => 0)
      | none => 0
    else match slotAt 4 4 0x5C0110 off with
      | some (c, 0) =>
        let x := chainOf (chainSettle s c) c
        pack [(b2n x.en, 0), (b2n x.sending, 1), (x.fifo.length, 2), (x.underrun, 16), (x.overflow, 24)]
      | _ => 0

/-- CAL (R562). -/
def regCal (s : State) (off : Nat) : Word :=
  let c := s.cal
  match off with
  | 0x5E0000 => pack [(c.delta, 0), (b2n c.auto, 8), (vget c.refs 0, 16), (vget c.refs 1, 24)]
  | 0x5E0004 => pack [(c.runs, 0), (c.fails, 16), (c.aborts, 24)]
  | _ =>
    if off < 0x5E0100 then match slotAt 11 4 0x5E0010 off with
      | some (g, 0) =>
        let x := calGroup s g
        pack [(toBits 16 x.temp, 0), (b2n x.due, 16), (b2n x.stale, 17), (b2n x.failed, 18), (match x.deferAt with
          | some t => min 255 ((s.ct - t) / sec 1)
          | none => 0, 24)]
      | _ => 0
    else match slotAt 11 4 0x5E0100 off with
      | some (g, 0) => calTrimWord g ((calGroup s g).gain, (calGroup s g).offset)
      | _ => 0

end Sys2Proof.Machine
end

