-- ==== Sys2Proof/Machine/Regs.lean ====
section
/-! DEFINITION. A host read of a register: its value, the snapshots it captures and the fields it clears (R14, R15, R42). -/

namespace Sys2Proof.Machine

open Sys2Proof

/-- The value of a register; a reserved offset reads 0 (R15, R41). -/
def regValue (s : State) (free : Word) (off : Nat) : Word :=
  if off < 0x10000 then regGlb s off
  else if off < 0x20000 then regBob s off
  else if off < 0x30000 then regCmd s off
  else if off < 0x100000 then regEvt s off
  else if off < 0x140000 then regPdp s free off
  else if off < 0x180000 then regEbc s off
  else if off < 0x1C0000 then regFir s off
  else if off < 0x200000 then regNhd s off
  else if off < 0x300000 then regHlk s off
  else if off < 0x380000 then regCam s off
  else if off < 0x3C0000 then regMot s off
  else if off < 0x400000 then regTim s off
  else if off < 0x480000 then regEth s off
  else if off < 0x500000 then regSeq s off
  else if off < 0x580000 then regDrc s off
  else if off < 0x5C0000 then regHkp s off
  else if off < 0x5E0000 then regLgt s off
  else if off < 0x600000 then regCal s off
  else 0

/-- The stale counter of a block is read. -/
def clearStale (s : State) (b : WriteBlock) : State := { s with ep := vmod s.ep (epIdx b) fun e => { e with stale := 0 } }

/-- The RC fields of PDP, EBC, FIR and NHD are read. -/
def clearPrint (s : State) (off : Nat) : State :=
  match off with
  | 0x100014 => clearStale s .pdp
  | 0x180038 => clearStale s .fir
  | 0x18003C => { s with fir := { s.fir with skippedCnt := 0 } }
  | 0x180040 => { s with fir := { s.fir with reactiveCnt := 0 } }
  | 0x180044 => { s with fir := { s.fir with feedErr := 0 } }
  | 0x1C0020 => clearStale s .nhd
  | 0x1C0024 => { s with nhd := { s.nhd with darnLost := 0 } }
  | 0x1C0028 => { s with nhd := { s.nhd with eccCorr := 0, eccUnc := 0 } }
  | _ =>
    if off < 0x140000 then match slotAt 16 16 0x100100 off with
      | some (p, 0xC) => modPport s p fun q => { q with staleCnt := 0 }
      | _ => s
    else if off < 0x180000 then match slotAt 4 16 0x140010 off with
      | some (e, 0x8) => { s with ebc := vmod s.ebc e fun x => { x with short := 0, overrun := 0, verify := 0 } }
      | some (e, 0xC) => { s with ebc := vmod s.ebc e fun x => { x with noFit := 0 } }
      | _ => s
    else s

/-- The RC fields of a port are read. -/
def clearPort (s : State) (p : Fin 16) (o : Nat) : State :=
  match o with
  | 0x018 => modLane s p 0 fun x => { x with errBlock := 0, errTs := 0 }
  | 0x038 => modLane s p 1 fun x => { x with errBlock := 0, errTs := 0 }
  | 0x020 => modLane s p 0 fun x => { x with losses := 0 }
  | 0x040 => modLane s p 1 fun x => { x with losses := 0 }
  | 0x110 => modHport s p fun h => { h with errCrc := 0, errSeq := 0, errMalf := 0, errReplay := 0 }
  | 0x114 => modHport s p fun h => { h with naksSent := 0, naksRcvd := 0 }
  | 0x118 => modHport s p fun h => { h with mgmtTimeouts := 0, mgmtBad := 0 }
  | 0x11C => modHport s p fun h => { h with missedCnt := 0 }
  | 0x124 => modHport s p fun h => { h with staleWrites := 0 }
  | _ => s

/-- The RC fields of CAM are read; PEAK starts again from the lines held now, a hold in progress is counted anew from now. -/
def clearCam (s : State) (off : Nat) : State :=
  match off with
  | 0x300008 => { s with cam := { s.cam with heldCt := 0, heldFrom := s.cam.heldFrom.map fun _ => s.ct } }
  | 0x300010 => clearStale s .cam
  | _ =>
    if off < 0x300200 then match slotAt 4 16 0x300100 off with
      | some (i, 0x4) => modIn s i fun x => { x with peak := x.fifo.length }
      | some (i, 0x8) => modIn s i fun x => { x with eccCorr := 0, eccErr := 0, crc := 0, noFs := 0 }
      | some (i, 0xC) => modIn s i fun x => { x with feMissing := 0, timeout := 0, longLine := 0, shortLine := 0 }
      | _ => s
    else match slotAt 8 16 0x300200 off with
      | some (k, 0x4) => modCtx s k fun x => { x with drops := 0, lostOuts := 0 }
      | some (k, 0x8) => modCtx s k fun x => { x with beyond := 0, shorts := 0 }
      | _ => s

/-- The RC fields of MOT, TIM and ETH are read. -/
def clearMotTim (s : State) (off : Nat) : State :=
  if off = 0x382004 then clearStale s .mot
  else if off = 0x3C0104 then clearStale s .tim
  else if off < 0x3C0000 then match slotAt 6 0x400 0x380000 off with
    | some (n, 0x24) => modAxis s n fun x => { x with devPeak := 0 }
    | some (n, 0x34) => modAxis s n fun x => { x with errQuad := 0, errDev := 0 }
    | _ => s
  else if off < 0x400000 then match slotAt 32 4 0x3C1200 off with
    | some (n, 0) => modTack s n fun k => { k with ovf := 0 }
    | _ => s
  else match slotAt 2 0x100 0x400000 off with
    | some (e, 0x10) => { s with ethq := vmod s.ethq e fun q => { q with txOvf := 0 } }
    | some (e, 0x14) => { s with ethq := vmod s.ethq e fun q => { q with dropFrames := 0, dropMsgs := 0 } }
    | _ => s

/-- The RC fields of SEQ, DRC, HKP, LGT and CAL are read. -/
def clearRest (s : State) (off : Nat) : State :=
  match off with
  | 0x480010 => { s with seq := { s.seq with swaps := 0, revocations := 0, discards := 0 } }
  | 0x500014 => { s with drc := { s.drc with eccCorr := 0 } }
  | 0x500018 => { s with drc := { s.drc with wcrc := 0 } }
  | 0x50003C => clearStale s .drc
  | 0x500200 => { s with drcx := { s.drcx with sramCorr := 0, sramUnc := 0 } }
  | 0x500208 => { s with drcx := { s.drcx with sramGuard := 0 } }
  | 0x58000C => clearStale s .hkp
  | 0x5E0004 => { s with cal := { s.cal with runs := 0, fails := 0, aborts := 0 } }
  | _ =>
    if off < 0x580000 then match slotAt 40 4 0x500100 off with
      | some (i, 0) => { s with drc := { s.drc with devErr := vset s.drc.devErr i 0 } }
      | _ => s
    else match slotAt 4 4 0x5C0110 off with
      | some (c, 0) => modChain (chainSettle s c) c fun x => { x with underrun := 0, overflow := 0 }
      | _ => s

/-- What a host read of a register clears (R14). -/
def clearRc (s : State) (off : Nat) : State :=
  if off < 0x100000 then
    (if off = 0x12010 then { s with bob := { s.bob with errMore := 0 } }
     else if off = 0x12014 then { s with bob := { s.bob with dmaAborted := 0, repliesHeld := 0 } } else s)
  else if off < 0x200000 then clearPrint s off
  else if off < 0x300000 then match slotAt 16 0x1000 0x200000 off with
    | some (p, o) => clearPort s p o
    | none => s
  else if off < 0x380000 then clearCam s off
  else if off < 0x480000 then clearMotTim s off
  else clearRest s off

/-- The axis whose MOT_STAT lies at an offset. -/
def motStatAt (off : Nat) : Option (Fin 6) := match slotAt 6 0x400 0x380000 off with
  | some (n, 0) => some n
  | _ => none

/-- A host read of a register: the value, the snapshot of a register that captures one (R188, R255, R444, R447), and the RC fields cleared. -/
def hostRegRead (off : Nat) (s : State) : State :=
  if off % 4 != 0 then emit s (.hostRead .unsupportedRequest [])
  else if off = 0x100000 then pdpStatRead s
  else if off = 0x180000 then firStatRead s
  else if off = 0x3C0000 then timCtLoRead s
  else match motStatAt off with
    | some n => motStatRead n s
    | none =>
      let (free, s) := if off = 0x100018 then fresh s else (0, s)
      answerRead (clearRc s off) (regValue s free off)

/-- RC_REGISTER_READ: a host read of control space (R14). -/
def execRcRegisterRead (off : BitVec 24) (s : State) : Host.Outcome State Fault Refusal :=
  .next (if s.bob.linkUp then hostRegRead off.toNat s else s)

end Sys2Proof.Machine
end

