-- ==== Sys2Proof/Machine/Scrub.lean ====
section
/-! DEFINITION. The SRAM scrubber and what an uncorrectable word does in each region (R527, R529). Where a region's layout is not given, which
of the things it holds lies in the word is a free value [A 54]. -/

namespace Sys2Proof.Machine

open Sys2Proof

/-- The word reads uncorrectable until it is written again. -/
def markBad (s : State) (a : Nat) : State :=
  { s with drcx := { s.drcx with sramBad := if s.drcx.sramBad.contains a then s.drcx.sramBad else a :: s.drcx.sramBad } }

/-- One of the things a region holds, chosen freely; none when it holds nothing. -/
def hitOf {α : Type} (xs : List α) (free : Word) : Option α := if xs.isEmpty then none else xs[free.toNat % xs.length]?

/-- Blocks in the look-around store, or in EBC decode staging: what waits for a decoder and what recomputation has fetched (R148, R178). -/
def blocksIn (s : State) (staging : Bool) : List (Bool × BandStore × Nat) :=
  if staging then
    (s.pdp.store.flatMap fun b => b.coded.map fun x => (false, b, x.1)) ++
      s.pdp.staging.flatMap fun b => (b.coded.map fun x => (true, b, x.1)) ++ b.blocks.map fun x => (true, b, x.1)
  else s.pdp.store.flatMap fun b => b.blocks.map fun x => (false, b, x.1)

/-- A block in the failing word becomes zero ink and is reported and counted as R138 says; the CODE is free [A 54]. -/
def zeroBlock (s : State) (staging : Bool) : State :=
  let (free, s) := fresh s
  let (code, s) := fresh s
  match hitOf (blocksIn s staging) free with
  | none => s
  | some (recompute, b, i) =>
    let zap (y : BandStore) : BandStore :=
      { y with coded := y.coded.filter (·.1 != i), blocks := y.blocks.filter (·.1 != i) ++ [(i, none)] }
    blockFault (modBand s recompute b zap) b.panel b.band b.plane i (bits code 15 0)

/-- A replay buffer: the frame in the word is not sent again, and its lane is removed (R312). -/
def replayError (s : State) (p : Fin 16) : State :=
  let (free, s) := fresh s
  let frames := (indices 2).flatMap fun l => (List.range (laneOfPort s p l).held.length).map fun i => (l, i)
  match hitOf frames free with
  | none => s
  | some (l, i) => laneLost (modLane s p l fun x => { x with held := x.held.eraseIdx i }) p l 4

/-- Event and command staging: an event is lost and counted, or a fetched packet is lost and its reply carries HW_FAULT (R122). -/
def stagingError (s : State) : State :=
  let (free, s) := fresh s
  let evs := (indices 4).flatMap fun k => (List.range (vget s.evt.bobs k).staging.length).map fun i => (true, k, i)
  let pkts := (indices 4).flatMap fun p => ((List.range (vget s.cmd.pairs p).outs.length).filter fun i =>
    !(((vget s.cmd.pairs p).outs.getD i {}).started)).map fun i => (false, p, i)
  match hitOf (evs ++ pkts) free with
  | none => s
  | some (true, k, i) =>
    let e := (vget s.evt.bobs k).staging.getD i {}
    reportLost (modEvBob s k fun b => { b with
      staging := b.staging.eraseIdx i, lost := sat32 b.lost 1, pendLost := b.pendLost + 1
      firstLost := if b.pendLost = 0 then e.stamp else b.firstLost, lastLost := e.stamp }) k
  | some (false, p, i) => finishTag s p ((vget s.cmd.pairs p).outs.getD i {}).pkt.tag stHwFault 0

/-- The consequence of an uncorrectable word by region (R529). -/
def sramConsequence (s : State) (a : Nat) : State :=
  let other (s : State) : State := raise s 220 0 1 (w32 a)
  if a < 0x360000 then raise (markBad s a) 23 1 0 (w32 a)
  else if a < 0xAE0000 then raise (markBad s a) 23 2 0 (w32 a)
  else if a < 0x10E0000 then other (basteError s a)
  else if a < 0x13E0000 then zeroBlock s false
  else if a < 0x1440000 then mapEcc (markBad s a) a true
  else if a < 0x1AA0000 then other (markBad s a)
  else if a < 0x1C80000 then fifoError s a
  else if a < 0x1D80000 then zeroBlock s true
  else if a < 0x1E80000 then other (replayError s ⟨(a - 0x1D80000) / 65536 % 16, Nat.mod_lt _ (by decide)⟩)
  else if a < 0x1F00000 then other (stagingError s)
  else other (markBad s a)

/-- SRAM_SCRUB: the scrubber meets a word with an error: a single-bit error is corrected in place and counted, an uncorrectable one has the
consequence of its region (R529). -/
def sramScrub (addr : Nat) (uncorrectable : Bool) (s : State) : State :=
  let a := addr / 8 * 8
  if uncorrectable then sramConsequence (sramUncorrectable s a) a
  else
    let s := { s with drcx := { s.drcx with sramCorr := satAdd 0xFFFF s.drcx.sramCorr 1 } }
    if 0x13E0000 ≤ a && a < 0x1440000 then mapEcc s a false else raise s 220 0 0 (w32 a)

def execSramScrub (addr : BitVec 25) (uncorrectable : Bool) (s : State) : Host.Outcome State Fault Refusal :=
  .next (if s.glb.sysLock && s.glb.sramInit then sramScrub addr.toNat uncorrectable s else s)

end Sys2Proof.Machine
end

