-- ==== Sys2Proof/Machine/SeqWrite.lean ====
section
/-! DEFINITION. Writes of the sequencers on their way to the blocks: the gate, the newest epoch, repeats (R181, R477, R490). A configuration
write sets the fields of the block's own configuration registers; a schedule write to PDP carries the opcode and the parameter words of the
command that caused it and has that command's effect on PDP [A 56]. -/

namespace Sys2Proof.Machine

open Sys2Proof

/-- A write of FIR's configuration (R254). -/
def cfgFir (s : State) (off : Nat) (w : Word) : State :=
  match off with
  | 0x180004 => modFir s fun f => { f with
      src := bits w 1 0, axis := bits w 4 2, dir := bit w 5, enc := bit w 6, revWin := bits w 15 8, ashift := bits w 19 16, cshift := bits w 23 20
      tb := ⟨bits w 25 24, Nat.mod_lt _ (by decide)⟩ }
  | 0x180008 => modFir s fun f => { f with scale := f.scale / 2 ^ 32 * 2 ^ 32 + w.toNat }
  | 0x18000C => modFir s fun f => { f with scale := bits w 7 0 * 2 ^ 32 + f.scale % 2 ^ 32 }
  | 0x180010 => modFir s fun f => { f with base := bits w 7 0, extrap := bits w 15 8, stop := bits w 22 16 }
  | 0x180014 => modFir s fun f => { f with lead := bits w 15 0 }
  | 0x180048 => modFir s fun f => { f with skipFloor := bits w 7 0, capMargin := bits w 15 8 }
  | _ =>
    if off < 0x180400 then match slotAt 16 8 0x180100 off with
      | some (p, 4) => modFir s fun f => { f with trim := vset f.trim p (sbits w 31 0) }
      | _ => s
    else match slotAt 512 4 0x180400 off with
      | some (g, 0) => modFir s fun f => { f with rowOff := vset f.rowOff g (bits w 23 0) }
      | _ => s

/-- A write of NHD's policy and kernels (R296). -/
def cfgNhd (s : State) (off : Nat) (w : Word) : State :=
  if off = 0x1C0014 then setPolicy s w
  else match slotAt 8 8 0x1C0100 off with
    | some (p, 0) => modNhd s fun n => { n with kernels := vmod n.kernels p fun k => { k with w1 := bits w 7 0, w2 := bits w 15 8, w3 := bits w 23 16 } }
    | some (p, 4) => modNhd s fun n => { n with kernels := vmod n.kernels p fun k => { k with wr := bits w 8 0, weakGive := bits w 24 16, devMove := bits w 29 25 } }
    | _ => s

/-- A write of a port's configuration: its lanes follow the enables (R308, R328). -/
def cfgHlk (s : State) (off : Nat) (w : Word) : State :=
  match slotAt 16 0x1000 0x200000 off with
  | some (p, 4) => enablePort s p (bit w 0) (bits w 2 1) (bit w 3)
  | _ => s

/-- A write of an axis's configuration (R443). -/
def cfgMot (s : State) (off : Nat) (w : Word) : State :=
  match slotAt 6 0x400 0x380000 off with
  | none => s
  | some (n, o) => modAxis s n fun x => (match o with
    | 0x04 => { x with encEn := bit w 0, dirInv := bit w 1, rejectRev := bit w 2, jogEn := bit w 3, configured := bit w 4, encFilt := bits w 15 8, hyst := bits w 23 16 }
    | 0x3C => { x with runI := bits w 7 0, holdI := bits w 15 8, homeI := bits w 23 16, holdDelay := bits w 31 24 }
    | 0x40 => { x with vmax := w.toNat }
    | 0x44 => { x with amax := w.toNat }
    | 0x48 => { x with dmax := w.toNat }
    | 0x4C => { x with jmax := w.toNat }
    | 0x50 => { x with qdmax := w.toNat }
    | 0x54 => { x with qjmax := w.toNat }
    | 0x58 => { x with devWin := bits w 15 0, stallWin := bits w 31 16 }
    | 0x5C => { x with ratio := sbits w 31 0 }
    | _ => match slotAt 8 4 0x60 o with
      | some (b, 0) => { x with up := vset x.up b w.toNat }
      | _ => x)

/-- A write of TIM's rates and of a port's latencies (R473, R474). -/
def cfgTim (s : State) (off : Nat) (w : Word) : State :=
  if off < 0x400000 then match slotAt 4 32 0x3C0010 off with
    | some (b, 0x0C) => modTb s b fun x => { x with rate := sbits w 31 0 }
    | _ => s
  else
    let cfg (e : Fin 2) (f : EthCfg → EthCfg) : State := { s with eth := vmod s.eth e fun x => { x with cfg := f x.cfg } }
    let full (e : Fin 2) (c : EthCfg) : EthCfg :=
      if c.latSet then c else { c with latSet := true, txLat := (Config.ethTxLat e).toNat, rxLat := (Config.ethRxLat e).toNat }
    match slotAt 2 0x100 0x400000 off with
    | some (e, 0x04) => cfg e fun c => { full e c with txLat := bits w 19 0 }
    | some (e, 0x08) => cfg e fun c => { full e c with rxLat := bits w 19 0 }
    | some (e, 0x0C) => cfg e fun c => { c with asym := sbits w 31 0 }
    | _ => s

/-- A write of the DRC's configuration (R532). -/
def cfgDrc (s : State) (off : Nat) (w : Word) : State :=
  match off with
  | 0x500008 => { s with drc := { s.drc with mode := bits w 1 0, nbrK := bits w 12 8, scrubHours := bits w 23 16, corrWb := bit w 24 } }
  | 0x50000C => { s with drc := { s.drc with ports :=
      #v[{ vget s.drc.ports 0 with thresh := bits w 9 0 }, { vget s.drc.ports 1 with thresh := bits w 15 10 }, { vget s.drc.ports 2 with thresh := bits w 21 16 }] } }
  | _ => s

/-- A write of LGT's or CAL's configuration (R562). -/
def cfgLight (s : State) (off : Nat) (w : Word) : State :=
  match off with
  | 0x5C0004 => { s with lgt := { s.lgt with period := bits w 22 0 } }
  | 0x5C0008 => { s with lgt := { s.lgt with plimit := bits w 11 0 } }
  | 0x5E0000 => modCal s fun c => { c with delta := bits w 7 0, auto := bit w 8, refs := #v[bits w 21 16, bits w 29 24] }
  | _ => match slotAt 8 16 0x5C0040 off with
    | some (k, 0x0) => modSink s k fun x => { x with
        en := bit w 0, strobe := bit w 1, tack := ⟨bits w 6 2, Nat.mod_lt _ (by decide)⟩, iset := bits w 15 8, phase := bits w 23 16, sensor := bits w 29 24 }
    | some (k, 0x8) => modSink s k fun x => { x with knee := sbits w 15 0, endT := sbits w 31 16 }
    | _ => s

/-- The effect of a schedule write on PDP: that of the command whose opcode and parameters it carries, without replies; a write that the command's
own checks refuse has none (R181, R267) [A 56]. -/
def runSchedule (s : State) (pair : BitVec 8) (tag : BitVec 16) (op : Nat) (ws : List Word) : State :=
  let c : Cmd := { pair := ⟨pair.toNat % 4, Nat.mod_lt _ (by decide)⟩, tag := tag, words := ws }
  let after (r : CmdRes) : State := match r with
    | .done st _ _ t => if st = stOk then t else s
    | .started t => t
  match op with
  | 0x0201 => after (jobOpenPanel c s)
  | 0x0202 => after (jobReady c s)
  | 0x0203 => after (jobHem c s)
  | 0x0204 => after (jobAbort c s)
  | 0x0301 => after (pdpLoadCurves c s)
  | 0x0302 => after (pdpLoadGlobalCurve c s)
  | 0x0303 => after (pdpLoadScreen c s)
  | 0x0304 => after (pdpLoadSeamMask c s)
  | 0x0305 => after (pdpSetLevelMap c s)
  | 0x0306 => after (pdpSetSelvedge c s)
  | 0x0307 => after (pdpSetSeam c s)
  | 0x0503 =>
    let items := s.nhd.staged
    let job : CommitJob := { mode := bits (ws.headD 0) 1 0, items := items, kernels := s.nhd.stagedKernels
                             cmd := if pair = 0xFF then none else some (c.pair, tag) }
    queueCommit (modNhd s fun n => { n with staged := [], stagedKernels := [] }) job
  | 0x050C => after (nhdPrintSwatch c s)
  | _ => s

/-- A schedule write: PDP's epoch stays that of the write. -/
def cfgPdp (s : State) (pair : BitVec 8) (tag : BitVec 16) (ws : List (Nat × Word)) : State :=
  let words := ws.map (·.2)
  { runSchedule s pair tag (words.headD 0).toNat words.tail with ep := s.ep }

/-- One register of a block is written by a sequencer. -/
def cfgWrite (b : WriteBlock) (s : State) (x : Nat × Word) : State :=
  match b with
  | .pdp => s
  | .fir => if 0x180000 ≤ x.1 && x.1 < 0x1C0000 then cfgFir s x.1 x.2 else s
  | .nhd => if 0x1C0000 ≤ x.1 && x.1 < 0x200000 then cfgNhd s x.1 x.2 else s
  | .hlk => if 0x200000 ≤ x.1 && x.1 < 0x300000 then cfgHlk s x.1 x.2 else s
  | .cam => if x.1 = 0x300004 then { s with cam := { s.cam with rate := bits x.2 11 0 } } else s
  | .mot => if 0x380000 ≤ x.1 && x.1 < 0x3C0000 then cfgMot s x.1 x.2 else s
  | .tim => if 0x3C0000 ≤ x.1 && x.1 < 0x480000 then cfgTim s x.1 x.2 else s
  | .drc => if 0x500000 ≤ x.1 && x.1 < 0x580000 then cfgDrc s x.1 x.2 else s
  | .hkp => if 0x580000 ≤ x.1 && x.1 < 0x600000 then cfgLight s x.1 x.2 else s

/-- Event number of a stale write. -/
def staleEvent : WriteBlock → Nat
  | .pdp => 24 | .fir => 43 | .nhd => 57 | .hlk => 111 | .cam => 120 | .mot => 155 | .tim => 177 | .drc => 219 | .hkp => 238

/-- The port a write to HLK goes to. -/
def hlkPortOf (ws : List (Nat × Word)) : Fin 16 := ⟨((ws.headD (0x200000, 0)).1 - 0x200000) / 0x1000 % 16, Nat.mod_lt _ (by decide)⟩

/-- A write of an older epoch is discarded, counted and reported (R181). -/
def staleWrite (s : State) (b : WriteBlock) (epoch : Word) (ws : List (Nat × Word)) : State :=
  let p := hlkPortOf ws
  let s := if b = .hlk then modHport s p fun h => { h with staleWrites := sat32 h.staleWrites 1 }
    else { s with ep := vmod s.ep (epIdx b) fun e => { e with stale := sat32 e.stale 1 } }
  raise s (staleEvent b) (if b = .hlk then p.val else 0) 0 epoch (vget s.ep (epIdx b)).epoch

/-- The write passes its sequencer's gate: it holds the grant, or it lost it within the last 2 us and the write had passed (R477, R490). -/
def gatePasses (s : State) (q : Fin 2) : Bool :=
  (s.seq.granted && s.seq.active == q) || (s.seq.lastCause != 0 && s.seq.lastSeq == q && s.ct ≤ s.seq.lastCt + us 2)

/-- SEQUENCER_WRITE_ARRIVAL: a write is applied under the newest epoch its block has seen, acknowledged without effect when it repeats one
applied under an earlier epoch, and discarded when its epoch is older (R181, R477, R490). -/
def seqWrite (b : WriteBlock) (q : Fin 2) (epoch : Word) (pair : BitVec 8) (tag : BitVec 16) (ws : List (Nat × Word)) (s : State) : State :=
  let e := vget s.ep (epIdx b)
  if !gatePasses s q then { s with seq := { s.seq with discards := satAdd 0xFFFF s.seq.discards 1 } }
  else if epoch.toNat < e.epoch.toNat then staleWrite s b epoch ws
  else
    let again := e.applied.any fun x => x.1.toNat < epoch.toNat && x.2 == (pair, tag, ws)
    let s := { s with ep := vmod s.ep (epIdx b) fun e => { e with epoch := epoch, applied := (epoch, pair, tag, ws) :: e.applied } }
    if again then s else if b = .pdp then cfgPdp s pair tag ws else ws.foldl (cfgWrite b) s

def execSequencerWriteArrival (b : WriteBlock) (q : Fin 2) (epoch : Word) (pair : BitVec 8) (tag : BitVec 16) (writes : List (Nat × Word))
    (s : State) : Host.Outcome State Fault Refusal := .next (seqWrite b q epoch pair tag writes s)

end Sys2Proof.Machine
end

