-- ==== Sys2Proof/Machine/Tack.lean ====
section
/-! DEFINITION. A tack's fire at its consumers (R465, R469). -/

namespace Sys2Proof.Machine

open Sys2Proof

/-- TACK_FIRE: an armed tack fires at the first FIRE cycle at which its comparison holds; in that cycle the fire reaches the DMA channels,
the moves armed by it, the cameras and the strobe sinks (R77, R378, R417, R469, R548, R558). -/
def tackFire (n : Fin 32) (s : State) : State :=
  let k := vget s.tim.tacks n
  if !k.armed then s
  else camTack (strobeFire (motTack (tackFireCore (advanceTo s (tackFireAt s k)) n) n) n) n

def execTackFire (n : Fin 32) (s : State) : Host.Outcome State Fault Refusal := .next (if s.glb.sysLock then tackFire n s else s)

end Sys2Proof.Machine
end

