-- ==== Sys2Proof/Machine/Dispatch.lean ====
section
/-! DEFINITION. The meaning of every command: one arm per constructor of Instr, one direct call each. -/

namespace Sys2Proof.Machine

open Sys2Proof

def exec (i : Instr) (s : State) : Host.Outcome State Fault Refusal :=
  match i with
  | .resetRelease bootSrc thmExt => Sys2Proof.Machine.execResetRelease bootSrc thmExt s
  | .pllRelock p => Sys2Proof.Machine.execPllRelock p s
  | .pllLockHeld p => Sys2Proof.Machine.execPllLockHeld p s
  | .flashSlotVerify a => Sys2Proof.Machine.execFlashSlotVerify a s
  | .bootDoorbell len => Sys2Proof.Machine.execBootDoorbell len s
  | .supplyOutOfWindow m => Sys2Proof.Machine.execSupplyOutOfWindow m s
  | .thmFault osc => Sys2Proof.Machine.execThmFault osc s
  | .debugChallenge random => Sys2Proof.Machine.execDebugChallenge random s
  | .debugResponse sigR sigS level key => Sys2Proof.Machine.execDebugResponse sigR sigS level key s
  | .sequencerHalt q => Sys2Proof.Machine.execSequencerHalt q s
  | .registerWrite off v => Sys2Proof.Machine.execRegisterWrite off v s
  | .bar0BadAccess isWrite => Sys2Proof.Machine.execBar0BadAccess isWrite s
  | .bar2Read off len => Sys2Proof.Machine.execBar2Read off len s
  | .bar2Write off bytes => Sys2Proof.Machine.execBar2Write off bytes s
  | .bar4Read off len => Sys2Proof.Machine.execBar4Read off len s
  | .bar4Write off bytes => Sys2Proof.Machine.execBar4Write off bytes s
  | .poisonedWrite bar off => Sys2Proof.Machine.execPoisonedWrite bar off s
  | .linkChange speed width => Sys2Proof.Machine.execLinkChange speed width s
  | .hostInterfaceReset kind => Sys2Proof.Machine.execHostInterfaceReset kind s
  | .bmeClear d3hot => Sys2Proof.Machine.execBmeClear d3hot s
  | .msixUnmask v => Sys2Proof.Machine.execMsixUnmask v s
  | .bobEnable n v => Sys2Proof.Machine.execBobEnable n v s
  | .bobDisable n v => Sys2Proof.Machine.execBobDisable n v s
  | .bobDoorbell n v => Sys2Proof.Machine.execBobDoorbell n v s
  | .bobResume n => Sys2Proof.Machine.execBobResume n s
  | .clkLostClear v => Sys2Proof.Machine.execClkLostClear v s
  | .indexWriteBack n => Sys2Proof.Machine.execIndexWriteBack n s
  | .modTimeExpiry n => Sys2Proof.Machine.execModTimeExpiry n s
  | .dmaCopy n => Sys2Proof.Machine.execDmaCopy n s
  | .dmaFill n => Sys2Proof.Machine.execDmaFill n s
  | .dmaCompare n => Sys2Proof.Machine.execDmaCompare n s
  | .dmaEbcEncode n => Sys2Proof.Machine.execDmaEbcEncode n s
  | .dmaEbcDecode n => Sys2Proof.Machine.execDmaEbcDecode n s
  | .dmaBurst n => Sys2Proof.Machine.execDmaBurst n s
  | .ebcBlockDone n => Sys2Proof.Machine.execEbcBlockDone n s
  | .dmaDescriptorComplete n => Sys2Proof.Machine.execDmaDescriptorComplete n s
  | .busErrorHalt n which why isWrite => Sys2Proof.Machine.execBusErrorHalt n which why isWrite s
  | .commandFetch p => Sys2Proof.Machine.execCommandFetch p s
  | .replyPost p => Sys2Proof.Machine.execReplyPost p s
  | .eventArrival ki => Sys2Proof.Machine.execEventArrival ki s
  | .eventStagingWrite k => Sys2Proof.Machine.execEventStagingWrite k s
  | .sysHello c => Sys2Proof.Machine.execSysHello c s
  | .sysNop c => Sys2Proof.Machine.execSysNop c s
  | .sysCancel c => Sys2Proof.Machine.execSysCancel c s
  | .jobOpenPanel c => Sys2Proof.Machine.execJobOpenPanel c s
  | .jobReady c => Sys2Proof.Machine.execJobReady c s
  | .jobHem c => Sys2Proof.Machine.execJobHem c s
  | .jobAbort c => Sys2Proof.Machine.execJobAbort c s
  | .jobWaitHem c => Sys2Proof.Machine.execJobWaitHem c s
  | .pdpLoadCurves c => Sys2Proof.Machine.execPdpLoadCurves c s
  | .pdpLoadGlobalCurve c => Sys2Proof.Machine.execPdpLoadGlobalCurve c s
  | .pdpLoadScreen c => Sys2Proof.Machine.execPdpLoadScreen c s
  | .pdpLoadSeamMask c => Sys2Proof.Machine.execPdpLoadSeamMask c s
  | .pdpSetLevelMap c => Sys2Proof.Machine.execPdpSetLevelMap c s
  | .pdpSetSelvedge c => Sys2Proof.Machine.execPdpSetSelvedge c s
  | .pdpSetSeam c => Sys2Proof.Machine.execPdpSetSeam c s
  | .bandFetch queued recompute band plane => Sys2Proof.Machine.execBandFetch queued recompute band plane s
  | .decodeBlock e queued recompute band plane block => Sys2Proof.Machine.execDecodeBlock e queued recompute band plane block s
  | .lineCompute recompute => Sys2Proof.Machine.execLineCompute recompute s
  | .lineSend p => Sys2Proof.Machine.execLineSend p s
  | .sequencerWriteArrival b q epoch pair tag writes => Sys2Proof.Machine.execSequencerWriteArrival b q epoch pair tag writes s
  | .stitchSend p => Sys2Proof.Machine.execStitchSend p s
  | .lineFired p => Sys2Proof.Machine.execLineFired p s
  | .jetEnChange high => Sys2Proof.Machine.execJetEnChange high s
  | .firSetFeed c => Sys2Proof.Machine.execFirSetFeed c s
  | .firSetRows c => Sys2Proof.Machine.execFirSetRows c s
  | .firSetOverspeed c => Sys2Proof.Machine.execFirSetOverspeed c s
  | .firClearFault c => Sys2Proof.Machine.execFirClearFault c s
  | .nhdSetNozzles c => Sys2Proof.Machine.execNhdSetNozzles c s
  | .nhdSetRange c => Sys2Proof.Machine.execNhdSetRange c s
  | .nhdCommitMap c => Sys2Proof.Machine.execNhdCommitMap c s
  | .nhdDiscardStaged c => Sys2Proof.Machine.execNhdDiscardStaged c s
  | .nhdLoadMap c => Sys2Proof.Machine.execNhdLoadMap c s
  | .nhdReadMap c => Sys2Proof.Machine.execNhdReadMap c s
  | .nhdSetKernel c => Sys2Proof.Machine.execNhdSetKernel c s
  | .nhdSetPolicy c => Sys2Proof.Machine.execNhdSetPolicy c s
  | .nhdSetGate c => Sys2Proof.Machine.execNhdSetGate c s
  | .nhdGateRun c => Sys2Proof.Machine.execNhdGateRun c s
  | .nhdSetSwatch c => Sys2Proof.Machine.execNhdSetSwatch c s
  | .nhdPrintSwatch c => Sys2Proof.Machine.execNhdPrintSwatch c s
  | .gateDrop g => Sys2Proof.Machine.execGateDrop g s
  | .gateCrossing g baseline depth => Sys2Proof.Machine.execGateCrossing g baseline depth s
  | .gateRunEnd g => Sys2Proof.Machine.execGateRunEnd g s
  | .gateResume g => Sys2Proof.Machine.execGateResume g s
  | .signalDetect p l => Sys2Proof.Machine.execSignalDetect p l s
  | .signalLoss p l lockOnly => Sys2Proof.Machine.execSignalLoss p l lockOnly s
  | .presetStep p l => Sys2Proof.Machine.execPresetStep p l s
  | .blockLock p l inverted => Sys2Proof.Machine.execBlockLock p l inverted s
  | .screenPresetDone p l errors score => Sys2Proof.Machine.execScreenPresetDone p l errors score s
  | .checkDone p l errors => Sys2Proof.Machine.execCheckDone p l errors s
  | .acquireTimeout p l => Sys2Proof.Machine.execAcquireTimeout p l s
  | .readyTimeout p l => Sys2Proof.Machine.execReadyTimeout p l s
  | .tsReceive p l payload => Sys2Proof.Machine.execTsReceive p l payload s
  | .goComplete p l => Sys2Proof.Machine.execGoComplete p l s
  | .backoffExpiry p l => Sys2Proof.Machine.execBackoffExpiry p l s
  | .laneLoss p l why => Sys2Proof.Machine.execLaneLoss p l why s
  | .rateAckReceive p l => Sys2Proof.Machine.execRateAckReceive p l s
  | .sleepTsReceive p l => Sys2Proof.Machine.execSleepTsReceive p l s
  | .wakeReqReceive p l => Sys2Proof.Machine.execWakeReqReceive p l s
  | .wakeCheckDone p l pass => Sys2Proof.Machine.execWakeCheckDone p l pass s
  | .loopbackDone p l errors first => Sys2Proof.Machine.execLoopbackDone p l errors first s
  | .loopbackTimeout p l => Sys2Proof.Machine.execLoopbackTimeout p l s
  | .hlkSetPort c => Sys2Proof.Machine.execHlkSetPort c s
  | .hlkRethread c => Sys2Proof.Machine.execHlkRethread c s
  | .hlkSetSleep c => Sys2Proof.Machine.execHlkSetSleep c s
  | .hlkSetSleepWake c => Sys2Proof.Machine.execHlkSetSleepWake c s
  | .hlkLoopback c => Sys2Proof.Machine.execHlkLoopback c s
  | .hlkIdentify c => Sys2Proof.Machine.execHlkIdentify c s
  | .hlkMgmtRead c => Sys2Proof.Machine.execHlkMgmtRead c s
  | .hlkMgmtWrite c => Sys2Proof.Machine.execHlkMgmtWrite c s
  | .hlkSetTimers c => Sys2Proof.Machine.execHlkSetTimers c s
  | .ackReceive p l m => Sys2Proof.Machine.execAckReceive p l m s
  | .ackSend p l => Sys2Proof.Machine.execAckSend p l s
  | .badFrameReceive p l why => Sys2Proof.Machine.execBadFrameReceive p l why s
  | .replayTimeout p l => Sys2Proof.Machine.execReplayTimeout p l s
  | .helloSend p => Sys2Proof.Machine.execHelloSend p s
  | .helloReceive p l versions chosen => Sys2Proof.Machine.execHelloReceive p l versions chosen s
  | .helloTimeout p => Sys2Proof.Machine.execHelloTimeout p s
  | .helloRetry p => Sys2Proof.Machine.execHelloRetry p s
  | .headIdentify p => Sys2Proof.Machine.execHeadIdentify p s
  | .identifyDone p identity rank => Sys2Proof.Machine.execIdentifyDone p identity rank s
  | .timesyncSend p => Sys2Proof.Machine.execTimesyncSend p s
  | .timesyncReply p l id t2 t3 t4 => Sys2Proof.Machine.execTimesyncReply p l id t2 t3 t4 s
  | .statusReceive p l f m => Sys2Proof.Machine.execStatusReceive p l f m s
  | .statusSilent p => Sys2Proof.Machine.execStatusSilent p s
  | .mgmtReply p l seq m => Sys2Proof.Machine.execMgmtReply p l seq m s
  | .mgmtTimeout p tid => Sys2Proof.Machine.execMgmtTimeout p tid s
  | .frameStart ki h number => Sys2Proof.Machine.execFrameStart ki h number s
  | .csiLaneState ki e => Sys2Proof.Machine.execCsiLaneState ki e s
  | .linePacket ki h px => Sys2Proof.Machine.execLinePacket ki h px s
  | .codedBlockEncode k => Sys2Proof.Machine.execCodedBlockEncode k s
  | .frameEnd ki h => Sys2Proof.Machine.execFrameEnd ki h s
  | .frameTimeout k => Sys2Proof.Machine.execFrameTimeout k s
  | .camSetInput c => Sys2Proof.Machine.execCamSetInput c s
  | .camSetMap c => Sys2Proof.Machine.execCamSetMap c s
  | .camSetContext c => Sys2Proof.Machine.execCamSetContext c s
  | .camSetSensor c => Sys2Proof.Machine.execCamSetSensor c s
  | .camSetMatrix c => Sys2Proof.Machine.execCamSetMatrix c s
  | .camLoadTone c => Sys2Proof.Machine.execCamLoadTone c s
  | .camSetDefects c => Sys2Proof.Machine.execCamSetDefects c s
  | .camSetOutput c => Sys2Proof.Machine.execCamSetOutput c s
  | .camSetGeometry c => Sys2Proof.Machine.execCamSetGeometry c s
  | .camSetFlatfield c => Sys2Proof.Machine.execCamSetFlatfield c s
  | .camCommit c => Sys2Proof.Machine.execCamCommit c s
  | .camSetStats c => Sys2Proof.Machine.execCamSetStats c s
  | .camSetRate c => Sys2Proof.Machine.execCamSetRate c s
  | .motTick n => Sys2Proof.Machine.execMotTick n s
  | .moveStart n => Sys2Proof.Machine.execMoveStart n s
  | .encoderEdge n up => Sys2Proof.Machine.execEncoderEdge n up s
  | .quadratureError n => Sys2Proof.Machine.execQuadratureError n s
  | .inputQualifiedEdge n ki => Sys2Proof.Machine.execInputQualifiedEdge n ki s
  | .jogWrite n v => Sys2Proof.Machine.execJogWrite n v s
  | .jogTimeout n => Sys2Proof.Machine.execJogTimeout n s
  | .holdDelayExpiry n => Sys2Proof.Machine.execHoldDelayExpiry n s
  | .motStatRead n => Sys2Proof.Machine.execMotStatRead n s
  | .motSetAxis c => Sys2Proof.Machine.execMotSetAxis c s
  | .motSetLimits c => Sys2Proof.Machine.execMotSetLimits c s
  | .motSetBands c => Sys2Proof.Machine.execMotSetBands c s
  | .motSetInputs c => Sys2Proof.Machine.execMotSetInputs c s
  | .motEnable c => Sys2Proof.Machine.execMotEnable c s
  | .motMoveTo c => Sys2Proof.Machine.execMotMoveTo c s
  | .motSetVelocity c => Sys2Proof.Machine.execMotSetVelocity c s
  | .motStop c => Sys2Proof.Machine.execMotStop c s
  | .motHome c => Sys2Proof.Machine.execMotHome c s
  | .motSetPosition c => Sys2Proof.Machine.execMotSetPosition c s
  | .motClear c => Sys2Proof.Machine.execMotClear c s
  | .tackFire n => Sys2Proof.Machine.execTackFire n s
  | .tackArm n v => Sys2Proof.Machine.execTackArm n v s
  | .tackDisarm n v => Sys2Proof.Machine.execTackDisarm n v s
  | .slewComplete b => Sys2Proof.Machine.execSlewComplete b s
  | .timSetTbSet c => Sys2Proof.Machine.execTimSetTbSet c s
  | .timSetTbStep c => Sys2Proof.Machine.execTimSetTbStep c s
  | .timSetTbSlew c => Sys2Proof.Machine.execTimSetTbSlew c s
  | .timSetTbRate c => Sys2Proof.Machine.execTimSetTbRate c s
  | .timSetPort c => Sys2Proof.Machine.execTimSetPort c s
  | .timSetPtp c => Sys2Proof.Machine.execTimSetPtp c s
  | .timSendMsg c => Sys2Proof.Machine.execTimSendMsg c s
  | .timRecvMsg c => Sys2Proof.Machine.execTimRecvMsg c s
  | .ethLinkChange e up => Sys2Proof.Machine.execEthLinkChange e up s
  | .syncReceive e m => Sys2Proof.Machine.execSyncReceive e m s
  | .followUpReceive e m => Sys2Proof.Machine.execFollowUpReceive e m s
  | .followUpTimeout e => Sys2Proof.Machine.execFollowUpTimeout e s
  | .delayReqSend e fwTakes => Sys2Proof.Machine.execDelayReqSend e fwTakes s
  | .delayRespReceive e m => Sys2Proof.Machine.execDelayRespReceive e m s
  | .delayReqReceive e m => Sys2Proof.Machine.execDelayReqReceive e m s
  | .pdelayReqSend e fwTakes => Sys2Proof.Machine.execPdelayReqSend e fwTakes s
  | .pdelayReqReceive e m fwTakes => Sys2Proof.Machine.execPdelayReqReceive e m fwTakes s
  | .pdelayRespReceive e m followUp => Sys2Proof.Machine.execPdelayRespReceive e m followUp s
  | .syncSend e fwTakes => Sys2Proof.Machine.execSyncSend e fwTakes s
  | .ptpHostMessageReceive e kind m bytes => Sys2Proof.Machine.execPtpHostMessageReceive e kind m bytes s
  | .syncLossTimeout e => Sys2Proof.Machine.execSyncLossTimeout e s
  | .heartbeat q stray => Sys2Proof.Machine.execHeartbeat q stray s
  | .heartbeatLoss q => Sys2Proof.Machine.execHeartbeatLoss q s
  | .lockup q why => Sys2Proof.Machine.execLockup q why s
  | .mirrorRecordReceive words crcOk => Sys2Proof.Machine.execMirrorRecordReceive words crcOk s
  | .seqResetRelease q => Sys2Proof.Machine.execSeqResetRelease q s
  | .seqSelftestDone q pass => Sys2Proof.Machine.execSeqSelftestDone q pass s
  | .seqLoadingDone q => Sys2Proof.Machine.execSeqLoadingDone q s
  | .thmGntChange high => Sys2Proof.Machine.execThmGntChange high s
  | .seqSetSwap c => Sys2Proof.Machine.execSeqSetSwap c s
  | .seqSwap c => Sys2Proof.Machine.execSeqSwap c s
  | .seqRepair c => Sys2Proof.Machine.execSeqRepair c s
  | .dramBringupDone r => Sys2Proof.Machine.execDramBringupDone r s
  | .dramReadComplete src unit addr r drift nbr => Sys2Proof.Machine.execDramReadComplete src unit addr r drift nbr s
  | .dramWriteCrcAlert src unit addr w => Sys2Proof.Machine.execDramWriteCrcAlert src unit addr w s
  | .refreshTimer rank => Sys2Proof.Machine.execRefreshTimer rank s
  | .zqCalibrationTimer rank sc drift => Sys2Proof.Machine.execZqCalibrationTimer rank sc drift s
  | .dqsOscRead rank sc drift => Sys2Proof.Machine.execDqsOscRead rank sc drift s
  | .deviceTempRead rank code above85 => Sys2Proof.Machine.execDeviceTempRead rank code above85 s
  | .patrolScrub r => Sys2Proof.Machine.execPatrolScrub r s
  | .drcPanicChange port level zeroNs => Sys2Proof.Machine.execDrcPanicChange port level zeroNs s
  | .drcRetrainDone margin => Sys2Proof.Machine.execDrcRetrainDone margin s
  | .sramScrub addr uncorrectable => Sys2Proof.Machine.execSramScrub addr uncorrectable s
  | .drcReset c => Sys2Proof.Machine.execDrcReset c s
  | .drcRetrain c => Sys2Proof.Machine.execDrcRetrain c s
  | .drcSetRefresh c => Sys2Proof.Machine.execDrcSetRefresh c s
  | .drcSetQos c => Sys2Proof.Machine.execDrcSetQos c s
  | .drcInject c => Sys2Proof.Machine.execDrcInject c s
  | .hkpSlot m => Sys2Proof.Machine.execHkpSlot m s
  | .hkpSetChannel c => Sys2Proof.Machine.execHkpSetChannel c s
  | .hkpSetThresh c => Sys2Proof.Machine.execHkpSetThresh c s
  | .hkpSetHead c => Sys2Proof.Machine.execHkpSetHead c s
  | .hkpSetThrottle c => Sys2Proof.Machine.execHkpSetThrottle c s
  | .hkpClear c => Sys2Proof.Machine.execHkpClear c s
  | .pwmSwitchOn k => Sys2Proof.Machine.execPwmSwitchOn k s
  | .ledDutyWrite k v => Sys2Proof.Machine.execLedDutyWrite k v s
  | .strobeEnd k => Sys2Proof.Machine.execStrobeEnd k s
  | .powerEstimate pins => Sys2Proof.Machine.execPowerEstimate pins s
  | .sinkFault k tooHigh mv => Sys2Proof.Machine.execSinkFault k tooHigh mv s
  | .chainFifoWrite c v => Sys2Proof.Machine.execChainFifoWrite c v s
  | .chainFrameStart c => Sys2Proof.Machine.execChainFrameStart c s
  | .chainLatch c => Sys2Proof.Machine.execChainLatch c s
  | .lgtSetSink c => Sys2Proof.Machine.execLgtSetSink c s
  | .lgtSetPwm c => Sys2Proof.Machine.execLgtSetPwm c s
  | .lgtSetChain c => Sys2Proof.Machine.execLgtSetChain c s
  | .calRunDone g gain offset inRange => Sys2Proof.Machine.execCalRunDone g gain offset inRange s
  | .calDeferTimeout g => Sys2Proof.Machine.execCalDeferTimeout g s
  | .calSet c => Sys2Proof.Machine.execCalSet c s
  | .calRun c => Sys2Proof.Machine.execCalRun c s
  | .pllLock p => Sys2Proof.Machine.execPllLock p s
  | .pcieLinkUp speed width => Sys2Proof.Machine.execPcieLinkUp speed width s
  | .rcRegisterRead off => Sys2Proof.Machine.execRcRegisterRead off s
  | .ethFrameDiscard e => Sys2Proof.Machine.execEthFrameDiscard e s
  | .armWinLapse k => Sys2Proof.Machine.execArmWinLapse k s
  | .pwmSwitchOff k => Sys2Proof.Machine.execPwmSwitchOff k s
  | .rateReqUnanswered p l => Sys2Proof.Machine.execRateReqUnanswered p l s
  | .powerOnReset => Sys2Proof.Machine.execPowerOnReset s
  | .brownOut => Sys2Proof.Machine.execBrownOut s
  | .pinReset => Sys2Proof.Machine.execPinReset s
  | .debugReset => Sys2Proof.Machine.execDebugReset s
  | .sysPllLock => Sys2Proof.Machine.execSysPllLock s
  | .sysPllLoss => Sys2Proof.Machine.execSysPllLoss s
  | .dramPllLoss => Sys2Proof.Machine.execDramPllLoss s
  | .sdPllLoss => Sys2Proof.Machine.execSdPllLoss s
  | .pciePllLoss => Sys2Proof.Machine.execPciePllLoss s
  | .sramInitDone => Sys2Proof.Machine.execSramInitDone s
  | .hostImageVerifyDone => Sys2Proof.Machine.execHostImageVerifyDone s
  | .supplyRecovered => Sys2Proof.Machine.execSupplyRecovered s
  | .thmRestore => Sys2Proof.Machine.execThmRestore s
  | .bmeSet => Sys2Proof.Machine.execBmeSet s
  | .dmaErrLatchClear => Sys2Proof.Machine.execDmaErrLatchClear s
  | .dmaErrMoreRead => Sys2Proof.Machine.execDmaErrMoreRead s
  | .bobResetReportRead => Sys2Proof.Machine.execBobResetReportRead s
  | .freezeLatchClear => Sys2Proof.Machine.execFreezeLatchClear s
  | .eventDeliver => Sys2Proof.Machine.execEventDeliver s
  | .tableCopyDone => Sys2Proof.Machine.execTableCopyDone s
  | .unpickLineSend => Sys2Proof.Machine.execUnpickLineSend s
  | .panelHem => Sys2Proof.Machine.execPanelHem s
  | .pdpStatRead => Sys2Proof.Machine.execPdpStatRead s
  | .firUpdate => Sys2Proof.Machine.execFirUpdate s
  | .firStatRead => Sys2Proof.Machine.execFirStatRead s
  | .mapCopyDone => Sys2Proof.Machine.execMapCopyDone s
  | .mapReadDone => Sys2Proof.Machine.execMapReadDone s
  | .commitWriteEnd => Sys2Proof.Machine.execCommitWriteEnd s
  | .swatchAnalysisDone => Sys2Proof.Machine.execSwatchAnalysisDone s
  | .swatchTimeout => Sys2Proof.Machine.execSwatchTimeout s
  | .pipelineLine => Sys2Proof.Machine.execPipelineLine s
  | .timCtLoRead => Sys2Proof.Machine.execTimCtLoRead s
  | .takeoverDone => Sys2Proof.Machine.execTakeoverDone s
  | .mirrorAckTimeout => Sys2Proof.Machine.execMirrorAckTimeout s
  | .plannedSwap => Sys2Proof.Machine.execPlannedSwap s
  | .swapDeferRetry => Sys2Proof.Machine.execSwapDeferRetry s
  | .drcResetDone => Sys2Proof.Machine.execDrcResetDone s
  | .throttleGraceExpiry => Sys2Proof.Machine.execThrottleGraceExpiry s
  | .throttleStepExpiry => Sys2Proof.Machine.execThrottleStepExpiry s
  | .derateUpdate => Sys2Proof.Machine.execDerateUpdate s
  | .calRunStart => Sys2Proof.Machine.execCalRunStart s
  | .camBudgetRefill => Sys2Proof.Machine.execCamBudgetRefill s
  | .firmwareInitDone => Sys2Proof.Machine.execFirmwareInitDone s

end Sys2Proof.Machine
end

