-- ==== Sys2Proof/Machine/Idle.lean ====
section
/-! DEFINITION. What passes with time alone: one FIRE cycle, in which no command comes (R36, R446). -/

namespace Sys2Proof.Machine

open Sys2Proof

/-- A FIRE cycle without a command: CT and the time bases advance while the system PLL is locked, and every lane that has become free
starts the next frame that waits for it (R330, R338) [A 58]. -/
def tick (s : State) : State := if s.glb.sysLock then (indices 16).foldl pump (advance s 1) else s

end Sys2Proof.Machine
end

