-- ==== Sys2Proof/Safety.lean ====
section
/-! DEFINITION. What a safe state and a safe step are, in the terms the statements use. -/

namespace Sys2Proof.Machine

open Sys2Proof

/-- The four byte memories are in canonical form. -/
def State.memoriesOk (s : State) : Bool := memWf s.dram && memWf s.sram && memWf s.hostMem && memWf s.flash

/-- The outcome is a next state of which `P` holds. -/
def nextWith (o : Host.Outcome State Fault Refusal) (P : State → Prop) : Prop := ∃ t, o = .next t ∧ P t

/-! ## Commands of the host (R89-R106) -/

/-- A packet is fetched and started in one step: the interpreter takes commands, the tag is not outstanding, the pair is not held, no check of
R612 fails and nothing fetched before holds it back (R91, R100-R102, R574). -/
def Runs (s : State) (sp : CmdSpec) (c : Cmd) : Prop :=
  accepting s = true ∧ findTag s c.pair c.tag = none ∧ mayFetch s c.pair = true ∧
    fetchCheck s (some sp) sp.op c = none ∧ mayStart (addOut s sp.op c) c = true

/-- The state in which a command's own part runs: it is outstanding and has started. -/
def begun (s : State) (sp : CmdSpec) (c : Cmd) : State :=
  let s := addOut s sp.op c
  { s with cmd := { s.cmd with pairs := vmod s.cmd.pairs c.pair fun q =>
    { q with outs := q.outs.map fun o => if o.pkt.tag == c.tag then { o with started := true, async := sp.async } else o } } }

/-- The state is `u` but for outstanding commands, those that have ended, replies and their count in REPLIES_HELD (R67, R86, R100, R492). -/
def ButReplies (u t : State) : Prop :=
  t = { u with cmd := { u.cmd with pairs := t.cmd.pairs, cancels := t.cmd.cancels, ended := t.cmd.ended }, bob := { u.bob with repliesHeld := t.bob.repliesHeld } }

/-- The command's final reply is produced in this step, behind every reply of its pair produced before (R67, R97, R106). -/
def Replied (s t : State) (sp : CmdSpec) (c : Cmd) (status detail : Nat) (results : List Word) : Prop :=
  ∃ before after, (vget t.cmd.pairs c.pair).staged = (vget s.cmd.pairs c.pair).staged ++ before ++
    { tag := c.tag, op := BitVec.ofNat 16 sp.op, status := status, detail := detail, results := results, ctDone := t.ct } :: after

/-- The command is outstanding and has started; its final reply is still to come (R100, R105). -/
def Underway (t : State) (c : Cmd) : Prop := ∃ o, findTag t c.pair c.tag = some o ∧ o.pkt = c ∧ o.started = true

/-- What follows a command's own part that ends at once: ACCEPTED where R105 asks for it, then the final reply. -/
def answered (u : State) (sp : CmdSpec) (c : Cmd) (status detail : Nat) (results : List Word) : State :=
  finishTag (if sp.async && replyAlways c && status == stOk then stageReply u c.pair c.tag (BitVec.ofNat 16 sp.op) stAccepted 0 [] true else u)
    c.pair c.tag status detail results

/-- What follows a command's own part that goes on in the background: ACCEPTED where R105 asks for it. -/
def accepted (u : State) (sp : CmdSpec) (c : Cmd) : State :=
  if sp.async && replyAlways c then stageReply u c.pair c.tag (BitVec.ofNat 16 sp.op) stAccepted 0 [] true else u

/-- No check of a list fails. -/
def NoneFails (cs : List (Bool × Nat × Nat)) : Prop := ∀ k ∈ cs, k.1 = false

/-- The row completes with its final reply, and leaves the state `u` but for outstanding commands and replies. -/
def Completes (s : State) (i : Instr) (sp : CmdSpec) (c : Cmd) (status detail : Nat) (results : List Word) (u : State) : Prop :=
  ∃ t, exec i s = .next t ∧ Replied s t sp c status detail results ∧ ButReplies u t

/-- The row starts work that goes on, and leaves the state `u` but for outstanding commands and replies. -/
def Starts (s : State) (i : Instr) (c : Cmd) (u : State) : Prop := ∃ t, exec i s = .next t ∧ Underway t c ∧ ButReplies u t

/-! ## The DMA engine (R70-R76) -/

/-- The row of an operation. -/
def dmaRow (n : Fin 16) : DmaOp → Instr
  | .copy => .dmaCopy n | .fill => .dmaFill n | .compare => .dmaCompare n | .ebcEncode => .dmaEbcEncode n | .ebcDecode => .dmaEbcDecode n

/-- The OP code of an operation (R71). -/
def dmaCode : DmaOp → Nat
  | .copy => 1 | .fill => 2 | .compare => 3 | .ebcEncode => 4 | .ebcDecode => 5

/-- A channel that works and has an entry at its head that can be read, with no descriptor in progress. -/
def HeadReadable (s : State) (n : Fin 32) : Prop :=
  ringLive (vget s.bob.rings n) = true ∧ (vget s.bob.rings n).desc = none ∧ ringUsed (vget s.bob.rings n) ≠ 0 ∧
    (vget s.bob.rings n).space < 3 ∧ accessHeld s (vget s.bob.rings n).space = false ∧
    accessErr s (vget s.bob.rings n).space (entryAddr (vget s.bob.rings n) (vget s.bob.rings n).head) 32 true = none

/-- The words of the entry at a ring's head. -/
def headWords (s : State) (n : Fin 32) : List Word :=
  bytesWords (spaceRead s (vget s.bob.rings n).space (entryAddr (vget s.bob.rings n) (vget s.bob.rings n).head) 32)

/-- Every field of a descriptor is in range (R71-R73, R75, R76). -/
def FieldsSound (d : Desc) (w0 w1 : Word) : Prop :=
  d.length ≠ 0 ∧ d.burst ≠ 7 ∧ (d.periph ≤ 4 ∨ 0x10 ≤ d.periph ∧ d.periph ≤ 0x30) ∧ bits w0 31 24 = 0 ∧ bits w1 31 28 = 0 ∧
    (d.op = .ebcEncode ∨ d.op = .ebcDecode → bits d.operand 3 2 ≠ 0 ∧ d.length % (ebcSizes d).1 = 0) ∧ (d.dstSpace = 3 → d.length % 4 = 0)

/-- Both address ranges of a descriptor lie inside their spaces, or the destination is a data FIFO of control space (R71-R73, R75). -/
def RangesSound (s : State) (d : Desc) : Prop :=
  (d.op = .fill ∨ d.srcSpace ≠ 3 ∧ inSpace s d.srcSpace d.src d.length = true) ∧
    (if d.dstSpace = 3 then (d.op = .copy ∨ d.op = .fill) ∧ 0x5C0100 ≤ d.dst ∧ d.dst < 0x5C0110 ∧ d.dst % 4 = 0
     else inSpace s d.dstSpace d.dst (dstLen d) = true)

/-- The channel whose turn it is, and its descriptor (R70). -/
def DescRuns (s : State) (n : Fin 16) (d : Desc) : Prop := dmaNext s = some n ∧ (vget s.bob.rings (dmaBob n)).desc = some d

/-- A channel has had its turn (R70). -/
def turned (s : State) (n : Fin 16) : State := { s with bob := { s.bob with dmaTurn := n } }

/-- The channel's descriptor with more moved, and its completion once nothing is left (R74). -/
def progress (s : State) (n : Fin 16) (d : Desc) (m : Nat) (fin : Option (Nat × Nat)) : State :=
  modRing s (dmaBob n) fun r => { r with desc := some { d with moved := m, fin := fin } }

/-- A block's output has been written to its place (R75, R213). -/
def blockWritten (s : State) (d : Desc) (out : List Byte) : State :=
  spaceWrite s d.dstSpace (d.dst + d.moved * (ebcSizes d).2) out true

/-! ## PDP's tables (R167-R169) -/

/-- A table command may be taken: MODE 0 to 2, and no other table command is under way. -/
def TableFree (s : State) (c : Cmd) (op : Nat) : Prop := tableMode op c.words ≠ 3 ∧ s.pdp.job = none

/-- The DRAM source of a table: aligned, inside what the host may use, the controller not frozen. -/
def SourceOk (s : State) (c : Cmd) (align len : Nat) : Prop :=
  addr64 (pw c 0) (pw c 1) % align = 0 ∧ inSpace s 1 (addr64 (pw c 0) (pw c 1)) len = true ∧ s.drc.frozen = false

/-- The table command is taken: it copies from now on, or with MODE HEM from the hem of the active panel (R168). -/
def TableTaken (s : State) (i : Instr) (c : Cmd) (op : Nat) : Prop :=
  Starts s i c (scheduleCmd { s with pdp := { s.pdp with job := some {
    pair := c.pair, tag := c.tag, op := op, words := c.words, mode := tableMode op c.words
    copying := !(tableMode op c.words == 2 && s.pdp.active.isSome) } } } c op)

/-! ## Literal coding (R200) -/

/-- A block as literal tokens of 64 bytes each. -/
def ebcLiterals : Nat → List Byte → List Byte
  | 0, _ => []
  | k + 1, bs => 0x3F :: (bs.take 64 ++ ebcLiterals k (bs.drop 64))

/-- What a setting leaves alone: `t` is `s` but for the block `put` copies, outstanding commands, replies and the block's epoch. -/
def OnlyBlock (put : State → State → State) (s t : State) : Prop :=
  t = { put s t with cmd := t.cmd, bob := { s.bob with repliesHeld := t.bob.repliesHeld }, ep := t.ep }

end Sys2Proof.Machine
end

