-- ==== Sys2Proof/WellFormed.lean ====
section
/-! DEFINITION. Which commands can come: what the host link, the head link, the camera inputs and the sensors can deliver. The meanings are
total all the same; nothing in the step asks for well-formedness. -/

namespace Sys2Proof

/-- A register offset is a multiple of 4 (R42); another access is the row BAR0_BAD_ACCESS. -/
def aligned4 (n : Nat) : Bool := n % 4 == 0

/-- A request moves 1 to 4096 bytes, as PCI Express permits (R47). -/
def okLen (n : Nat) : Bool := decide (1 ≤ n) && decide (n ≤ 4096)

/-- A request does not cross a 4 KiB boundary, as PCI Express permits (R47). -/
def inPage (off len : Nat) : Bool := decide (off % 4096 + len ≤ 4096)

/-- Link speed codes 1 (2.5 GT/s) to 5 (32 GT/s) (R43). -/
def okSpeed (n : Nat) : Bool := decide (1 ≤ n) && decide (n ≤ 5)

/-- Link widths (R43). -/
def okWidth (n : Nat) : Bool := n == 1 || n == 2 || n == 4 || n == 8

/-- A received sample has at most 16 bits (R371, R384). -/
def okSample (n : Nat) : Bool := decide (n < 65536)

/-- The ADC's readings are in its range: volts and microvolts that a slot can show (R534). -/
def okSlot (m : SlotSample) : Bool := decide (m.mv < 65536) && decide (m.v1 < 5000000) && decide (m.v2 < 5000000)

/-- A packet's LENGTH is at most 2048 words, header included (R91). -/
def Cmd.wf (c : Cmd) : Bool := decide (c.words.length ≤ 2044)

/-- A PTP timestamp has 48 bits of seconds and nanoseconds below 10^9; the correction field has 64 bits (R457). -/
def PtpMsg.wf (m : PtpMsg) : Bool := decide (m.ts < 16 * 10 ^ 9 * 2 ^ 48) && decide (-(2 ^ 63 : Int) ≤ m.corr) && decide (m.corr < 2 ^ 63)

/-- Whether a command is well formed. -/
def Instr.wf : Instr → Bool
  | .resetRelease _ _ => true
  | .pllRelock _ => true
  | .pllLockHeld _ => true
  | .flashSlotVerify _ => true
  | .bootDoorbell _ => true
  | .supplyOutOfWindow _ => true
  | .thmFault _ => true
  | .debugChallenge random => random.length == 32
  | .debugResponse sigR sigS _ key => sigR.length == 48 && sigS.length == 48 && key.length == 96
  | .sequencerHalt _ => true
  | .registerWrite off _ => aligned4 off.toNat
  | .bar0BadAccess _ => true
  | .bar2Read off len => okLen len && inPage off.toNat len
  | .bar2Write off bytes => okLen bytes.length && inPage off.toNat bytes.length
  | .bar4Read off len => okLen len && inPage off.toNat len
  | .bar4Write off bytes => okLen bytes.length && inPage off.toNat bytes.length
  | .poisonedWrite _ _ => true
  | .linkChange speed width => okSpeed speed && okWidth width
  | .hostInterfaceReset _ => true
  | .bmeClear _ => true
  | .msixUnmask _ => true
  | .bobEnable _ _ => true
  | .bobDisable _ _ => true
  | .bobDoorbell _ _ => true
  | .bobResume _ => true
  | .clkLostClear _ => true
  | .indexWriteBack _ => true
  | .modTimeExpiry _ => true
  | .dmaCopy _ => true
  | .dmaFill _ => true
  | .dmaCompare _ => true
  | .dmaEbcEncode _ => true
  | .dmaEbcDecode _ => true
  | .dmaBurst _ => true
  | .ebcBlockDone _ => true
  | .dmaDescriptorComplete _ => true
  | .busErrorHalt _ _ _ _ => true
  | .commandFetch _ => true
  | .replyPost _ => true
  | .eventArrival _ => true
  | .eventStagingWrite _ => true
  | .sysHello c => c.wf
  | .sysNop c => c.wf
  | .sysCancel c => c.wf
  | .jobOpenPanel c => c.wf
  | .jobReady c => c.wf
  | .jobHem c => c.wf
  | .jobAbort c => c.wf
  | .jobWaitHem c => c.wf
  | .pdpLoadCurves c => c.wf
  | .pdpLoadGlobalCurve c => c.wf
  | .pdpLoadScreen c => c.wf
  | .pdpLoadSeamMask c => c.wf
  | .pdpSetLevelMap c => c.wf
  | .pdpSetSelvedge c => c.wf
  | .pdpSetSeam c => c.wf
  | .bandFetch _ _ _ _ => true
  | .decodeBlock _ _ _ _ _ _ => true
  | .lineCompute _ => true
  | .lineSend _ => true
  | .sequencerWriteArrival _ _ _ _ _ _ => true
  | .stitchSend _ => true
  | .lineFired _ => true
  | .jetEnChange _ => true
  | .firSetFeed c => c.wf
  | .firSetRows c => c.wf
  | .firSetOverspeed c => c.wf
  | .firClearFault c => c.wf
  | .nhdSetNozzles c => c.wf
  | .nhdSetRange c => c.wf
  | .nhdCommitMap c => c.wf
  | .nhdDiscardStaged c => c.wf
  | .nhdLoadMap c => c.wf
  | .nhdReadMap c => c.wf
  | .nhdSetKernel c => c.wf
  | .nhdSetPolicy c => c.wf
  | .nhdSetGate c => c.wf
  | .nhdGateRun c => c.wf
  | .nhdSetSwatch c => c.wf
  | .nhdPrintSwatch c => c.wf
  | .gateDrop _ => true
  | .gateCrossing _ _ _ => true
  | .gateRunEnd _ => true
  | .gateResume _ => true
  | .signalDetect _ _ => true
  | .signalLoss _ _ _ => true
  | .presetStep _ _ => true
  | .blockLock _ _ _ => true
  | .screenPresetDone _ _ _ _ => true
  | .checkDone _ _ _ => true
  | .acquireTimeout _ _ => true
  | .readyTimeout _ _ => true
  | .tsReceive _ _ _ => true
  | .goComplete _ _ => true
  | .backoffExpiry _ _ => true
  | .laneLoss _ _ _ => true
  | .rateAckReceive _ _ => true
  | .sleepTsReceive _ _ => true
  | .wakeReqReceive _ _ => true
  | .wakeCheckDone _ _ _ => true
  | .loopbackDone _ _ _ _ => true
  | .loopbackTimeout _ _ => true
  | .hlkSetPort c => c.wf
  | .hlkRethread c => c.wf
  | .hlkSetSleep c => c.wf
  | .hlkSetSleepWake c => c.wf
  | .hlkLoopback c => c.wf
  | .hlkIdentify c => c.wf
  | .hlkMgmtRead c => c.wf
  | .hlkMgmtWrite c => c.wf
  | .hlkSetTimers c => c.wf
  | .ackReceive _ _ _ => true
  | .ackSend _ _ => true
  | .badFrameReceive _ _ _ => true
  | .replayTimeout _ _ => true
  | .helloSend _ => true
  | .helloReceive _ _ versions _ => decide (1 ≤ versions.length) && decide (versions.length ≤ 8)
  | .helloTimeout _ => true
  | .helloRetry _ => true
  | .headIdentify _ => true
  | .identifyDone _ identity rank => identity.length == 64 && rank.length == 256
  | .timesyncSend _ => true
  | .timesyncReply _ _ _ _ _ _ => true
  | .statusReceive _ _ _ m => m.temps.length == 4 && m.misses.length == 4
  | .statusSilent _ => true
  | .mgmtReply _ _ _ m => decide (m.data.length ≤ 1024)
  | .mgmtTimeout _ _ => true
  | .frameStart _ _ _ => true
  | .csiLaneState _ _ => true
  | .linePacket _ _ px => px.all fun x => okSample x.1 && okSample x.2.1 && okSample x.2.2
  | .codedBlockEncode _ => true
  | .frameEnd _ _ => true
  | .frameTimeout _ => true
  | .camSetInput c => c.wf
  | .camSetMap c => c.wf
  | .camSetContext c => c.wf
  | .camSetSensor c => c.wf
  | .camSetMatrix c => c.wf
  | .camLoadTone c => c.wf
  | .camSetDefects c => c.wf
  | .camSetOutput c => c.wf
  | .camSetGeometry c => c.wf
  | .camSetFlatfield c => c.wf
  | .camCommit c => c.wf
  | .camSetStats c => c.wf
  | .camSetRate c => c.wf
  | .motTick _ => true
  | .moveStart _ => true
  | .encoderEdge _ _ => true
  | .quadratureError _ => true
  | .inputQualifiedEdge _ _ => true
  | .jogWrite _ _ => true
  | .jogTimeout _ => true
  | .holdDelayExpiry _ => true
  | .motStatRead _ => true
  | .motSetAxis c => c.wf
  | .motSetLimits c => c.wf
  | .motSetBands c => c.wf
  | .motSetInputs c => c.wf
  | .motEnable c => c.wf
  | .motMoveTo c => c.wf
  | .motSetVelocity c => c.wf
  | .motStop c => c.wf
  | .motHome c => c.wf
  | .motSetPosition c => c.wf
  | .motClear c => c.wf
  | .tackFire _ => true
  | .tackArm _ _ => true
  | .tackDisarm _ _ => true
  | .slewComplete _ => true
  | .timSetTbSet c => c.wf
  | .timSetTbStep c => c.wf
  | .timSetTbSlew c => c.wf
  | .timSetTbRate c => c.wf
  | .timSetPort c => c.wf
  | .timSetPtp c => c.wf
  | .timSendMsg c => c.wf
  | .timRecvMsg c => c.wf
  | .ethLinkChange _ _ => true
  | .syncReceive _ m => m.wf
  | .followUpReceive _ m => m.wf
  | .followUpTimeout _ => true
  | .delayReqSend _ _ => true
  | .delayRespReceive _ m => m.wf
  | .delayReqReceive _ m => m.wf
  | .pdelayReqSend _ _ => true
  | .pdelayReqReceive _ m _ => m.wf
  | .pdelayRespReceive _ m _ => m.wf
  | .syncSend _ _ => true
  | .ptpHostMessageReceive _ kind m _ => m.wf && (kind == 0xB || kind == 0xC || kind == 0xD)
  | .syncLossTimeout _ => true
  | .heartbeat _ _ => true
  | .heartbeatLoss _ => true
  | .lockup _ _ => true
  | .mirrorRecordReceive words _ => !words.isEmpty
  | .seqResetRelease _ => true
  | .seqSelftestDone _ _ => true
  | .seqLoadingDone _ => true
  | .thmGntChange _ => true
  | .seqSetSwap c => c.wf
  | .seqSwap c => c.wf
  | .seqRepair c => c.wf
  | .dramBringupDone _ => true
  | .dramReadComplete _ _ _ _ _ _ => true
  | .dramWriteCrcAlert _ _ _ _ => true
  | .refreshTimer _ => true
  | .zqCalibrationTimer _ _ _ => true
  | .dqsOscRead _ _ _ => true
  | .deviceTempRead _ code _ => decide (code < 8)
  | .patrolScrub _ => true
  | .drcPanicChange _ level _ => decide (level ≤ 512 * 1024)
  | .drcRetrainDone _ => true
  | .sramScrub _ _ => true
  | .drcReset c => c.wf
  | .drcRetrain c => c.wf
  | .drcSetRefresh c => c.wf
  | .drcSetQos c => c.wf
  | .drcInject c => c.wf
  | .hkpSlot m => okSlot m
  | .hkpSetChannel c => c.wf
  | .hkpSetThresh c => c.wf
  | .hkpSetHead c => c.wf
  | .hkpSetThrottle c => c.wf
  | .hkpClear c => c.wf
  | .pwmSwitchOn _ => true
  | .ledDutyWrite _ _ => true
  | .strobeEnd _ => true
  | .powerEstimate pins => pins.length == 8
  | .sinkFault _ _ _ => true
  | .chainFifoWrite _ _ => true
  | .chainFrameStart _ => true
  | .chainLatch _ => true
  | .lgtSetSink c => c.wf
  | .lgtSetPwm c => c.wf
  | .lgtSetChain c => c.wf
  | .calRunDone _ _ _ _ => true
  | .calDeferTimeout _ => true
  | .calSet c => c.wf
  | .calRun c => c.wf
  | .pllLock _ => true
  | .pcieLinkUp speed width => okSpeed speed && okWidth width
  | .rcRegisterRead off => aligned4 off.toNat
  | .ethFrameDiscard _ => true
  | .armWinLapse _ => true
  | .pwmSwitchOff _ => true
  | .rateReqUnanswered _ _ => true
  | .powerOnReset => true
  | .brownOut => true
  | .pinReset => true
  | .debugReset => true
  | .sysPllLock => true
  | .sysPllLoss => true
  | .dramPllLoss => true
  | .sdPllLoss => true
  | .pciePllLoss => true
  | .sramInitDone => true
  | .hostImageVerifyDone => true
  | .supplyRecovered => true
  | .thmRestore => true
  | .bmeSet => true
  | .dmaErrLatchClear => true
  | .dmaErrMoreRead => true
  | .bobResetReportRead => true
  | .freezeLatchClear => true
  | .eventDeliver => true
  | .tableCopyDone => true
  | .unpickLineSend => true
  | .panelHem => true
  | .pdpStatRead => true
  | .firUpdate => true
  | .firStatRead => true
  | .mapCopyDone => true
  | .mapReadDone => true
  | .commitWriteEnd => true
  | .swatchAnalysisDone => true
  | .swatchTimeout => true
  | .pipelineLine => true
  | .timCtLoRead => true
  | .takeoverDone => true
  | .mirrorAckTimeout => true
  | .plannedSwap => true
  | .swapDeferRetry => true
  | .drcResetDone => true
  | .throttleGraceExpiry => true
  | .throttleStepExpiry => true
  | .derateUpdate => true
  | .calRunStart => true
  | .camBudgetRefill => true
  | .firmwareInitDone => true

/-- A command that can come. -/
abbrev Instr.WellFormed (i : Instr) : Prop := i.wf = true

end Sys2Proof
end

