-- ==== Sys2Proof/Certificates/Slice0/Obligations.lean ====
section
/-! DEFINITION. The statements about the part. -/

open Sys2Proof Sys2Proof.Machine

/-- SYS.HELLO, SYS.NOP and SYS.CANCEL complete (R95, R96, R111-R113): a query changes nothing and answers the version list; a selection while no
version is in force puts both versions in force and is reported; a no-operation changes nothing; a cancel of a tag that is not outstanding
has outcome 2; one whose target has not started ends it ABANDONED, with outcome 0. -/
def Obligations.SysCommandsComplete : Prop :=
  (∀ s c, Runs s sysNopSpec c → Completes s (.sysNop c) sysNopSpec c stOk 0 [] s) ∧
  (∀ s c, Runs s sysHelloSpec c → pw c 0 = 0 → Completes s (.sysHello c) sysHelloSpec c stOk 0 (versionList s) s) ∧
  (∀ s c (v : Nat), Runs s sysHelloSpec c → v ∈ [0x0300, 0x0301, 0x0302] → pw c 0 = pack [(v, 0), (0x0100, 16)] → s.cmd.cmdVer = 0 →
    let u := { s with cmd := { s.cmd with cmdVer := BitVec.ofNat 16 v, evtVer := 0x0100 } }
    Completes s (.sysHello c) sysHelloSpec c stOk 0 (versionList u) (raise u 5 0 0 (pack [(v, 0), (0x0100, 16)]))) ∧
  (∀ s c p, Runs s sysCancelSpec c → p.val = bits (pw c 0) 17 16 → findTag (begun s sysCancelSpec c) p ((pw c 0).setWidth 16) = none →
    Completes s (.sysCancel c) sysCancelSpec c stOk 0 [2] s) ∧
  (∀ s c p o, Runs s sysCancelSpec c → p.val = bits (pw c 0) 17 16 →
    findTag (begun s sysCancelSpec c) p ((pw c 0).setWidth 16) = some o → o.started = false →
    exec (.sysCancel c) s = .next (answered (finishTag (begun s sysCancelSpec c) p ((pw c 0).setWidth 16) stAbandoned 0) sysCancelSpec c stOk 0 [0]))

/-- The panel commands complete (R162-R166, R220, R512, R614). JOB.OPEN_PANEL, when no check of R614 fails, opens the panel that its structures
in DRAM describe and answers its number and whether it is queued; while the DRAM controller holds requests it waits, fetched, for it. A panel opens
under the next number: active from line 0, its origin a GAP behind the high-water mark, or queued at the end of the active one, its origin a GAP
behind that one's. JOB.READY sets the panel's ready bands. JOB.HEM sets the panel's line count and cuts the cursors back to the new hem; the base and
origin of a panel queued behind it move with it. JOB.ABORT starts the abort, whose reply waits for the panel's report, and closes a queued panel
it names at once. JOB.WAIT_HEM waits for an open panel, and answers with the end kind and counts of a remembered one. -/
def Obligations.JobCommandsComplete : Prop :=
  (∀ s c, Runs s jobOpenPanelSpec c → accessHeld s 1 = false → NoneFails (openChecksHeader c s) → NoneFails (openChecksEntries c s) →
    NoneFails (mapChecks s (openedPanel c s)) →
    exec (.jobOpenPanel c) s = .next (answered (scheduleCmd (openPanel (begun s jobOpenPanelSpec c) (openedPanel c s)) c 0x0201) jobOpenPanelSpec c stOk 0
      [pack [(s.fw.nextPanel.toNat, 0), (b2n s.pdp.active.isSome, 16)]])) ∧
  (∀ s c, Runs s jobOpenPanelSpec c → accessHeld s 1 = true → s.glb.ready.getLsbD 2 = true →
    exec (.jobOpenPanel c) s = .next (hold (addOut s jobOpenPanelSpec.op c) (.openPanel c))) ∧
  (∀ s pan, s.pdp.active = none → throttleStop s = false →
    (openPanel s pan).pdp.active.map (fun x => (x.num, x.base, x.origin)) = some (s.fw.nextPanel, 0, ceil32 s.fir.hwm + pan.gap) ∧
      (openPanel s pan).fw.nextPanel = s.fw.nextPanel + 1) ∧
  (∀ s pan a, s.pdp.active = some a →
    (openPanel s pan).pdp.queued = some { pan with num := s.fw.nextPanel, base := panelEnd a, origin := a.origin + a.lines + pan.gap } ∧
      (openPanel s pan).pdp.active = some a ∧ (openPanel s pan).fw.nextPanel = s.fw.nextPanel + 1) ∧
  (∀ s c pan, Runs s jobReadySpec c → panelNamed s (numOf (pw c 0)) = some pan → pan.ready ≤ (pw c 1).toNat → (pw c 1).toNat ≤ nbands pan.lines →
    Completes s (.jobReady c) jobReadySpec c stOk 0 [] (scheduleCmd (modPanel s pan.num fun x => { x with ready := (pw c 1).toNat }) c 0x0202)) ∧
  (∀ s c pan, Runs s jobHemSpec c → panelNamed s (numOf (pw c 0)) = some pan → 1 ≤ (pw c 1).toNat → (pw c 1).toNat ≤ pan.lines →
    s.fir.next ≤ pan.base + (pw c 1).toNat → (∀ p : Fin 16, (pport s p).sentTop ≤ pan.base + (pw c 1).toNat) →
    exec (.jobHem c) s = .next (answered (scheduleCmd (moveHem (begun s jobHemSpec c) pan (pw c 1).toNat) c 0x0203) jobHemSpec c stOk 0 [])) ∧
  (∀ s pan h, s.pdp.active = some pan →
    (moveHem s pan h).pdp.active.map (fun x => (x.num, x.lines)) = some (pan.num, h) ∧ (moveHem s pan h).pdp.c = min s.pdp.c (pan.base + h) ∧
      (moveHem s pan h).fir = s.fir ∧ (moveHem s pan h).hlk = s.hlk ∧ (moveHem s pan h).dram = s.dram) ∧
  (∀ s pan q h, s.pdp.active = some pan → s.pdp.queued = some q → q.num ≠ pan.num →
    (moveHem s pan h).pdp.queued = some { q with base := pan.base + h, origin := pan.origin + h + q.gap }) ∧
  (∀ s c pan, Runs s jobAbortSpec c → panelNamed s (numOf (pw c 0)) = some pan →
    exec (.jobAbort c) s = .next (closeAborted (accepted (abortPanel c pan (begun s jobAbortSpec c)) jobAbortSpec c))) ∧
  (∀ s c pan, Runs s jobWaitHemSpec c → panelNamed s (numOf (pw c 0)) = some pan →
    Starts s (.jobWaitHem c) c { s with pdp := { s.pdp with waits := s.pdp.waits ++ [(c.pair, c.tag, numOf (pw c 0), none)] } }) ∧
  (∀ s c e, Runs s jobWaitHemSpec c → panelNamed s (numOf (pw c 0)) = none → s.pdp.past.find? (fun e => e.num == numOf (pw c 0)) = some e →
    Completes s (.jobWaitHem c) jobWaitHemSpec c stOk 0 [w32 e.kind, w32 e.fired, w32 e.skipped, w32 e.unfired] s)

/-- The table commands are taken (R167-R170): each starts its copy, or waits for the hem, when its words, its source, its panel and its port allow it. -/
def Obligations.TableCommandsTaken : Prop :=
  (∀ s c, Runs s pdpLoadCurvesSpec c → TableFree s c 0x0301 → (pw c 2).toNat ≤ 196607 → 1 ≤ (pw c 3).toNat → (pw c 2).toNat + (pw c 3).toNat ≤ 196608 →
    SourceOk s c 2 (18 * (pw c 3).toNat) → TableTaken s (.pdpLoadCurves c) c 0x0301) ∧
  (∀ s c, Runs s pdpLoadGlobalCurveSpec c → TableFree s c 0x0302 → SourceOk s c 64 512 → TableTaken s (.pdpLoadGlobalCurve c) c 0x0302) ∧
  (∀ s c, Runs s pdpLoadScreenSpec c → TableFree s c 0x0303 → SourceOk s c 64 (15 * (bits (pw c 2) 15 8 + 1) * (bits (pw c 2) 23 16 + 1)) →
    TableTaken s (.pdpLoadScreen c) c 0x0303) ∧
  (∀ s c, Runs s pdpLoadSeamMaskSpec c → TableFree s c 0x0304 → SourceOk s c 64 4096 → TableTaken s (.pdpLoadSeamMask c) c 0x0304) ∧
  (∀ s c, Runs s pdpSetLevelMapSpec c → TableFree s c 0x0305 → (hport s (portWord c)).identified = true → levelCode (levelsOf c.words) 0 = 0 →
    levelMapOk (levelsOf c.words) (codeWidth s (portWord c)) = true → TableTaken s (.pdpSetLevelMap c) c 0x0305) ∧
  (∀ s c pan, Runs s pdpSetSelvedgeSpec c → TableFree s c 0x0306 → panelNamed s (numOf (w32 (bits (pw c 0) 15 0))) = some pan →
    hemPassed s 0x0306 c.words (numOf (w32 (bits (pw c 0) 15 0))) = false → bits (pw c 0) 18 16 < pan.nplanes → (pw c 1).toNat < (pw c 2).toNat →
    (pw c 2).toNat ≤ pan.width → bits (pw c 3) 4 0 ≤ 16 → TableTaken s (.pdpSetSelvedge c) c 0x0306) ∧
  (∀ s c pan, Runs s pdpSetSeamSpec c → TableFree s c 0x0307 → panelNamed s (numOf (w32 (bits (pw c 0) 15 0))) = some pan →
    hemPassed s 0x0307 c.words (numOf (w32 (bits (pw c 0) 15 0))) = false → bits (pw c 0) 21 16 < pan.seams.length → 8 ≤ bits (pw c 2) 10 0 →
    bits (pw c 2) 10 0 ≤ 1024 → TableTaken s (.pdpSetSeam c) c 0x0307)

/-- PDP's engine runs (from R137, R138, R148, R159, R169, R173, R175-R179, R189 and R198). A copy of a global curve ends with the curve in force
and the generation moved on. A fetched band joins its store with its header's words, as zero ink when its header is rejected, and staging is
filled. A staged raw block joins its band as it is, a coded one as it decodes, and one that fails as zero ink, reported. The next line is computed
and basted on every port that takes part where it has not ended; a discarded line is computed again, and one that needs an invalid table ends
UNFIRED on its port. A basted line is handed over and S moves on; a line queued for unpick is computed with the newest generation, counted and
handed over again. -/
def Obligations.PdpEngineRuns : Prop :=
  (∀ s j, s.pdp.job = some j → j.copying = true → j.op = 0x0302 → dramReady s = true → nextWith (exec .tableCopyDone s) fun t =>
    t.pdp.job = none ∧ t.pdp.gen = s.pdp.gen + 1 ∧ t.dram = s.dram ∧
      t.pdp.gcurve = vset s.pdp.gcurve ⟨bits (j.words.getD 2 0) 2 0, Nat.mod_lt _ (by decide)⟩ (memRead s.dram (addr64 (j.words.getD 0 0) (j.words.getD 1 0)) 512)) ∧
  (∀ s queued re band (pl : Fin 8) pan e, panelSel s queued = some pan → fetchable s pan re band pl.val = true →
    bandEntry s pan band pl.val = e → bandHeaderBad pan e band pl.val = false → addrAt e 8 = 0 →
    bits (wordAt e 0x14) 31 16 = 0 → (wordAt e 0x10).toNat ≤ (pan.planes.getD pl.val {}).ovfBlocks →
    exec (.bandFetch queued re band pl) s = .next (fillStaging (setBands (dropBands s re) re
      (((bandsOf (dropBands s re) re).filter fun x => !bandIs pan band pl.val x) ++ [{
        panel := pan.num, band := band, plane := pl.val, slot := addrAt e 0, slotKind := bits (wordAt e 0x14) 1 0
        ovfFirst := (wordAt e 0x10).toNat, xref := bit (wordAt e 0x20) 20, want := bandBlocks s re pan band pl.val
        blocks := (((bandsOf s re).find? (bandIs pan band pl.val)).map (·.blocks)).getD [] }])) re)) ∧
  (∀ s queued re band (pl : Fin 8) pan e, panelSel s queued = some pan → fetchable s pan re band pl.val = true →
    bandEntry s pan band pl.val = e → bandHeaderBad pan e band pl.val = true →
    let u := bandFault s pan band pl.val 19 0x34 (nblk pan.width) (pack [(0xFFFF, 0), (pl.val, 16)])
    exec (.bandFetch queued re band pl) s = .next (fillStaging (setBands (dropBands u re) re
      (((bandsOf (dropBands u re) re).filter fun x => !bandIs pan band pl.val x) ++ [{
        panel := pan.num, band := band, plane := pl.val, slot := addrAt e 0, slotKind := bits (wordAt e 0x14) 1 0
        ovfFirst := (wordAt e 0x10).toNat, zero := true
        blocks := (((bandsOf s re).find? (bandIs pan band pl.val)).map (·.blocks)).getD [] }])) re)) ∧
  (∀ s e queued re band (pl : Fin 8) i j src pan b,
    panelSel s queued = some pan → (bandsOf s re).find? (bandIs pan band pl.val) = some b → b.coded.find? (fun x => x.1 = i) = some (j, src) →
    refReady s pan b i = true → (re = false → storeRoom s pan band pl.val = true) → (blockPlace (pan.planes.getD pl.val {}) b i).2.2 = false →
    exec (.decodeBlock e queued re band pl i) s = .next (fillStaging (dropBands (modBand s re b fun x =>
      { x with coded := x.coded.filter (·.1 != i), blocks := x.blocks ++ [(i, some src)] }) re) re)) ∧
  (∀ s (e : Fin 2) queued re band (pl : Fin 8) i j src raw pan b (eng : Fin 4), eng.val = e.val →
    panelSel s queued = some pan → (bandsOf s re).find? (bandIs pan band pl.val) = some b → b.coded.find? (fun x => x.1 = i) = some (j, src) →
    b.xref = false → (re = false → storeRoom s pan band pl.val = true) → (blockPlace (pan.planes.getD pl.val {}) b i).2.2 = true →
    ebcDecode (widthCode (pan.planes.getD pl.val {}).format) src none = .ok raw →
    exec (.decodeBlock e queued re band pl i) s = .next (fillStaging (dropBands (modBand (engBlock s eng) re b fun x =>
      { x with coded := x.coded.filter (·.1 != i), blocks := x.blocks ++ [(i, some raw)] }) re) re)) ∧
  (∀ s (e : Fin 2) queued re band (pl : Fin 8) i j src pan b (eng : Fin 4), eng.val = e.val →
    panelSel s queued = some pan → (bandsOf s re).find? (bandIs pan band pl.val) = some b → b.coded.find? (fun x => x.1 = i) = some (j, src) →
    b.xref = false → (re = false → storeRoom s pan band pl.val = true) → (blockPlace (pan.planes.getD pl.val {}) b i).2.2 = true →
    ebcDecode (widthCode (pan.planes.getD pl.val {}).format) src none = .overrun →
    exec (.decodeBlock e queued re band pl i) s = .next (fillStaging (dropBands (modBand
      (blockFault (engOverrun (engBlock s eng) eng) pan.num band pl.val i 0x32) re b fun x =>
      { x with coded := x.coded.filter (·.1 != i), blocks := x.blocks ++ [(i, none)] }) re) re)) ∧
  (∀ s pan, nowC s = s.pdp.c → panelAt s s.pdp.c = some pan → mayCompute s = true → s.pdp.c < paceOf s pan + 64 → usesInvalid s pan = false →
    (s.pdp.c - pan.base) / 8 < pan.ready → bandReady s pan ((s.pdp.c - pan.base) / 8) = true → nextWith (exec (.lineCompute false) s) fun t =>
      t.pdp.c = s.pdp.c + 1 ∧ t.pdp.starved = false ∧ t.pdp.gen = s.pdp.gen ∧ t.dram = s.dram ∧ t.sram = s.sram ∧
      ∀ p ∈ partPorts pan, endedOn s p s.pdp.c = false → ∃ l ∈ (pport t p).lines, l.abs = s.pdp.c ∧ l.gen = s.pdp.gen ∧ l.sent = false) ∧
  (∀ s p abs pan, deadLine s = none → workPort s = some p → missing s p = some abs → panelAt s abs = some pan → mayCompute s = true →
    (pport s p).lines.any (fun l => l.unpick) = false → segReady s pan ((abs - pan.base) / 8) p = true →
    nextWith (exec (.lineCompute true) s) fun t => t.pdp.c = s.pdp.c ∧
      ∃ l ∈ (pport t p).lines, l.abs = abs ∧ l.gen = s.pdp.gen ∧ l.sent = false ∧ l.unpick = false) ∧
  (∀ s p abs pan, mayCompute s = true → deadLine s = some (p, abs, pan) →
    exec (.lineCompute true) s = .next (endOn (setEndKind s pan.num 6) pan p abs false)) ∧
  (∀ s p pan l, sendable s p = some (pan, l) → ((pport s p).lines.any (fun x => x.unpick) = true → (pport s p).s - (pport s p).f < 8) →
    exec (.lineSend p) s = .next (settlePort (sendLine (modPport s p fun q => { q with
      s := q.s + 1, sentTop := max q.sentTop (l.abs + 1)
      lines := q.lines.map fun x => if x.abs = l.abs then { x with sent := true } else x }) p pan.num (l.abs - pan.base) l.rows l.gen none) p)) ∧
  (∀ s p pan l, workPort s = some p → (pport s p).lines.find? (fun x => x.unpick) = some l → panelAt s l.abs = some pan → portUp s p = true →
    guarded s pan p l.abs = false → mayCompute s = true → usesInvalid s pan = false → segReady s pan ((l.abs - pan.base) / 8) p = true →
    ((pport s p).s - (pport s p).f < 8 → sendable s p = none) →
    let rows := portRows s pan (allPlanes s pan (l.abs - pan.base)) (l.abs - pan.base) p
    let u := modPport (tableEcc s pan (l.abs - pan.base) [p]) p fun q => { q with lines := q.lines.map fun x => if x.abs = l.abs then
      { x with unpick := false, gen := s.pdp.gen, rows := rows, old := some (heldGen x) } else x }
    exec .unpickLineSend s = .next (dropBands (closeChanges (sendLine
      (modPpt (noteFirst u pan (l.abs - pan.base) s.pdp.gen) pan.num p fun x => { x with unpicked := x.unpicked + 1 })
      p pan.num (l.abs - pan.base) rows s.pdp.gen (some l.abs)) p) true))

/-- A panel's hem and the register read of PDP (R166, R168, R183, R185, R187, R188). At the hem of the last panel its report lies in DRAM, or is
held while the DRAM controller is frozen, the panel is remembered for JOB.WAIT_HEM, and a table command that waited starts its copy; a panel queued
behind it becomes active. A read of PDP_STAT captures the cursors and answers the word. -/
def Obligations.PanelHemReports : Prop :=
  (∀ s pan, s.pdp.active = some pan → s.pdp.queued = none → (∀ p ∈ partPorts pan, panelEnd pan ≤ (pport s p).f) → s.drc.frozen = false →
    pan.unf = [] → s.nhd.run = none → (∀ p : Fin 16, (hport s p).held = false) →
    nextWith (exec .panelHem s) fun t => t.pdp.active = none ∧ t.pdp.queued = none ∧ t.dram = memWrite s.dram pan.report (reportBytes s pan) ∧
      t.pdp.past = ({ num := pan.num, kind := pan.endKind.getD 0, fired := pan.fired, skipped := pan.skipped, unfired := 0 } ::
        s.pdp.past).take 16 ∧
      t.pdp.job = s.pdp.job.map (fun j => { j with copying := true })) ∧
  (∀ s pan, s.pdp.active = some pan → s.pdp.queued = none → (∀ p ∈ partPorts pan, panelEnd pan ≤ (pport s p).f) → s.drc.frozen = true →
    pan.unf = [] → s.nhd.run = none → s.pdp.held = [] → (∀ p : Fin 16, (hport s p).held = false) →
    nextWith (exec .panelHem s) fun t => t.pdp.active = none ∧ t.dram = s.dram ∧ t.pdp.held = [(pan.num, pan.report, reportBytes s pan)]) ∧
  (∀ s pan q, s.pdp.active = some pan → s.pdp.queued = some q → (∀ p ∈ partPorts pan, panelEnd pan ≤ (pport s p).f) →
    pan.unf = [] → s.nhd.run = none → throttleStop s = false → (∀ p : Fin 16, (hport s p).held = false) →
    nextWith (exec .panelHem s) fun t => t.pdp.active.map (fun x => (x.num, x.base, x.lines)) = some (q.num, q.base, q.lines) ∧ t.pdp.queued = none) ∧
  (∀ s, s.bob.linkUp = true → nextWith (exec .pdpStatRead s) fun t =>
    t.out = s.out ++ [.hostRead .success (natLe (pdpStat s).toNat 4)] ∧ t.pdp.snapC = relLine s (nowC s) ∧
      (∀ p : Fin 16, vget t.pdp.snapS p = relLine s (pport s p).s ∧ vget t.pdp.snapF p = relLine s (pport s p).f))

/-- The FIR commands complete (R216, R223, R237, R251, R252): FIR.SET_FEED sets the source and the estimator and starts A, HWM, the credit
and the decision times afresh; FIR.SET_ROWS sets a port's trim and row offsets; FIR.SET_OVERSPEED sets SKIP_FLOOR and CAP_MARGIN; FIR.CLEAR_FAULT clears the feed fault and
leaves A and HWM as they stand. -/
def Obligations.FirCommandsComplete : Prop :=
  (∀ s c, Runs s firSetFeedSpec c → panelOpen s = false → bits (pw c 0) 1 0 = 0 → (pw c 1).toNat + 2 ^ 32 * bits (pw c 2) 7 0 ≠ 0 →
    (pw c 3).toNat + 2 ^ 32 * bits (pw c 4) 7 0 ≠ 0 →
    ∃ t, exec (.firSetFeed c) s = .next t ∧ Replied s t firSetFeedSpec c stOk 0 [] ∧ t.fir.src = 0 ∧ t.fir.a = 0 ∧ t.fir.hwm = 0 ∧
      t.fir.credit = (2 * tLimOf (min 80000 (thermalRate s)) : Nat) ∧ t.fir.tPrev = none ∧ t.fir.tFired = none ∧ t.pdp = s.pdp ∧ t.dram = s.dram) ∧
  (∀ s c, Runs s firSetFeedSpec c → panelOpen s = false → bits (pw c 0) 1 0 = 1 → axisUsable s (bits (pw c 0) 4 2) = true →
    1 ≤ bits (pw c 0) 15 8 → (bit (pw c 0) 6 = true → bits (pw c 0) 23 20 ≤ 8) → (pw c 1).toNat + 2 ^ 32 * bits (pw c 2) 7 0 ≠ 0 →
    (pw c 3).toNat + 2 ^ 32 * bits (pw c 4) 7 0 ≠ 0 →
    800 ≤ bits (pw c 6) 15 0 → bits (pw c 6) 15 0 ≤ 8000 →
    ∃ t, exec (.firSetFeed c) s = .next t ∧ Replied s t firSetFeedSpec c stOk 0 [] ∧
      t.fir.src = bits (pw c 0) 1 0 ∧ t.fir.tb.val = bits (pw c 0) 25 24 ∧ t.fir.axis = bits (pw c 0) 4 2 ∧ t.fir.dir = bit (pw c 0) 5 ∧ t.fir.enc = bit (pw c 0) 6 ∧
      t.fir.revWin = bits (pw c 0) 15 8 ∧ t.fir.ashift = bits (pw c 0) 19 16 ∧ t.fir.cshift = bits (pw c 0) 23 20 ∧
      t.fir.scale = (pw c 1).toNat + 2 ^ 32 * bits (pw c 2) 7 0 ∧ t.fir.encScale = (pw c 3).toNat + 2 ^ 32 * bits (pw c 4) 7 0 ∧
      t.fir.base = bits (pw c 5) 7 0 ∧ t.fir.extrap = bits (pw c 5) 15 8 ∧ t.fir.stop = bits (pw c 5) 22 16 ∧ t.fir.lead = bits (pw c 6) 15 0 ∧
      t.fir.vrate = (pw c 7).toNat ∧ t.fir.a = 0 ∧ t.fir.hwm = 0 ∧ t.fir.credit = (2 * tLimOf (min 80000 (thermalRate s)) : Nat) ∧
      t.fir.tPrev = none ∧ t.fir.tFired = none ∧ t.pdp = s.pdp ∧ t.mot = s.mot) ∧
  (∀ s c, Runs s firSetFeedSpec c → panelOpen s = false → bits (pw c 0) 1 0 = 2 → axisUsable s (bits (pw c 0) 4 2) = true →
    1 ≤ bits (pw c 0) 15 8 → bits (pw c 0) 19 16 ≤ 8 → (pw c 1).toNat + 2 ^ 32 * bits (pw c 2) 7 0 ≠ 0 →
    (pw c 3).toNat + 2 ^ 32 * bits (pw c 4) 7 0 ≠ 0 →
    1 ≤ bits (pw c 5) 7 0 → bits (pw c 5) 7 0 ≤ 200 → 4 ≤ bits (pw c 5) 15 8 → bits (pw c 5) 15 8 ≤ 100 → 1 ≤ bits (pw c 5) 22 16 → bits (pw c 5) 22 16 ≤ 100 →
    800 ≤ bits (pw c 6) 15 0 → bits (pw c 6) 15 0 ≤ 8000 →
    ∃ t, exec (.firSetFeed c) s = .next t ∧ Replied s t firSetFeedSpec c stOk 0 [] ∧
      t.fir.src = bits (pw c 0) 1 0 ∧ t.fir.tb.val = bits (pw c 0) 25 24 ∧ t.fir.axis = bits (pw c 0) 4 2 ∧ t.fir.dir = bit (pw c 0) 5 ∧ t.fir.enc = bit (pw c 0) 6 ∧
      t.fir.revWin = bits (pw c 0) 15 8 ∧ t.fir.ashift = bits (pw c 0) 19 16 ∧ t.fir.cshift = bits (pw c 0) 23 20 ∧
      t.fir.scale = (pw c 1).toNat + 2 ^ 32 * bits (pw c 2) 7 0 ∧ t.fir.encScale = (pw c 3).toNat + 2 ^ 32 * bits (pw c 4) 7 0 ∧
      t.fir.base = bits (pw c 5) 7 0 ∧ t.fir.extrap = bits (pw c 5) 15 8 ∧ t.fir.stop = bits (pw c 5) 22 16 ∧ t.fir.lead = bits (pw c 6) 15 0 ∧
      t.fir.vrate = (pw c 7).toNat ∧ t.fir.a = 0 ∧ t.fir.hwm = 0 ∧ t.fir.credit = (2 * tLimOf (min 80000 (thermalRate s)) : Nat) ∧
      t.fir.tPrev = none ∧ t.fir.tFired = none ∧ t.pdp = s.pdp ∧ t.mot = s.mot) ∧
  (∀ s c, Runs s firSetFeedSpec c → panelOpen s = false → bits (pw c 0) 1 0 = 3 → (pw c 1).toNat + 2 ^ 32 * bits (pw c 2) 7 0 ≠ 0 → (pw c 3).toNat + 2 ^ 32 * bits (pw c 4) 7 0 ≠ 0 →
    800 ≤ bits (pw c 6) 15 0 → bits (pw c 6) 15 0 ≤ 8000 →
    ∃ t, exec (.firSetFeed c) s = .next t ∧ Replied s t firSetFeedSpec c stOk 0 [] ∧
      t.fir.src = bits (pw c 0) 1 0 ∧ t.fir.tb.val = bits (pw c 0) 25 24 ∧ t.fir.axis = bits (pw c 0) 4 2 ∧ t.fir.dir = bit (pw c 0) 5 ∧ t.fir.enc = bit (pw c 0) 6 ∧
      t.fir.revWin = bits (pw c 0) 15 8 ∧ t.fir.ashift = bits (pw c 0) 19 16 ∧ t.fir.cshift = bits (pw c 0) 23 20 ∧
      t.fir.scale = (pw c 1).toNat + 2 ^ 32 * bits (pw c 2) 7 0 ∧ t.fir.encScale = (pw c 3).toNat + 2 ^ 32 * bits (pw c 4) 7 0 ∧
      t.fir.base = bits (pw c 5) 7 0 ∧ t.fir.extrap = bits (pw c 5) 15 8 ∧ t.fir.stop = bits (pw c 5) 22 16 ∧ t.fir.lead = bits (pw c 6) 15 0 ∧
      t.fir.vrate = (pw c 7).toNat ∧ t.fir.a = 0 ∧ t.fir.hwm = 0 ∧ t.fir.credit = (2 * tLimOf (min 80000 (thermalRate s)) : Nat) ∧
      t.fir.tPrev = none ∧ t.fir.tFired = none ∧ t.pdp = s.pdp ∧ t.mot = s.mot) ∧
  (∀ s c (p : Fin 16), Runs s firSetRowsSpec c → p.val = bits (pw c 0) 3 0 → panelOpen s = false → -400000 ≤ sbits (pw c 1) 31 0 → sbits (pw c 1) 31 0 ≤ 400000 →
    Completes s (.firSetRows c) firSetRowsSpec c stOk 0 [] (touch { s with fir := { s.fir with
      trim := vset s.fir.trim p (sbits (pw c 1) 31 0)
      rowOff := (indices 32).foldl (fun v r => vset v (laneOf p r) (bits (pw c (2 + r.val)) 23 0)) s.fir.rowOff } } .fir)) ∧
  (∀ s c, Runs s firSetOverspeedSpec c → 128 ≤ bits (pw c 0) 7 0 → 192 ≤ bits (pw c 0) 15 8 →
    Completes s (.firSetOverspeed c) firSetOverspeedSpec c stOk 0 []
      (touch { s with fir := { s.fir with skipFloor := bits (pw c 0) 7 0, capMargin := bits (pw c 0) 15 8 } } .fir)) ∧
  (∀ s c, Runs s firClearFaultSpec c →
    Completes s (.firClearFault c) firClearFaultSpec c stOk 0 [] (touch { s with fir := { s.fir with feedFault := false } } .fir))

/-- FIR's update and what ends a line run (from R216, R221, R229, R232, R245, R247, R255 and R339). With no panel open, an update at a multiple of
400 FIRE cycles samples the feed and raises HWM. A stitch frame goes out on the port's quicker lane, inserted into the frame in progress where that
may be, and leaves the list; one that finds no room goes back to the front. The line whose last row fires next is FIRED at that instant. JET_EN is
taken after its filter. A read of FIR_STAT captures P, HWM and v of the latest update. -/
def Obligations.FirEngineRuns : Prop :=
  (∀ s, s.glb.sysLock = true → s.pdp.active = none → s.pdp.queued = none → s.fir.src = 2 → s.fir.decs = [] → nextWith (exec .firUpdate s) fun t =>
    t.ct = max (ceilDiv s.ct 400 * 400) (s.fir.updAt + 400) ∧ t.fir.updAt = t.ct ∧ t.fir.a = s.fir.a ∧ t.fir.hwm = max s.fir.hwm s.fir.a ∧
      t.fir.posU = t.fir.hwm ∧ t.fir.updA = s.fir.a ∧ t.fir.next = s.fir.next) ∧
  (∀ s p st rest l, vget s.fir.stitches p = st :: rest →
    let u := pump { s with fir := { s.fir with stitches := vset s.fir.stitches p rest } } p
    portUp u p = true → quickLane u p = some l → (hport u p).helloDone = true → roomFor u p l (.stitch st) = true →
    nextWith (exec (.stitchSend p) s) fun t => vget t.fir.stitches p = rest ∧ t.fir.commits = s.fir.commits ∧
      t.out = (idleUp u p l).out ++ [.frame p l (frameBlocks (insertAt (idleUp u p l) (laneOfPort (idleUp u p l) p l)).isSome
        (frameBytes (hport u p).version (some (laneOfPort u p l).txSeq) false u.seq.epoch (.stitch st)))]) ∧
  (∀ s p st rest l, vget s.fir.stitches p = st :: rest →
    let u := pump { s with fir := { s.fir with stitches := vset s.fir.stitches p rest } } p
    portUp u p = true → quickLane u p = some l → (hport u p).helloDone = true → roomFor u p l (.stitch st) = false →
    let w := laneStall u p l
    exec (.stitchSend p) s = .next { w with fir := { w.fir with stitches := vset w.fir.stitches p (st :: rest) } }) ∧
  (∀ s p pan abs t0, s.glb.sysLock = true → fullLines s p = [(pan, abs, t0)] → nextWith (exec (.lineFired p) s) fun t =>
    t.ct = max s.ct t0 ∧ (vget t.fir.commits p) = (vget s.fir.commits p).filter (fun c => c.abs != abs) ∧
      vget t.fir.recent p = vget s.fir.recent p ++ [(pan.num, abs - pan.base, ((vget s.fir.commits p).filter (fun c => c.abs == abs)).map (fun c => c.at'))] ∧
      t.fir.next = s.fir.next) ∧
  (∀ s b, nextWith (exec (.jetEnChange b) s) fun t => t.fir.jetEn = b ∧ t.pdp = s.pdp ∧ (s.fir.jetEn = b → t.ct = s.ct) ∧
    (s.fir.jetEn ≠ b → s.glb.sysLock = true → t.ct = s.ct + 20)) ∧
  (∀ s, s.bob.linkUp = true → nextWith (exec .firStatRead s) fun t => t.out = s.out ++ [.hostRead .success (natLe (firStat s).toNat 4)] ∧
    t.fir.snapHwm = s.fir.posU / 2 ^ 16 ∧ t.fir.snapV = s.fir.updVel ∧ (s.pdp.active = none → t.fir.snapP = s.fir.updA / 2 ^ 16) ∧
    (∀ pan, s.pdp.active = some pan → t.fir.snapP = (s.fir.updA - pan.origin * one32) / 2 ^ 16))

/-- The bar decision's credit (R237): from its second decision on, the credit grows by the time since the last decision up to twice T_lim; a line that
falls due in time, is not lagged and has ended on no port, is decided FIRE and takes T_lim from the credit. -/
def Obligations.CreditOfDecisions : Prop :=
  ∀ s pan abs (at' t0 : Nat), s.fir.tPrev = some t0 → laggingPort s pan abs = none →
    (∀ p ∈ partPorts pan, endedOn s p abs = false) →
    ((tLim s pan : Int) ≤ min ((2 * tLim s pan : Nat) : Int) (s.fir.credit + ((at' : Int) - t0)) →
      (∀ t1, s.fir.tFired = some t1 → ((tLim s pan * s.fir.skipFloor / 256 : Nat) : Int) ≤ (at' : Int) - t1) →
      (decideLine s pan abs at').fir.credit = min ((2 * tLim s pan : Nat) : Int) (s.fir.credit + ((at' : Int) - t0)) - tLim s pan ∧
      (decideLine s pan abs at').fir.next = abs + 1 ∧ (decideLine s pan abs at').fir.tFired = some at' ∧
      (decideLine s pan abs at').fir.decs = s.fir.decs ++ [{ abs := abs, left := partPorts pan }]) ∧
    ((min ((2 * tLim s pan : Nat) : Int) (s.fir.credit + ((at' : Int) - t0)) < tLim s pan) → pan.overspeed ≠ 1 →
      (decideLine s pan abs at').fir.credit = min ((2 * tLim s pan : Nat) : Int) (s.fir.credit + ((at' : Int) - t0)) ∧
      (decideLine s pan abs at').fir.next = abs + 1 ∧ (decideLine s pan abs at').fir.tFired = s.fir.tFired ∧
      (decideLine s pan abs at').fir.decs = s.fir.decs)

/-- The commands that stage and set NHD's state complete (R261, R272, R277, R290, R294): an entry or a range is staged and clears the evidence of its
nozzles; staging is emptied with the count of staged entries as result; a kernel is staged in place of an earlier one of its plane; the policy and a gate's
settings are taken. -/
def Obligations.NhdSettingsComplete : Prop :=
  (∀ s c, Runs s setNozzlesSpec c → 1 ≤ (nozzlePairs c).length → (nozzlePairs c).length ≤ 1020 →
    (∀ k ∈ nozzlePairs c, k.1 < 196608 ∧ entryState k.2 ≤ 4) →
    stagedEntries s + (((nozzlePairs c).map (·.1)).eraseDups.filter fun n => !s.nhd.staged.any (isEntryOf n)).length ≤ 4096 →
    exec (.nhdSetNozzles c) s = .next (answered (touch ((nozzlePairs c).foldl (fun s k => stageEntry s k.1 k.2) (begun s setNozzlesSpec c)) .nhd)
      setNozzlesSpec c stOk 0 [])) ∧
  (∀ s c, Runs s nhdSetRangeSpec c → 1 ≤ (pw c 1).toNat → (pw c 0).toNat + (pw c 1).toNat ≤ 196608 → entryState ((pw c 2).setWidth 16) ≤ 4 →
    stagedRanges s < 64 →
    Completes s (.nhdSetRange c) nhdSetRangeSpec c stOk 0 [] (touch { s with nhd := { s.nhd with
      staged := s.nhd.staged ++ [.range (pw c 0).toNat (pw c 1).toNat ((pw c 2).setWidth 16)]
      evidence := s.nhd.evidence.filter fun e => !((pw c 0).toNat ≤ e.nozzle && e.nozzle < (pw c 0).toNat + (pw c 1).toNat) } } .nhd)) ∧
  (∀ s c, Runs s nhdDiscardStagedSpec c → Completes s (.nhdDiscardStaged c) nhdDiscardStagedSpec c stOk 0 [w32 (stagedEntries s)]
    (touch { s with nhd := { s.nhd with staged := [], stagedKernels := [] } } .nhd)) ∧
  (∀ s c, Runs s nhdSetKernelSpec c → bits (pw c 2) 8 0 ≤ 256 → bits (pw c 2) 24 16 ≤ 256 → 1 ≤ bits (pw c 3) 4 0 → bits (pw c 3) 4 0 ≤ 16 →
    Completes s (.nhdSetKernel c) nhdSetKernelSpec c stOk 0 [] (touch { s with nhd := { s.nhd with
      stagedKernels := s.nhd.stagedKernels.filter (fun k => k.1 != bits (pw c 0) 2 0) ++ [(bits (pw c 0) 2 0,
        { w1 := bits (pw c 1) 7 0, w2 := bits (pw c 1) 15 8, w3 := bits (pw c 1) 23 16, wr := bits (pw c 2) 8 0
          weakGive := bits (pw c 2) 24 16, devMove := bits (pw c 3) 4 0 })] } } .nhd)) ∧
  (∀ s c, Runs s nhdSetPolicySpec c → bits (pw c 0) 3 2 ≠ 3 → bit (pw c 0) 4 = true →
    Completes s (.nhdSetPolicy c) nhdSetPolicySpec c stOk 0 [] (touch { s with nhd := { s.nhd with
      autoGate := bit (pw c 0) 0, autoSwatch := bit (pw c 0) 1, autoMode := bits (pw c 0) 3 2, portOverlay := true } } .nhd)) ∧
  (∀ s c, Runs s nhdSetPolicySpec c → bits (pw c 0) 3 2 ≠ 3 → bit (pw c 0) 4 = false →
    exec (.nhdSetPolicy c) s = .next (answered (touch ((indices 16).foldl (fun s p => overlayChange s p false)
      (modNhd (begun s nhdSetPolicySpec c) fun x => { x with
        autoGate := bit (pw c 0) 0, autoSwatch := bit (pw c 0) 1, autoMode := bits (pw c 0) 3 2, portOverlay := false })) .nhd)
      nhdSetPolicySpec c stOk 0 [])) ∧
  (∀ s c (g : Fin 2), Runs s nhdSetGateSpec c → g.val = bits (pw c 0) 0 0 →
    Completes s (.nhdSetGate c) nhdSetGateSpec c stOk 0 [] (touch { s with nhd := { s.nhd with
      gates := vset s.nhd.gates g { vget s.nhd.gates g with sink := bits (pw c 0) 3 1, thresh := bits (pw c 1) 11 0, delay := bits (pw c 2) 15 0 } } } .nhd))

/-- The nozzle map's commits and copies (R262-R267, R294): a commit takes the staged items and kernels and writes them, at once or after the hem; the
end of its write puts a staged entry in the map, takes its kernels, counts the version and stamps it, and moves PDP's generation on. A whole-map copy
is committed when it ends. A range as it stands is copied to DRAM and answered with the version. -/
def Obligations.NozzleMapCommits : Prop :=
  (∀ s c, Runs s nhdCommitMapSpec c → bits (pw c 0) 1 0 ≤ 2 → (bits (pw c 0) 1 0 = 2 → hemTaken s = false) →
    Starts s (.nhdCommitMap c) c (touch (queueCommit { s with nhd := { s.nhd with staged := [], stagedKernels := [] } }
      { mode := bits (pw c 0) 1 0, items := s.nhd.staged, kernels := s.nhd.stagedKernels, cmd := some (c.pair, c.tag) }) .nhd)) ∧
  (∀ s (j : CommitJob), j.mode = 2 → s.pdp.active.isSome = true → queueCommit s j = { s with nhd := { s.nhd with hem := some j } }) ∧
  (∀ s (j : CommitJob), (j.mode = 2 → s.pdp.active = none) → queueCommit s j = { s with nhd := { s.nhd with writes := s.nhd.writes ++ [j] } }) ∧
  (∀ s c, Runs s nhdLoadMapSpec c → addr64 (pw c 0) (pw c 1) % 64 = 0 → inSpace s 1 (addr64 (pw c 0) (pw c 1)) 393216 = true →
    bits (pw c 2) 1 0 ≤ 2 → (bits (pw c 2) 1 0 = 2 → hemTaken s = false) → s.nhd.load = none → s.nhd.read = none → s.drc.frozen = false →
    Starts s (.nhdLoadMap c) c (touch { s with nhd := { s.nhd with load := some (some (c.pair, c.tag), c.words) } } .nhd)) ∧
  (∀ s c, Runs s nhdReadMapSpec c → addr64 (pw c 0) (pw c 1) % 64 = 0 → inSpace s 1 (addr64 (pw c 0) (pw c 1)) (2 * (pw c 3).toNat) = true →
    (pw c 2).toNat < 196608 → (pw c 2).toNat + (pw c 3).toNat ≤ 196608 → s.nhd.load = none → s.nhd.read = none → s.drc.frozen = false →
    Starts s (.nhdReadMap c) c (touch { s with nhd := { s.nhd with read := some (some (c.pair, c.tag), c.words) } } .nhd)) ∧
  (∀ s cmd ws, s.nhd.load = some (cmd, ws) → dramReady s = true →
    exec .mapCopyDone s = .next (queueCommit { s with nhd := { s.nhd with load := none } }
      { source := .load, mode := bits (ws.getD 2 0) 1 0, image := some (memRead s.dram (addr64 (ws.getD 0 0) (ws.getD 1 0)) 393216), cmd := cmd })) ∧
  (∀ s cmd ws, s.nhd.read = some (cmd, ws) → dramReady s = true →
    let u := dramWrite s (addr64 (ws.getD 0 0) (ws.getD 1 0)) (memRead s.sram (0x13E0000 + 2 * (ws.getD 2 0).toNat) (2 * (ws.getD 3 0).toNat))
    exec .mapReadDone s = .next (finishOpt { u with nhd := { u.nhd with read := none } } cmd stOk 0 [s.nhd.version])) ∧
  (∀ s (j : CommitJob) rest, s.nhd.writes = j :: rest → nextWith (exec .commitWriteEnd s) fun t =>
    t.nhd.version = s.nhd.version + 1 ∧ t.nhd.commitCt = s.ct ∧ t.nhd.writes = rest ∧ t.nhd.kernels = j.kernels.foldl putKernel s.nhd.kernels ∧
      t.pdp.gen = s.pdp.gen + 1) ∧
  (∀ s (j : CommitJob) rest n v, s.nhd.writes = j :: rest → j.image = none → j.items = [.entry n v] → n < 196608 → memWf s.sram = true →
    nextWith (exec .commitWriteEnd s) fun t => memRead t.sram (0x13E0000 + 2 * n) 2 = natLe v.toNat 2)

/-- The commands and events of the two detectors complete (R277-R285, R292, R293): a gate run starts when its conditions hold and numbers itself as a
panel; a drop fires at the run's next instant, or as soon as it can reach the head; a crossing in the window of a drop counts as its hit; a
paused run resumes; a run whose drops have all fired ends with its records in DRAM. A swatch is defined, placed, analysed with its records in DRAM, or
given up when no frame comes for it. -/
def Obligations.DetectorRowsComplete : Prop :=
  (∀ s c (g p : Fin 2) (port : Fin 16), Runs s nhdGateRunSpec c → g.val = bits (pw c 0) 0 0 → p.val = 1 - g.val → port.val = bits (pw c 0) 7 4 →
    NoneFails (gateConditions s port (bits (pw c 0) 11 8)) → (gateOf s g).run = none → (∀ r, (gateOf s p).run = some r → r.port ≠ port) →
    1 ≤ bits (pw c 0) 16 12 → bits (pw c 0) 16 12 ≤ 16 → 1 ≤ bits (pw c 0) 21 17 → bits (pw c 0) 21 17 ≤ bits (pw c 0) 16 12 →
    gateRows (pw c 1) ≠ [] → 1 ≤ bits (pw c 2) 24 16 → bits (pw c 2) 24 16 ≤ 384 →
    (∀ r ∈ gateRows (pw c 1), rowNozzles s port r.val ≠ 0 ∧ bits (pw c 2) 8 0 + bits (pw c 2) 24 16 ≤ rowNozzles s port r.val) →
    headTLim s port ≤ (pw c 3).toNat → lo16 (pw c 4) ≤ hi16 (pw c 4) → 4 * (hi16 (pw c 4) - lo16 (pw c 4)) < (pw c 3).toNat →
    inSpace s 1 (addr64 (pw c 7) (pw c 8)) (8 * ((gateRows (pw c 1)).flatMap fun _ => List.range (bits (pw c 2) 24 16)).length) = true →
    ∃ t, exec (.nhdGateRun c) s = .next t ∧ Underway t c ∧ ∃ r, (gateOf t g).run = some r ∧ r.port = port ∧ r.panel = s.fw.nextPanel ∧
      r.drops = bits (pw c 0) 16 12 ∧ r.period = (pw c 3).toNat ∧ r.fired = 0 ∧ r.buf = addr64 (pw c 7) (pw c 8) ∧ s.ct + 800 ≤ r.nextAt ∧
      t.fw.nextPanel = s.fw.nextPanel + 1 ∧ t.dram = s.dram ∧ t.fir = s.fir ∧ t.pdp = s.pdp) ∧
  (∀ s g r, (gateOf s g).run = some r → r.fired < r.drops * r.nozzles.length → r.pausedAt = none → r.stop = none → r.pauseReq = false →
    let u := advanceTo s (r.nextAt - s.fir.lead - portDelayCt s r.port - 400)
    gateHolds u r.port = true →
    ∃ t, exec (.gateDrop g) s = .next t ∧ ∃ r', (gateOf t g).run = some r' ∧ r'.fired = r.fired + 1 ∧ r'.shots = r.shots ++ [max r.nextAt (gateReach u r.port)] ∧
      r'.nextAt = max r.nextAt (gateReach u r.port) + r.period ∧
      (gateOf t g).pos = r.nozzles.getD (r.fired / r.drops) 0) ∧
  (∀ s g r (i : Nat) (b d : BitVec 12), (gateOf s g).run = some r → i < r.shots.length → (∀ j < i, ¬ (r.shots.getD j 0 + 4 * r.tofLo ≤ s.ct - (gateOf s g).delay ∧
      s.ct - (gateOf s g).delay ≤ r.shots.getD j 0 + 4 * r.tofHi)) →
    r.shots.getD i 0 + 4 * r.tofLo ≤ s.ct - (gateOf s g).delay → s.ct - (gateOf s g).delay ≤ r.shots.getD i 0 + 4 * r.tofHi →
    r.hits.any (fun h => h.1 == i) = false → (gateOf s g).thresh < d.toNat →
    nextWith (exec (.gateCrossing g b d) s) fun t => (gateOf t g).baseline = b.toNat ∧
      (gateOf t g).run = some { r with hits := r.hits ++ [(i, s.ct - (gateOf s g).delay - r.shots.getD i 0, d.toNat)] }) ∧
  (∀ s g r t0, (gateOf s g).run = some r → r.pausedAt = some t0 →
    ∃ t, exec (.gateResume g) s = .next t ∧ ∃ r', (gateOf t g).run = some r' ∧ r'.pausedAt = none ∧ r'.pauseReq = false ∧
      r'.nextAt = max r.nextAt (gateReach (advanceTo s (t0 + 100000)) r.port) ∧
      r'.fired = r.fired ∧ r'.hits = r.hits) ∧
  (∀ s g r, (gateOf s g).run = some r → r.drops * r.nozzles.length ≤ r.fired → dramReady s = true →
    let u := advanceTo s (r.shots.getLastD 0 + 4 * r.tofHi)
    nextWith (exec (.gateRunEnd g) s) fun t => (gateOf t g).run = none ∧
      t.dram = memWrite s.dram r.buf (((List.range r.nozzles.length).map fun j => (gateRecord u r r.nozzles.length j).1).flatMap gateRecBytes)) ∧
  (∀ s c, Runs s setSwatchSpec c → s.nhd.run = none → 4 ≤ (swatchOf c).stride → (swatchOf c).stride ≤ 32 → 2 ≤ (swatchOf c).dash →
    (swatchOf c).dash + 2 ≤ (swatchOf c).pitch → 1 ≤ (swatchOf c).code → (swatchOf c).du ≠ 0 → (swatchOf c).dv ≠ 0 → 1 ≤ (swatchOf c).confirmBad →
    1 ≤ (swatchOf c).confirmGood → 1 ≤ (swatchOf c).rows.length → (swatchOf c).rows.length ≤ 512 → stagedBad s (swatchOf c).context = false →
    exec (.nhdSetSwatch c) s = .next (accepted (touch (commitSet (modNhd (begun s setSwatchSpec c) fun n => { n with swatch := some (swatchOf c) })
      (swatchOf c).context (some (swatchOf c)) { pair := c.pair, tag := c.tag, isSwatch := true }) .nhd) setSwatchSpec c)) ∧
  (∀ s c d pan, Runs s nhdPrintSwatchSpec c → s.nhd.swatch = some d → s.nhd.run = none → panelNamed s ((pw c 0).setWidth 16) = some pan →
    nowC s ≤ pan.base + (pw c 1).toNat → (pw c 1).toNat + swatchLen d ≤ pan.lines →
    (∀ g ∈ d.rows, d.code < 2 ^ codeWidth s (portOf g.1)) → layersClash pan d.rows = false →
    inSpace s 1 (addr64 (pw c 2) (pw c 3)) (8 * (d.rows.map fun g => rowNozzles s (portOf g.1) (rowOf g.1).val).sum) = true →
    Starts s (.nhdPrintSwatch c) c (scheduleCmd (touch { s with nhd := { s.nhd with run := some {
      pair := c.pair, tag := c.tag, panel := (pw c 0).setWidth 16, base := pan.base, map := pan.map, width := pan.width
      start := (pw c 1).toNat, buf := addr64 (pw c 2) (pw c 3) } } } .nhd) c 0x050C)) ∧
  (∀ s r d d0, s.nhd.run = some r → s.nhd.swatch = some d0 → s.nhd.swatchNow.getD d0 = d → r.frameEnd = some 0 → dramReady s = true →
    let ns := swatchNozzles s r d
    nextWith (exec .swatchAnalysisDone s) fun t => t.nhd.run = none ∧ t.freeCtr = s.freeCtr + ns.length ∧
      t.dram = memWrite s.dram r.buf ((List.range ns.length).flatMap fun i =>
        (swatchRecord s d ns (ns.getD i {}) (Config.freeWord (s.freeCtr + i))).2.1)) ∧
  (∀ s r d f, s.nhd.run = some r → s.nhd.swatch = some d → r.firedAt = some f → r.frame = none → s.glb.sysLock = true →
    exec .swatchTimeout s = .next (swatchLost (advanceTo s (f + us d.delay + sec 1)) 3))

/-- A lane trains (from R303 to R310 and R315). Signal starts ACQUIRE with preset 0, after a rate change at the new rate; a loss of signal or lock falls
back; presets follow one another every 100 us; lock starts SCREEN; each screened preset is ranked by errors and score, and after the sixteenth the best
is checked; a check without an error makes READY, or GO when the far end is ready, and the third preset that fails parks the lane; timeouts park it for
a wait that doubles up to 25.6 s; the eighth GO puts it in service; the end of the wait starts an attempt at the target rate. The training stream
says each change. -/
def Obligations.LaneTrains : Prop :=
  (∀ s p l, (laneOfPort s p l).state = .noSignal →
    exec (.signalDetect p l) s = .next (sendTrain (modLane s p l fun x => { x with state := .acquire, preset := 0, acqAt := s.ct, stepAt := s.ct }) p l)) ∧
  (∀ s p l r, (laneOfPort s p l).state = .rateSwitch → (laneOfPort s p l).rateReq = some r → nextWith (exec (.signalDetect p l) s) fun t =>
    (laneOfPort t p l).state = .acquire ∧ (laneOfPort t p l).rate = r ∧ (laneOfPort t p l).preset = 0 ∧ (laneOfPort t p l).rateReq = none) ∧
  (∀ s p l, training (laneOfPort s p l) = true →
    exec (.signalLoss p l false) s = .next (sendTrain (modLane s p l fun x => { x with state := .noSignal }) p l)) ∧
  (∀ s p l, training (laneOfPort s p l) = true → (laneOfPort s p l).state ≠ .acquire → exec (.signalLoss p l true) s =
    .next (sendTrain (modLane s p l fun x => { x with state := .acquire, preset := 0, acqAt := s.ct, stepAt := s.ct }) p l)) ∧
  (∀ s p l, (laneOfPort s p l).state = .acquire →
    let u := advanceTo s ((laneOfPort s p l).stepAt + us 100)
    exec (.presetStep p l) s = .next (sendTrain (modLane u p l fun x => { x with preset := (x.preset + 1) % 16, stepAt := u.ct }) p l)) ∧
  (∀ s p l inv, (laneOfPort s p l).state = .acquire → exec (.blockLock p l inv) s = .next (sendTrain (modLane s p l fun x => { x with
    state := .screen, polInv := inv, screening := 0, preset := 0, ranked := [], passMask := 0, failed := 0, stageAt := s.ct }) p l)) ∧
  (∀ s p l e (sc : Fin 64), (laneOfPort s p l).state = .screen → (laneOfPort s p l).screening < 15 →
    let u := advanceTo s ((laneOfPort s p l).stageAt + us 50 + ceilDiv (2 ^ 17 * blockTime (laneOfPort s p l).rate) 100)
    exec (.screenPresetDone p l e sc) s = .next (sendTrain (modLane u p l fun x => { x with
      screening := x.screening + 1, preset := x.screening + 1, stageAt := u.ct
      ranked := if e = 0 then rankPreset x.ranked x.screening sc.val else x.ranked
      passMask := if e = 0 then x.passMask + 2 ^ x.screening else x.passMask }) p l)) ∧
  (∀ s p l (sc : Fin 64) k sc' rest, (laneOfPort s p l).state = .screen → (laneOfPort s p l).screening = 15 →
    rankPreset (laneOfPort s p l).ranked 15 sc.val = (k, sc') :: rest → nextWith (exec (.screenPresetDone p l 0 sc) s) fun t =>
      (laneOfPort t p l).state = .check ∧ (laneOfPort t p l).preset = k ∧ (laneOfPort t p l).ranked = (k, sc') :: rest) ∧
  (∀ s p l k sc rest, (laneOfPort s p l).state = .check → (laneOfPort s p l).ranked = (k, sc) :: rest → nextWith (exec (.checkDone p l 0) s) fun t =>
    (laneOfPort t p l).margin = sc ∧ (laneOfPort t p l).ranked = rest ∧
    (laneOfPort t p l).state = (if (laneOfPort s p l).farReady = true then .go else .ready)) ∧
  (∀ s p l (e : Nat) k k' sc sc' rest, (laneOfPort s p l).state = .check → e ≠ 0 → (laneOfPort s p l).failed < 2 →
    (laneOfPort s p l).ranked = (k, sc) :: (k', sc') :: rest → nextWith (exec (.checkDone p l e) s) fun t =>
      (laneOfPort t p l).state = .check ∧ (laneOfPort t p l).preset = k' ∧ (laneOfPort t p l).failed = (laneOfPort s p l).failed + 1) ∧
  (∀ s p l (e : Nat), (laneOfPort s p l).state = .check → e ≠ 0 → 2 ≤ (laneOfPort s p l).failed → nextWith (exec (.checkDone p l e) s) fun t =>
    (laneOfPort t p l).state = .unthreaded ∧ (laneOfPort t p l).lastPark = 2) ∧
  (∀ s p l, (laneOfPort s p l).state = .acquire →
    exec (.acquireTimeout p l) s = .next (parkLane (advanceTo s ((laneOfPort s p l).acqAt + ms 10)) p l 1)) ∧
  (∀ s p l, (laneOfPort s p l).state = .ready →
    exec (.readyTimeout p l) s = .next (parkLane (advanceTo s ((laneOfPort s p l).readyAt + sec 1)) p l 3)) ∧
  (∀ s p l reason (k : Nat), k = (match (laneOfPort s p l).step with | some k => min 8 (k + 1) | none => 0) →
    (laneOfPort (parkLane s p l reason) p l).state = .unthreaded ∧ (laneOfPort (parkLane s p l reason) p l).lastPark = reason ∧
      (laneOfPort (parkLane s p l reason) p l).step = some k ∧ (laneOfPort (parkLane s p l reason) p l).nextAt = s.ct + ms (100 * 2 ^ k)) ∧
  (∀ s p l, (laneOfPort s p l).state = .go → nextWith (exec (.goComplete p l) s) fun t =>
    (laneOfPort t p l).state = .up ∧ (laneOfPort t p l).step = none ∧ (laneOfPort t p l).attempts = 0 ∧ (laneOfPort t p l).rxNext = 0) ∧
  (∀ s p l, (laneOfPort s p l).state = .unthreaded → nextWith (exec (.backoffExpiry p l) s) fun t =>
    (laneOfPort t p l).state = .acquire ∧ (laneOfPort t p l).rate = (hport s p).target ∧ (laneOfPort t p l).preset = 0 ∧
      (laneOfPort t p l).acqAt = t.ct ∧ (laneOfPort t p l).checks = 0)

/-- A training ordered set is checked before it is believed (R301, R302): one with a bad CRC is counted and changes nothing else; one with a
reserved RATE in a RATE_REQ or a reserved bit set changes nothing and is not counted; a sound one of the lane that fits its rate gives the far end's
state, rates and preset. -/
def Obligations.TrainingSetChecked : Prop :=
  (∀ s p l w, (laneOfPort s p l).state ≠ .disabled → crc8 56 (w.toNat % 2 ^ 56) 0 ≠ tsBits w 63 56 →
    exec (.tsReceive p l w) s = .next (modLane s p l fun x => { x with errTs := satAdd 0xFFFF x.errTs 1 })) ∧
  (∀ s p l w, crc8 56 (w.toNat % 2 ^ 56) 0 = tsBits w 63 56 → (tsBits w 55 48 ≠ 0 ∨ tsBits w 10 8 = 2 ∧ tsBits w 20 19 = 3) →
    exec (.tsReceive p l w) s = .next s) ∧
  (∀ s p l w, (laneOfPort s p l).state = .check → crc8 56 (w.toNat % 2 ^ 56) 0 = tsBits w 63 56 → tsBits w 7 0 = 0xD2 → tsBits w 55 48 = 0 →
    tsBits w 10 8 = 0 → tsBits w 12 12 = l.val → tsBits w 18 16 / 2 ^ (laneOfPort s p l).rate % 2 = 1 →
    exec (.tsReceive p l w) s = .next (modLane s p l fun x => { x with
      farRx := tsBits w 15 13, farRates := tsBits w 18 16, farPreset := tsBits w 24 21
      farReady := x.farReady || tsBits w 15 13 == 3 || tsBits w 15 13 == 4 }))

/-- A lane leaves service and comes back (from R308 to R325). Invalid headers are counted, and sixteen of them, or a lost clock or signal, start a
rethread attempt at once; RATE_ACK takes the lane to RATE_SWITCH; an unanswered request parks it. SLEEP puts the receiver to sleep; WAKE_REQ makes the
transmitter send the training stream; a wake check that passes makes the lane READY, or GO when the far end is ready, and one that fails starts an attempt.
A loopback ends with its counts, or without a check block of the far end as failed. -/
def Obligations.LaneLeavesService : Prop :=
  (∀ s p l (n : Fin 65), laneUp s p l = true → 16 ≤ n.val → nextWith (exec (.laneLoss p l (.headers n)) s) fun t =>
    (laneOfPort t p l).state = .acquire ∧ (laneOfPort t p l).losses = sat32 (laneOfPort s p l).losses 1 ∧ (laneOfPort t p l).held = [] ∧
      (laneOfPort t p l).errBlock = satAdd 0xFFFF (laneOfPort s p l).errBlock n.val ∧ (laneOfPort t p l).rate = (hport s p).target) ∧
  (∀ s p l (n : Fin 65), laneUp s p l = true → n.val < 16 →
    exec (.laneLoss p l (.headers n)) s = .next (modLane s p l fun x => { x with errBlock := satAdd 0xFFFF x.errBlock n.val })) ∧
  (∀ s p l r, laneUp s p l = true → (laneOfPort s p l).rateReq = some r → nextWith (exec (.rateAckReceive p l) s) fun t =>
    (laneOfPort t p l).state = .rateSwitch ∧ (laneOfPort t p l).rateReq = some r ∧ (laneOfPort t p l).held = []) ∧
  (∀ s p l, training (laneOfPort s p l) = true → exec (.rateReqUnanswered p l) s = .next (parkLane s p l 4)) ∧
  (∀ s p l, laneUp s p l = true → (laneOfPort s p l).rateReq.isSome = true → nextWith (exec (.rateReqUnanswered p l) s) fun t =>
    (laneOfPort t p l).state = .unthreaded ∧ (laneOfPort t p l).lastPark = 4) ∧
  (∀ s p l, laneUp s p l = true → (laneOfPort s p l).rxSleep = false → nextWith (exec (.sleepTsReceive p l) s) fun t =>
    (laneOfPort t p l).state = .sleep ∧ (laneOfPort t p l).rxSleep = true) ∧
  (∀ s p l, (laneOfPort s p l).state = .sleep → exec (.wakeReqReceive p l) s = .next (sendTrain (modLane s p l fun x => { x with
    txSleep := false, waking := !x.rxSleep || x.waking, farReady := false, why := 2 }) p l)) ∧
  (∀ s p l, (laneOfPort s p l).state = .sleep → (laneOfPort s p l).waking = true → nextWith (exec (.wakeCheckDone p l true) s) fun t =>
    (laneOfPort t p l).state = (if (laneOfPort s p l).farReady = true then .go else .ready) ∧
      (laneOfPort t p l).txSleep = false ∧ (laneOfPort t p l).rxSleep = false) ∧
  (∀ s p l, (laneOfPort s p l).state = .sleep → (laneOfPort s p l).waking = true → nextWith (exec (.wakeCheckDone p l false) s) fun t =>
    (laneOfPort t p l).state = .acquire ∧ (laneOfPort t p l).preset = 0) ∧
  (∀ s p l r e f, (laneOfPort s p l).loop = some r → exec (.loopbackDone p l e f) s =
    .next (finishLive (endLoop (advance s (2 ^ r.log2n * blockTime (laneOfPort s p l).rate / 100)) p l) r.dead r.pair r.tag stOk 0
      [w32 (min 0xFFFFFFFF e), if e = 0 then 0xFFFFFFFF else f, w32 (min 0xFFFFFFFF (2 ^ r.log2n))])) ∧
  (∀ s p l r, (laneOfPort s p l).loop = some r → r.kind = 2 → exec (.loopbackTimeout p l) s =
    .next (finishLive (endLoop (advanceTo s (r.since + ms 1)) p l) r.dead r.pair r.tag stFailed dNoLoop)) ∧
  (∀ s p l, laneUp s p l = true → nextWith (exec (.laneLoss p l .lockOrSignal) s) fun t =>
    (laneOfPort t p l).state = .acquire ∧ (laneOfPort t p l).losses = sat32 (laneOfPort s p l).losses 1 ∧ (laneOfPort t p l).held = [] ∧
      (laneOfPort t p l).rate = (hport s p).target)

/-- The lane commands complete (R315, R319-R322, R326): HLK.SET_PORT takes the enables and RAISE and moves the lanes and the target rate accordingly;
HLK.RETHREAD starts an attempt on the named lanes that are neither in service, asleep, in loopback nor disabled, and resets their wait; HLK.SET_SLEEP
puts lanes in service to sleep, or with both direction bits 0 wakes them; HLK.LOOPBACK takes a lane out of service for its test. -/
def Obligations.LaneCommandsComplete : Prop :=
  (∀ s c, Runs s hlkSetPortSpec c → (inPanel s (portWord c) = true → bit (pw c 0) 4 = true ∧ bits (pw c 0) 6 5 ≠ 0) →
    exec (.hlkSetPort c) s = .next (answered (touch (enablePort (begun s hlkSetPortSpec c) (portWord c) (bit (pw c 0) 4) (bits (pw c 0) 6 5)
      (bit (pw c 0) 7)) .hlk) hlkSetPortSpec c stOk 0 [])) ∧
  (∀ s p en lanes up, (hport (enablePort s p en lanes up) p).en = en ∧ (hport (enablePort s p en lanes up) p).raise' = up ∧
    (hport (enablePort s p en lanes up) p).laneEn = #v[lanes % 2 == 1, lanes / 2 == 1]) ∧
  (∀ s c, Runs s hlkRethreadSpec c → ∃ t, exec (.hlkRethread c) s = .next t ∧ Replied s t hlkRethreadSpec c stOk 0 [] ∧
    ∀ p l, if p = portWord c ∧ maskHas c 4 l = true ∧ (laneOfPort s p l).state ∉ [.up, .sleep, .loopback, .disabled] then
        (laneOfPort t p l).state = .acquire ∧ (laneOfPort t p l).rate = (hport s p).target ∧ (laneOfPort t p l).preset = 0 ∧
          (laneOfPort t p l).acqAt = s.ct ∧ (laneOfPort t p l).checks = 0 ∧ (laneOfPort t p l).step = none
      else laneOfPort t p l = laneOfPort s p l) ∧
  (∀ s c, Runs s hlkSleepSpec c → bits (pw c 0) 7 6 ≠ 0 → inPanel s (portWord c) = false →
    (∀ l, maskHas c 4 l = true → laneBusy s (portWord c) l = false) → nextWith (exec (.hlkSetSleep c) s) fun t =>
      ∀ l, maskHas c 4 l = true → laneUp s (portWord c) l = true → bit (pw c 0) 6 = true →
        (laneOfPort t (portWord c) l).state = .sleep ∧ (laneOfPort t (portWord c) l).txSleep = true) ∧
  (∀ s c, Runs s hlkSleepSpec c → bits (pw c 0) 7 6 = 0 → inPanel s (portWord c) = false → nextWith (exec (.hlkSetSleepWake c) s) fun t =>
      ∀ l, maskHas c 4 l = true → (laneOfPort s (portWord c) l).state = .sleep →
        (laneOfPort t (portWord c) l).waking = true ∧ (laneOfPort t (portWord c) l).txSleep = false) ∧
  (∀ s c (l : Fin 2), Runs s hlkLoopbackSpec c → l.val = b2n (bit (pw c 0) 4) → bits (pw c 0) 6 5 ≠ 3 → 12 ≤ bits (pw c 0) 12 8 →
    ¬ (inPanel s (portWord c) = true ∧ laneUp s (portWord c) l = true ∧ laneUp s (portWord c) (1 - l) = false) → laneBusy s (portWord c) l = false →
    nextWith (exec (.hlkLoopback c) s) fun t => (laneOfPort t (portWord c) l).state = .loopback ∧
      (laneOfPort t (portWord c) l).loop = some { pair := c.pair, tag := c.tag, kind := bits (pw c 0) 6 5, log2n := bits (pw c 0) 12 8, since := s.ct })

/-- Frames are acknowledged and sent again (R331, from R333 to R338, R362): an ACK releases the frames below NEXT; an ACK goes out when a frame
waits for it, and with the sixteenth frame; a discarded part frame, a bad CRC and a malformed frame are counted; a NAK received is counted; a NEXT beyond the
last number sent removes the lane; a replay timeout sends every held frame again, and the fourth in a row removes the lane. -/
def Obligations.FramesAcknowledged : Prop :=
  (∀ s p l m f rest k, laneUp s p l = true → laneUp s p 0 = true → m.validA = true → m.nakA = false → m.validB = false →
    (laneOfPort s p 0).held = f :: rest → (m.nextA.toNat + 65536 - f.seq) % 65536 = k → 1 ≤ k → k ≤ (laneOfPort s p 0).held.length →
    nextWith (exec (.ackReceive p l m) s) fun t =>
      (((f :: rest).drop k).map (·.seq)) <+: ((laneOfPort t p 0).held.map (·.seq)) ∧ (laneOfPort t p 0).timeouts = 0 ∧
      (laneOfPort t p 0).state = .up) ∧
  (∀ s p l, laneUp s p l = true → 0 < (laneOfPort s p l).unacked → nextWith (exec (.ackSend p l) s) fun t =>
    (laneOfPort t p 0).unacked = 0 ∧ (laneOfPort t p 1).unacked = 0 ∧ laneUp t p l = true) ∧
  (∀ s p l, laneUp s p l = true → nextWith (exec (.badFrameReceive p l .partial') s) fun t => (hport t p).errCrc = satAdd 0xFF (hport s p).errCrc 1) ∧
  (∀ s p l f rest, laneUp s p l = true → (laneOfPort s p l).held = f :: rest → 3 ≤ (laneOfPort s p l).timeouts →
    nextWith (exec (.replayTimeout p l) s) fun t => (hport t p).errReplay = satAdd 0xFF (hport s p).errReplay 1 ∧ (laneOfPort t p l).state = .acquire) ∧
  (∀ s p l f rest, laneUp s p l = true → (laneOfPort s p l).held = f :: rest → (laneOfPort s p l).timeouts < 3 →
    nextWith (exec (.replayTimeout p l) s) fun t => (hport t p).errReplay = satAdd 0xFF (hport s p).errReplay 1 ∧
      (laneOfPort t p l).timeouts = (laneOfPort s p l).timeouts + 1 ∧ (laneOfPort t p l).state = .up) ∧
  (∀ s p l bs, laneUp s p l = true → crcOk bs = false → nextWith (exec (.badFrameReceive p l (.bytes bs)) s) fun t =>
    (hport t p).errCrc = satAdd 0xFF (hport s p).errCrc 1) ∧
  (∀ s p l bs, laneUp s p l = true → crcOk bs = true → malformedFrame (hport s p).version bs = true →
    nextWith (exec (.badFrameReceive p l (.bytes bs)) s) fun t => (hport t p).errMalf = satAdd 0xFF (hport s p).errMalf 1) ∧
  (∀ s p l m, laneUp s p l = true → laneUp s p 0 = true → m.validA = true → m.nakA = true → m.validB = false → ackBeyond s p 0 m.nextA.toNat = false →
    nextWith (exec (.ackReceive p l m) s) fun t => (hport t p).naksRcvd = satAdd 0xFFFF (hport s p).naksRcvd 1) ∧
  (∀ s p l m, laneUp s p l = true → laneUp s p 0 = true → m.validA = true → m.validB = false → ackBeyond s p 0 m.nextA.toNat = true →
    nextWith (exec (.ackReceive p l m) s) fun t => (laneOfPort t p 0).state = .acquire) ∧
  (∀ s p l q r m, laneUp s p l = true → q.toNat = (laneOfPort s p l).rxNext → 15 ≤ (laneOfPort s p l).unacked →
    nextWith (exec (.statusReceive p l { seq := q, replay := r } m) s) fun t => (laneOfPort t p l).unacked = 0)

/-- The version exchange and identification run (from R341 to R343 and R361): HELLO goes out while the exchange is open; the controller's choice
is the highest version the head accepts, and its echo completes the exchange; after 10 ms without it CODE 2 is raised and no head is identified, after a
further second the exchange starts again; then firmware reads identity and rank record, and what they say is in force when both are sound. -/
def Obligations.HeadsIdentified : Prop :=
  (∀ s p, portUp s p = true → (hport s p).helloFail = none → helloOpen s p 0 = true → nextWith (exec (.helloSend p) s) fun t =>
    (hport t p).helloSent = t.ct ∧ (s.glb.sysLock = true → t.ct = max s.ct ((hport s p).helloSent + 40000))) ∧
  (∀ s p l vs ch v, laneUp s p l = true → (hport s p).helloDone = false → (hport s p).helloFail = none → (ch = 0 ∨ ch.toNat ≠ (hport s p).chosen) →
    chooseVersion vs = some v → nextWith (exec (.helloReceive p l vs ch) s) fun t => (hport t p).chosen = v ∧ (hport t p).helloDone = false) ∧
  (∀ s p l vs ch, laneUp s p l = true → (hport s p).helloDone = false → (hport s p).helloFail = none → ch ≠ 0 → ch.toNat = (hport s p).chosen →
    nextWith (exec (.helloReceive p l vs ch) s) fun t => (hport t p).helloDone = true ∧ (hport t p).version = ch.toNat ∧ (hport t p).identDue = true ∧
      (laneOfPort t p l).hello = true) ∧
  (∀ s p, portUp s p = true → (hport s p).helloDone = false → (hport s p).helloFail = none → ∃ t, exec (.helloTimeout p) s = .next t ∧
    (hport t p).helloFail = some t.ct ∧ (hport t p).identified = false ∧
    ∃ e, t.evt.net = s.evt.net ++ [e] ∧ e.num = 73 + 2 * p.val ∧ e.code = 2) ∧
  (∀ s p t0, portUp s p = true → (hport s p).helloFail = some t0 → ∃ t, exec (.helloRetry p) s = .next t ∧
    (hport t p).helloFail = none ∧ (hport t p).helloAt = t.ct ∧ (hport t p).chosen = 0) ∧
  (∀ s p, portUp s p = true → (hport s p).helloDone = true → (hport s p).identDue = true → (hport s p).identifying = false → fwRuns s = true →
    nextWith (exec (.headIdentify p) s) fun t => (hport t p).identifying = true ∧ (hport t p).identDue = false ∧
      ((hport s p).mgmt.countP (·.out.isSome) ≤ 2 →
        (hport t p).identOut = [((hport s p).nextTid, 0, 64), (((hport s p).nextTid + 1) % 256, 0x100, 256)])) ∧
  (∀ s p a b, (hport s p).identifying = true → identityOk a = true → rankOk b = true → nextWith (exec (.identifyDone p a b) s) fun t =>
    (hport t p).rank = some (rankRecord b) ∧ (hport t p).maker = bits (wordAt a 0) 31 16 ∧ (hport t p).identified = true ∧ (hport t p).identifying = false) ∧
  (∀ s p a b, (hport s p).identifying = true → (identityOk a && rankOk b) = false → nextWith (exec (.identifyDone p a b) s) fun t =>
    (hport t p).identified = false ∧ (hport t p).identifying = false) ∧
  (∀ s c, Runs s hlkIdentifySpec c → (hport s (portWord c)).helloDone = true → portUp s (portWord c) = true → (hport s (portWord c)).identCmd = none →
    nextWith (exec (.hlkIdentify c) s) fun t => Underway t c ∧ (hport t (portWord c)).identCmd = some (c.pair, c.tag) ∧ (hport t (portWord c)).identifying = true)

/-- Time exchanges and head status (R340, R351, R352, R354, R362): a request on a lane with nothing to send carries the instant at which its start block
leaves, within the time of an IDLE frame; a valid reply gives one of the lane's last four delays, a negative or outlying one is counted; STATUS gives the
head's flags and temperatures, a repeat of one changes nothing of them; a millisecond of silence makes them invalid. -/
def Obligations.HeadTimeAndStatus : Prop :=
  (∀ s p l, portUp s p = true → laneUp s p l = true → (laneOfPort s p l).queue = [] → (laneOfPort s p l).resend = [] →
    (laneOfPort s p l).free ≤ 100 * s.ct → nextWith (exec (.timesyncSend p) s) fun t =>
    (hport t p).syncId = ((hport s p).syncId + 1) % 256 ∧ (hport t p).syncAt = t.ct ∧
      100 * t.ct < (laneOfPort t p l).curStart ∧ (laneOfPort t p l).curStart ≤ 100 * t.ct + idleTime (laneOfPort s p l).rate ∧
      (laneOfPort t p l).syncs = (((hport s p).syncId, 16 * (laneOfPort t p l).curStart / 100) :: (laneOfPort s p l).syncs).take 16) ∧
  (∀ s p l id t2 t3 t4 t1 d, laneUp s p l = true → (laneOfPort s p l).syncs.find? (fun x => x.1 = id.toNat) = some (id.toNat, t1) →
    d = (((t4.toNat : Int) - t1) - ((t3.toNat : Int) - t2.toNat)) / 2 → 0 ≤ d →
    ((laneOfPort s p l).delays = [] ∨ (d - laneDelay (laneOfPort s p l)).natAbs ≤ 64) →
    exec (.timesyncReply p l id t2 t3 t4) s = .next (modLane (laneRx s p l) p l fun x => { x with
      syncs := x.syncs.filter (fun y => y.1 != id.toNat), delays := (d.toNat :: x.delays).take 4 })) ∧
  (∀ s p l id t2 t3 t4 t1 d, laneUp s p l = true → (laneOfPort s p l).syncs.find? (fun x => x.1 = id.toNat) = some (id.toNat, t1) →
    d = (((t4.toNat : Int) - t1) - ((t3.toNat : Int) - t2.toNat)) / 2 →
    (d < 0 ∨ (laneOfPort s p l).delays ≠ [] ∧ 64 < (d - laneDelay (laneOfPort s p l)).natAbs) →
    exec (.timesyncReply p l id t2 t3 t4) s = .next (modLane (laneRx s p l) p l fun x => { x with
      syncs := x.syncs.filter (fun y => y.1 != id.toNat), badSyncs := x.badSyncs + 1 })) ∧
  (∀ s p l q r m, laneUp s p l = true → q.toNat = (laneOfPort s p l).rxNext → (r = true → (hport s p).statusPast.contains m = false) →
    nextWith (exec (.statusReceive p l { seq := q, replay := r } m) s) fun t =>
    (hport t p).stWord = m.word0 ∧ (hport t p).timeOk = bit m.word0 0 ∧ (hport t p).statusAt = s.ct ∧ (hport t p).silent = false ∧
      (hport t p).temps = (m.temps.take (min 4 (bits m.word0 27 24))).map fun x => signed 16 x.toNat) ∧
  (∀ s p l q m, laneUp s p l = true → (hport s p).statusPast.contains m = true → nextWith (exec (.statusReceive p l { seq := q, replay := true } m) s) fun t =>
    (hport t p).stWord = (hport s p).stWord ∧ (hport t p).temps = (hport s p).temps ∧ (hport t p).missedCnt = (hport s p).missedCnt) ∧
  (∀ s p, portUp s p = true → (hport s p).silent = false → nextWith (exec (.statusSilent p) s) fun t => (hport t p).silent = true)

/-- Head memory (R355, R356, R360, R362-R364): a read or a write command starts its transfer; a good reply of a transfer's last transaction ends it and
stores what was read; 1 ms without a reply ends it TIMEOUT; the timers of the frame layer are set. -/
def Obligations.HeadMemoryTransfers : Prop :=
  (∀ s c, Runs s hlkMgmtReadSpec c → NoneFails (mgmtChecks s c) → s.drc.frozen = false →
    exec (.hlkMgmtRead c) s = .next (accepted (nextMgmt (modHport (begun s hlkMgmtReadSpec c) (portWord c) fun h => { h with mgmt := h.mgmt ++ [
      { pair := c.pair, tag := c.tag, write := false, addr := (pw c 1).toNat, len := (pw c 2).toNat, dram := addr64 (pw c 3) (pw c 4) }] }) (portWord c)
      { pair := c.pair, tag := c.tag, write := false, addr := (pw c 1).toNat, len := (pw c 2).toNat, dram := addr64 (pw c 3) (pw c 4) }) hlkMgmtReadSpec c)) ∧
  (∀ s c, Runs s hlkMgmtWriteSpec c → NoneFails (mgmtChecks s c) → (touchesRank c = true → inPanel s (portWord c) = false) →
    headInWindow s (portWord c) = true → dieBelowWarn s = true → s.drc.frozen = false →
    exec (.hlkMgmtWrite c) s = .next (accepted (nextMgmt (modHport (begun s hlkMgmtWriteSpec c) (portWord c) fun h => { h with mgmt := h.mgmt ++ [
      { pair := c.pair, tag := c.tag, write := true, addr := (pw c 1).toNat, len := (pw c 2).toNat, dram := addr64 (pw c 3) (pw c 4) }] }) (portWord c)
      { pair := c.pair, tag := c.tag, write := true, addr := (pw c 1).toNat, len := (pw c 2).toNat, dram := addr64 (pw c 3) (pw c 4) }) hlkMgmtWriteSpec c)) ∧
  (∀ s p l q r m at', laneUp s p l = true → q.toNat = (laneOfPort s p l).rxNext → (hport s p).identOut = [] → (hport s p).identWait = [] →
    (laneOfPort s p 0).queue = [] → (laneOfPort s p 1).queue = [] → (hport s p).mgmt = [m] → m.out = some (r.tid.toNat, r.len.toNat, at') →
    m.write = false → r.write = false → r.hstatus = 0 → s.drc.frozen = false → accessHeld s 1 = false → m.len ≤ m.done + r.len.toNat →
    nextWith (exec (.mgmtReply p l q r) s) fun t => (hport t p).mgmt = [] ∧ t.dram = memWrite s.dram (m.dram + m.done) (r.data.take r.len.toNat)) ∧
  (∀ s p tid m n at', (hport s p).mgmt = [m] → m.out = some (tid.toNat, n, at') → nextWith (exec (.mgmtTimeout p tid) s) fun t =>
    (hport t p).mgmt = [] ∧ (hport t p).mgmtTimeouts = satAdd 0xFF (hport s p).mgmtTimeouts 1) ∧
  (∀ s c, Runs s hlkSetTimersSpec c → 4 ≤ bits (pw c 0) 7 0 → bits (pw c 0) 7 0 ≤ 100 → 4 ≤ bits (pw c 0) 15 8 → 4 ≤ bits (pw c 0) 21 16 →
    Completes s (.hlkSetTimers c) hlkSetTimersSpec c stOk 0 [] (touch { s with hlk := { s.hlk with
      replayUs := bits (pw c 0) 7 0, nakLimit := bits (pw c 0) 15 8, syncUs := bits (pw c 0) 21 16 } } .hlk))

/-- The commands that set CAM's inputs, streams and contexts complete (R368, R372-R374, R378, R394, R396, R402, R407), where no stream of an enabled context
changes. A context turned off, or whose input is, keeps no frame in progress. -/
def Obligations.CamStreamsSet : Prop :=
  (∀ s c (i : Fin 4), Runs s camSetInputSpec c → i.val = bits (pw c 0) 1 0 → i.val ≠ 3 → bit (pw c 0) 2 = true →
    (bits (pw c 0) 5 3 = 1 ∨ bits (pw c 0) 5 3 = 2 ∨ bits (pw c 0) 5 3 = 4) → bits (pw c 0) 11 8 ≠ 0 → laneMapOk (bits (pw c 0) 5 3) (pw c 1) = true →
    ((camIn s i).lanes = bits (pw c 0) 5 3 ∧ (camIn s i).laneMap.toNat = bits (pw c 1) 7 0 ∨ ∀ k ∈ fedBy s i, (camCtx s k).en = false) →
    Completes s (.camSetInput c) camSetInputSpec c stOk 0 [] (touch (modIn s i fun x => { x with
      en := true, lanes := bits (pw c 0) 5 3, weight := bits (pw c 0) 11 8, laneMap := BitVec.ofNat 8 (pw c 1).toNat, p0 := pw c 2
      started := x.started && x.en, deskewed := x.deskewed && x.en, ulps := x.ulps }) .cam)) ∧
  (∀ s c (n : Fin 16) e, Runs s camSetMapSpec c → n.val = bits (pw c 0) 3 0 → e.en = bit (pw c 0) 4 → e.input.val = bits (pw c 0) 6 5 →
    e.vc = bits (pw c 0) 11 8 → e.dt = bits (pw c 0) 21 16 → e.ctx.val = bits (pw c 0) 26 24 → (e.en = true → e.input.val ≠ 3 → dtOk e.dt = true) →
    (∀ m, m ≠ n → entriesClash e (vget s.cam.map m) = false) → (e.en = true → (camCtx s e.ctx).inW ≤ maxWidth s e.input e.dt) →
    (e = vget s.cam.map n ∨ ((vget s.cam.map n).en = true → (camCtx s (vget s.cam.map n).ctx).en = false) ∧ (e.en = true → (camCtx s e.ctx).en = false)) →
    Completes s (.camSetMap c) camSetMapSpec c stOk 0 [] (touch (
      if e ≠ vget s.cam.map n ∧ (vget s.cam.map n).en = true then
        modCtx { s with cam := { s.cam with map := vset s.cam.map n e } } (vget s.cam.map n).ctx fun x => { x with open' := false }
      else { s with cam := { s.cam with map := vset s.cam.map n e } }) .cam)) ∧
  (∀ s c, Runs s camSetContextSpec c → lo16 (pw c 1) % 2 = 0 → 16 ≤ lo16 (pw c 1) → 16 ≤ hi16 (pw c 1) → lo16 (pw c 1) ≤ ctxMaxWidth s (camCtxOf c) →
    1 ≤ lo16 (pw c 2) → lo16 (pw c 2) ≤ 1000 → bits (pw c 3) 5 0 ≤ 32 →
    (lo16 (pw c 1) = (camCtx s (camCtxOf c)).inW ∧ hi16 (pw c 1) = (camCtx s (camCtxOf c)).inH ∨
      geomOk (camCtx s (camCtxOf c)).geom (lo16 (pw c 1)) (hi16 (pw c 1)) = true ∧ (camCtx s (camCtxOf c)).en = false) → bit (pw c 0) 3 = true →
    Completes s (.camSetContext c) camSetContextSpec c stOk 0 [] (touch (modCtx s (camCtxOf c) fun x => { x with
      en := true, inW := lo16 (pw c 1), inH := hi16 (pw c 1)
      prm := { x.prm with linear := bit (pw c 0) 4, timeoutMs := lo16 (pw c 2), arm := bits (pw c 3) 5 0, armWin := hi16 (pw c 3) }
      fires := if bits (pw c 3) 5 0 == (camCtx s (camCtxOf c)).prm.arm then x.fires else [] }) .cam)) ∧
  (∀ s c (i : Fin 4), Runs s camSetInputSpec c → i.val = bits (pw c 0) 1 0 → i.val = 3 → bit (pw c 0) 2 = true → bits (pw c 0) 11 8 ≠ 0 →
    8 ≤ bits (pw c 2) 4 0 → bits (pw c 2) 4 0 ≤ 16 → ((camIn s i).p0 = pw c 2 ∨ ∀ k ∈ fedBy s i, (camCtx s k).en = false) →
    Completes s (.camSetInput c) camSetInputSpec c stOk 0 [] (touch (modIn s i fun x => { x with
      en := true, lanes := bits (pw c 0) 5 3, weight := bits (pw c 0) 11 8, laneMap := BitVec.ofNat 8 (pw c 1).toNat, p0 := pw c 2
      started := x.started && x.en, deskewed := x.deskewed && x.en, ulps := x.ulps }) .cam)) ∧
  (∀ s c (o : Fin 7), Runs s setOutputSpec c → o.val = bits (pw c 0) 5 3 →
    (o.val = 0 → bits (pw c 1) 2 0 ≤ 4 ∧ (ctxYuv s (camCtxOf c) = true → bits (pw c 1) 2 0 = 0)) → (o.val = 2 → bits (pw c 1) 2 1 ≠ 0) →
    (o.val = 2 → bit (pw c 0) 6 = true → bit (pw c 1) 0 = false → (vget (camCtx s (camCtxOf c)).prm.outs (0 : Fin 7)).depth8 = true) →
    (o.val = 0 → (vget (camCtx s (camCtxOf c)).prm.outs (2 : Fin 7)).en = true → (vget (camCtx s (camCtxOf c)).prm.outs (2 : Fin 7)).tap = false →
      bit (pw c 1) 3 = true) →
    Completes s (.camSetOutput c) setOutputSpec c stOk 0 [] (touch (modCtx s (camCtxOf c) fun x => { x with prm := { x.prm with
      outs := vset x.prm.outs o
        { en := bit (pw c 0) 6, bob := ⟨bits (pw c 0) 8 7, Nat.mod_lt _ (by decide)⟩
          src := if o.val = 0 then bits (pw c 1) 2 0 else 0, depth8 := decide (o.val = 0) && bit (pw c 1) 3
          tap := decide (o.val = 2) && bit (pw c 1) 0, ratio := if o.val = 2 then bits (pw c 1) 2 1 else 1
          level := if o.val = 2 then bits (pw c 1) 5 4 else 0 } } }) .cam)) ∧
  (∀ s c, Runs s camSetStatsSpec c → (bit (pw c 0) 3 = true → (bits (pw c 0) 5 4 = 1 ∨ bits (pw c 0) 5 4 = 2) ∧ addr64 (pw c 1) (pw c 2) % 64 = 0 ∧
      inSpace s (bits (pw c 0) 5 4) (addr64 (pw c 1) (pw c 2)) 6272 = true ∧ addr64 (pw c 3) (pw c 4) % 64 = 0 ∧
      inSpace s (bits (pw c 0) 5 4) (addr64 (pw c 3) (pw c 4)) 6272 = true) →
    Completes s (.camSetStats c) camSetStatsSpec c stOk 0 [] (touch (modCtx s (camCtxOf c) fun x => { x with
      prm := { x.prm with statEn := bit (pw c 0) 3, statSpace := bits (pw c 0) 5 4, statA := addr64 (pw c 1) (pw c 2), statB := addr64 (pw c 3) (pw c 4) }
      statNext := false }) .cam)) ∧
  (∀ s c, Runs s camSetRateSpec c → 250 ≤ bits (pw c 0) 11 0 → bits (pw c 0) 11 0 ≤ 2000 →
    Completes s (.camSetRate c) camSetRateSpec c stOk 0 []
      (touch { s with cam := { s.cam with rate := bits (pw c 0) 11 0, budget := budgetNow s, budgetAt := s.ct } } .cam)) ∧
  (∀ s c (i : Fin 4), Runs s camSetInputSpec c → i.val = bits (pw c 0) 1 0 → bit (pw c 0) 2 = false → bits (pw c 0) 11 8 ≠ 0 →
    (i.val ≠ 3 → (bits (pw c 0) 5 3 = 1 ∨ bits (pw c 0) 5 3 = 2 ∨ bits (pw c 0) 5 3 = 4) ∧ laneMapOk (bits (pw c 0) 5 3) (pw c 1) = true) →
    (i.val = 3 → 8 ≤ bits (pw c 2) 4 0 ∧ bits (pw c 2) 4 0 ≤ 16) →
    ((i.val ≠ 3 → (camIn s i).lanes = bits (pw c 0) 5 3 ∧ (camIn s i).laneMap.toNat = bits (pw c 1) 7 0) ∧ (i.val = 3 → (camIn s i).p0 = pw c 2) ∨
      ∀ k ∈ fedBy s i, (camCtx s k).en = false) →
    ∃ t, exec (.camSetInput c) s = .next t ∧ Replied s t camSetInputSpec c stOk 0 [] ∧ (camIn t i).en = false ∧
      ∀ k ∈ fedBy s i, (camCtx t k).frames = []) ∧
  (∀ s c, Runs s camSetContextSpec c → lo16 (pw c 1) % 2 = 0 → 16 ≤ lo16 (pw c 1) → 16 ≤ hi16 (pw c 1) → lo16 (pw c 1) ≤ ctxMaxWidth s (camCtxOf c) →
    1 ≤ lo16 (pw c 2) → lo16 (pw c 2) ≤ 1000 → bits (pw c 3) 5 0 ≤ 32 →
    (lo16 (pw c 1) = (camCtx s (camCtxOf c)).inW ∧ hi16 (pw c 1) = (camCtx s (camCtxOf c)).inH ∨
      geomOk (camCtx s (camCtxOf c)).geom (lo16 (pw c 1)) (hi16 (pw c 1)) = true ∧ (camCtx s (camCtxOf c)).en = false) → bit (pw c 0) 3 = false →
    ∃ t, exec (.camSetContext c) s = .next t ∧ Replied s t camSetContextSpec c stOk 0 [] ∧
      (camCtx t (camCtxOf c)).en = false ∧ (camCtx t (camCtxOf c)).frames = [])

/-- The commands that set what a context does with its pixels complete (R375-R377, R385-R388, R391, R392, R398): sensor, matrix, tone curves, defects;
geometry and flat field are staged, and a commit of a staged set that fits its context waits for the frame boundary. A table or a list in DRAM is read at
once where DRAM answers. -/
def Obligations.CamPicturesSet : Prop :=
  (∀ s c pat, Runs s camSetSensorSpec c → patPreset (bits (pw c 0) 7 4) (BitVec.ofNat 64 (addr64 (pw c 1) (pw c 2))) = some pat → patOk pat = true →
    ((camCtx s (camCtxOf c)).en = true → pat = (camCtx s (camCtxOf c)).prm.pattern) →
    Completes s (.camSetSensor c) camSetSensorSpec c stOk 0 [] (touch (modCtx s (camCtxOf c) fun x => { x with prm := { x.prm with
      pattern := pat, bl := #v[lo16 (pw c 3), hi16 (pw c 3), lo16 (pw c 4), hi16 (pw c 4), lo16 (pw c 5)]
      dpcHi := lo16 (pw c 6), dpcLo := hi16 (pw c 6), kr := bits (pw c 7) 11 0, kg := bits (pw c 7) 27 16, kb := bits (pw c 8) 11 0 } }) .cam)) ∧
  (∀ s c, Runs s camSetMatrixSpec c → Completes s (.camSetMatrix c) camSetMatrixSpec c stOk 0 [] (touch (modCtx s (camCtxOf c) fun x => { x with
    prm := { x.prm with
      m := Vector.ofFn fun i : Fin 12 => halfAt c i.val, off := #v[sbits (pw c 7) 15 0, sbits (pw c 7) 31 16, sbits (pw c 8) 15 0] } }) .cam)) ∧
  (∀ s c, Runs s camLoadToneSpec c → addr64 (pw c 1) (pw c 2) % 64 = 0 → inSpace s 1 (addr64 (pw c 1) (pw c 2)) 520 = true → s.drc.frozen = false → accessHeld s 1 = false →
    Completes s (.camLoadTone c) camLoadToneSpec c stOk 0 [] (touch (modCtx s (camCtxOf c) fun x => { x with
      prm := { x.prm with tone := halvesAt s.dram (addr64 (pw c 1) (pw c 2)) 260 } }) .cam)) ∧
  (∀ s c ds, Runs s camSetDefectsSpec c → (pw c 1).toNat ≤ 4096 → addr64 (pw c 2) (pw c 3) % 64 = 0 →
    inSpace s 1 (addr64 (pw c 2) (pw c 3)) (4 * (pw c 1).toNat) = true → s.drc.frozen = false → accessHeld s 1 = false →
    ds = (List.range (pw c 1).toNat).map (fun i => (lo16 (memWord s.dram (addr64 (pw c 2) (pw c 3) + 4 * i)), hi16 (memWord s.dram (addr64 (pw c 2) (pw c 3) + 4 * i)))) →
    defectsRise ds = true → (∀ d ∈ ds, d.1 < (camCtx s (camCtxOf c)).inW ∧ d.2 < (camCtx s (camCtxOf c)).inH) →
    Completes s (.camSetDefects c) camSetDefectsSpec c stOk 0 [] (touch (modCtx s (camCtxOf c) fun x => { x with prm := { x.prm with defects := ds } }) .cam)) ∧
  (∀ s c, Runs s camSetGeometrySpec c → bits (pw c 3) 1 0 ≠ 3 → bits (pw c 3) 3 2 ≠ 3 →
    Completes s (.camSetGeometry c) camSetGeometrySpec c stOk 0 [] (touch (modCtx s (camCtxOf c) fun x => { x with staged := { x.staged with
      cx := lo16 (pw c 1), cy := hi16 (pw c 1), cw := lo16 (pw c 2), ch := hi16 (pw c 2), bx := bits (pw c 3) 1 0, by' := bits (pw c 3) 3 2
      sx := bits (pw c 3) 5 4, sy := bits (pw c 3) 7 6, px := lo16 (pw c 4), py := hi16 (pw c 4), pw := lo16 (pw c 5), ph := hi16 (pw c 5) } }) .cam)) ∧
  (∀ s c, Runs s camSetFlatfieldSpec c → (bit (pw c 0) 3 = true → (bits (pw c 0) 5 4 = 1 ∨ bits (pw c 0) 5 4 = 2) ∧ addr64 (pw c 1) (pw c 2) % 64 = 0 ∧
      inSpace s (bits (pw c 0) 5 4) (addr64 (pw c 1) (pw c 2)) (2 * bits (pw c 3) 6 0 * bits (pw c 3) 14 8) = true ∧ 4 ≤ bits (pw c 3) 19 16 ∧
      bits (pw c 3) 19 16 ≤ 8 ∧ bits (pw c 3) 6 0 ≤ 65 ∧ bits (pw c 3) 14 8 ≤ 65) →
    Completes s (.camSetFlatfield c) camSetFlatfieldSpec c stOk 0 [] (touch (modCtx s (camCtxOf c) fun x => { x with staged := { x.staged with
      flat := bit (pw c 0) 3, space := bits (pw c 0) 5 4, table := addr64 (pw c 1) (pw c 2), gx := bits (pw c 3) 6 0, gy := bits (pw c 3) 14 8
      cs := bits (pw c 3) 19 16 } }) .cam)) ∧
  (∀ s c, Runs s camCommitSpec c → stagedBad s (camCtxOf c) = false →
    Starts s (.camCommit c) c (touch (commitSet s (camCtxOf c) none { pair := c.pair, tag := c.tag }) .cam))

/-- The camera's frames and lines come in (from R369 to R374, R378, R379 and R403): a frame start opens a frame of an enabled context and stamps it; a line
joins the input's FIFO with its place in the frame, cut or filled to IN_W; a frame end or a silence of FRAME_TIMEOUT closes it; a lane's change is reported; the window of a
tack fire lapses. -/
def Obligations.CamFramesArrive : Prop :=
  (∀ s i h number k, (camIn s i).en = true → (i.val = 3 ∨ h.ecc ≠ .bad) → (camIn s i).started = true → channelCtxs s i h = [k] → (camCtx s k).en = true →
    (camCtx s k).open' = false → (camCtx s k).prm.arm = 0 → nextWith (exec (.frameStart i h number) s) fun t => (camCtx t k).open' = true ∧
      (camCtx t k).frame = (camCtx s k).frame + 1 ∧ (camCtx t k).lineAt = s.ct ∧ (camCtx t k).frames = (camCtx s k).frames ++ [{
        num := (camCtx s k).frame + 1, stamp := s.ct, sensor := if i.val = 3 then 0 else number.toNat, input := i
        kind := (streamKind i (((feedEntry s k).map fun e => (vget s.cam.map e).dt).getD 0) (camIn s i).p0).1
        rawBits := (streamKind i (((feedEntry s k).map fun e => (vget s.cam.map e).dt).getD 0) (camIn s i).p0).2 }]) ∧
  (∀ s i h number k t0 rest, (camIn s i).en = true → (i.val = 3 ∨ h.ecc ≠ .bad) → (camIn s i).started = true → channelCtxs s i h = [k] → (camCtx s k).en = true →
    (camCtx s k).open' = false → (camCtx s k).prm.arm ≠ 0 → liveFires s (camCtx s k) = t0 :: rest → nextWith (exec (.frameStart i h number) s) fun t =>
      (camCtx t k).frames.length = (camCtx s k).frames.length + 1 ∧ (camCtx t k).frame = (camCtx s k).frame + 1 ∧ (camCtx t k).fires = rest) ∧
  (∀ s i h px k f, (camIn s i).en = true → (i.val = 3 ∨ h.ecc ≠ .bad) → streamCtx s i h = some k →
    (camCtx s k).open' = true → (camCtx s k).frames = [f] → f.closed = false → f.rcvd < (camCtx s k).inH →
    (camIn s i).fifo.length < 64 → nextWith (exec (.linePacket i h px) s) fun t =>
      (camIn t i).fifo = (camIn s i).fifo ++ [{
        slot := freeSlot (camIn s i).fifo, ctx := k, frame := f.num, y := f.rcvd,
        px := (px ++ List.replicate ((camCtx s k).inW - px.length) (0, 0, 0)).take (camCtx s k).inW }] ∧
      (camCtx t k).frames = [{ f with rcvd := f.rcvd + 1, crcErr := f.crcErr || (h.crcBad && i.val != 3) }] ∧ (camCtx t k).lineAt = s.ct) ∧
  (∀ s i h k, (camIn s i).en = true → (i.val = 3 ∨ h.ecc ≠ .bad) → channelCtxs s i h = [k] → (camCtx s k).open' = true →
    nextWith (exec (.frameEnd i h) s) fun t => (camCtx t k).open' = false) ∧
  (∀ s k f, s.glb.sysLock = true → (camCtx s k).frames.find? (fun f => !f.closed) = some f → (camCtx s k).open' = true → f.rcvd < (camCtx s k).inH →
    nextWith (exec (.frameTimeout k) s) fun t => (camCtx t k).open' = false ∧ t.ct = max s.ct ((camCtx s k).lineAt + ms (camCtx s k).prm.timeoutMs)) ∧
  (∀ s (i : Fin 3), (camIn s i.castSucc).en = true → exec (.csiLaneState i .deskewDone) s =
    .next (raise (modIn s i.castSucc fun c => { c with deskewed := true }) 116 i.val 3)) ∧
  (∀ s (i : Fin 3), (camIn s i.castSucc).en = true → (camIn s i.castSucc).ulps = false → exec (.csiLaneState i .ulpsEntered) s =
    .next (raise (modIn s i.castSucc fun c => { c with ulps := true }) 116 i.val 1)) ∧
  (∀ s (i : Fin 3), (camIn s i.castSucc).en = true → (camIn s i.castSucc).ulps = true → exec (.csiLaneState i .ulpsLeft) s =
    .next (raise (modIn s i.castSucc fun c => { c with ulps := false }) 116 i.val 2)) ∧
  (∀ s k t0 rest, s.glb.sysLock = true → (camCtx s k).fires = t0 :: rest → nextWith (exec (.armWinLapse k) s) fun t =>
    (camCtx t k).fires = rest.filter (fun x => decide (t.ct ≤ x + us (camCtx s k).prm.armWin)) ∧ t0 + us (camCtx s k).prm.armWin < t.ct)

/-- The camera pipeline works line by line (R380, R382, R401, R402): where DRAM answers or is not needed, it takes up the next
line in turn once the line before has passed and the write budget is not empty, and is held else; a held pipeline goes on when the budget holds a byte
again; the camera encoder codes the oldest waiting block, here one with another of its band behind it. -/
def Obligations.CamPipelineRuns : Prop :=
  (∀ s i g l rest, nextInput s = some (i, g) → (camIn s i).fifo = l :: rest → (camCtx s l.ctx).frames.head?.map (fun f => f.num) = some l.frame →
    (accessHeld s 1 && writesDram s l.ctx) = false → s.cam.heldFrom = none → 0 < budgetNow (advanceTo s (ceilDiv s.cam.busyAt 2)) →
    exec .pipelineLine s = .next (takeLine (advanceTo s (ceilDiv s.cam.busyAt 2)) i g l)) ∧
  (∀ s i g l rest, nextInput s = some (i, g) → (camIn s i).fifo = l :: rest → (camCtx s l.ctx).frames.head?.map (fun f => f.num) = some l.frame →
    (accessHeld s 1 && writesDram s l.ctx) = false → s.cam.heldFrom = none → budgetNow (advanceTo s (ceilDiv s.cam.busyAt 2)) ≤ 0 →
    nextWith (exec .pipelineLine s) fun t => t.cam.heldFrom = some t.ct ∧ (camIn t i).fifo = l :: rest) ∧
  (∀ s t0, s.cam.heldFrom = some t0 → s.glb.sysLock = true → 1 ≤ s.cam.rate → s.cam.budgetAt ≤ s.ct →
    nextWith (exec .camBudgetRefill s) fun t => t.cam.heldFrom = none ∧ t.cam.heldCt = s.cam.heldCt + (t.ct - t0) ∧ 400 ≤ t.cam.budget ∧ t.cam.budgetAt = t.ct) ∧
  (∀ s k f b rest, (camCtx s k).frames = [f] → f.todo = b :: rest → (vget f.outs (2 : Fin 7)).lost = false →
    (accessHeld s 1 && writesDram s k) = false → rest.any (fun x => x.band == b.band) = true →
    nextWith (exec (.codedBlockEncode k) s) fun t => (camCtx t k).frames = [{ f with todo := rest, slots := f.slots ++ [(codedSlot b).2] }])

/-- The motor commands complete (R411, R413, R417-R419, R424, R428, R431, R434-R436, R438, R441, R442): settings take effect on the axis; an enable makes a disabled axis
IDLE, the first tick with a frame being one whose frame starts 10 us later or more, 512 CT units before the tick; a disable makes it DISABLED; motion commands wait for their tick; a stop leaves a resting axis as it is and
stops a moving one; homing starts its search; a clear leads from FAULT to IDLE. -/
def Obligations.MotorCommandsComplete : Prop :=
  (∀ s c n, Runs s motSetAxisSpec c → idx 6 (bits (pw c 0) 2 0) = some n → (axis s n).state = .disabled → feedBusy s n = false →
    1 ≤ bits (pw c 0) 15 8 → bits (pw c 0) 23 16 ≤ 128 → (bit (pw c 0) 3 = true → sbits (pw c 1) 31 0 ≠ 0) → 1 ≤ bits (pw c 2) 15 0 →
    bits (pw c 2) 15 0 ≤ bits (pw c 2) 31 16 → Completes s (.motSetAxis c) motSetAxisSpec c stOk 0 [] (touch (modAxis s n fun x => { x with
      encEn := bit (pw c 0) 3, dirInv := bit (pw c 0) 4, rejectRev := bit (pw c 0) 5, jogEn := bit (pw c 0) 6, encFilt := bits (pw c 0) 15 8
      hyst := bits (pw c 0) 23 16, ratio := sbits (pw c 1) 31 0, devWin := bits (pw c 2) 15 0, stallWin := bits (pw c 2) 31 16
      runI := bits (pw c 3) 7 0, holdI := bits (pw c 3) 15 8, homeI := bits (pw c 3) 23 16, holdDelay := bits (pw c 3) 31 24, configured := true }) .mot)) ∧
  (∀ s c n, Runs s motSetLimitsSpec c → idx 6 (bits (pw c 0) 2 0) = some n → (axis s n).state ≠ .fault → 1 ≤ (pw c 1).toNat → (pw c 1).toNat ≤ 25600000 →
    1 ≤ (pw c 2).toNat → (pw c 2).toNat < 2 ^ 31 → 1 ≤ (pw c 3).toNat → (pw c 3).toNat < 2 ^ 31 → 1 ≤ (pw c 4).toNat →
    (pw c 3).toNat ≤ (pw c 5).toNat → (pw c 5).toNat < 2 ^ 31 → (pw c 4).toNat ≤ (pw c 6).toNat →
    Completes s (.motSetLimits c) motSetLimitsSpec c stOk 0 [] (touch (modAxis s n fun x => { x with
      vmax := (pw c 1).toNat, amax := (pw c 2).toNat, dmax := (pw c 3).toNat, jmax := (pw c 4).toNat, qdmax := (pw c 5).toNat
      qjmax := (pw c 6).toNat, replan := true }) .mot)) ∧
  (∀ s c n, Runs s motSetBandsSpec c → idx 6 (bits (pw c 0) 2 0) = some n → (axis s n).state ≠ .fault →
    (∀ b : Fin 7, (pw c (1 + b.val)).toNat ≤ (pw c (2 + b.val)).toNat) → nextWith (exec (.motSetBands c) s) fun t => Replied s t motSetBandsSpec c stOk 0 [] ∧
      (∀ b : Fin 8, vget (axis t n).up b = (pw c (1 + b.val)).toNat) ∧ (axis t n).p = (axis s n).p ∧ (axis t n).v = (axis s n).v ∧
        ∀ m, m ≠ n → axis t m = axis s m) ∧
  (∀ s c n, Runs s motSetInputsSpec c → idx 6 (bits (pw c 0) 2 0) = some n → (axis s n).state = .disabled → bits (pw c 1) 25 16 ≤ 1000 →
    (bits (pw c 1) 1 0 = bits (pw c 1) 5 4 → bits (pw c 1) 1 0 ≠ 1 ∧ bits (pw c 1) 1 0 ≠ 2) →
    nextWith (exec (.motSetInputs c) s) fun t => Replied s t motSetInputsSpec c stOk 0 [] ∧ (axis t n).debounce = bits (pw c 1) 25 16 ∧
      (vget (axis t n).inputs 0).role = bits (pw c 1) 1 0 ∧ (vget (axis t n).inputs 1).role = bits (pw c 1) 5 4 ∧
      (vget (axis t n).inputs 0).low = bit (pw c 1) 2 ∧ (vget (axis t n).inputs 1).low = bit (pw c 1) 6) ∧
  (∀ s c n, Runs s motEnableSpec c → idx 6 (bits (pw c 0) 2 0) = some n → bit (pw c 0) 8 = true → (axis s n).configured = true →
    (axis s n).state = .disabled → nextWith (exec (.motEnable c) s) fun t => Replied s t motEnableSpec c stOk 0 [] ∧ (axis t n).state = .idle ∧
      (axis t n).plkEn = true ∧ (axis t n).framesAt = s.ct + 4000 + 512 ∧ (axis t n).v = 0 ∧
      ((axis s n).encEn = false → (axis t n).p = (axis s n).p) ∧
      ((axis s n).encEn = true → (axis t n).p = nearest ((axis s n).encOff + encUnits (axis s n)) * one32 ∧ (axis t n).dev = 0)) ∧
  (∀ s c n, Runs s motEnableSpec c → idx 6 (bits (pw c 0) 2 0) = some n → bit (pw c 0) 8 = false → (axis s n).state ≠ .disabled →
    nextWith (exec (.motEnable c) s) fun t => (axis t n).state = .disabled ∧ (axis t n).v = 0 ∧ (axis t n).plkEn = false ∧ (axis t n).waits = [] ∧
      (axis t n).cmd = none ∧ (axis t n).homed = ((axis s n).homed && (axis s n).encEn)) ∧
  (∀ s c n, Runs s motMoveToSpec c → idx 6 (bits (pw c 0) 2 0) = some n → NoneFails (motionChecks s c n (posParam c 1 - (axis s n).p)) →
    ((axis s n).rejectRev = true → behind (axis s n) (posParam c 1) = false) →
    Starts s (.motMoveTo c) c (modAxis s n fun x => { x with waits := x.waits ++ [
      { pair := c.pair, tag := c.tag, isMove := true, goal := posParam c 1, tack := startTack c, since := s.ct + 20000 }] })) ∧
  (∀ s c n, Runs s motSetVelocitySpec c → idx 6 (bits (pw c 0) 2 0) = some n → NoneFails (motionChecks s c n (sbits (pw c 1) 31 0)) →
    Starts s (.motSetVelocity c) c (modAxis s n fun x => { x with waits := x.waits ++ [
      { pair := c.pair, tag := c.tag, isMove := false, goal := sbits (pw c 1) 31 0, tack := startTack c, since := s.ct + 20000 }] })) ∧
  (∀ s c n, Runs s motStopSpec c → idx 6 (bits (pw c 0) 2 0) = some n → (axis s n).state = .idle → (axis s n).waits = [] → (axis s n).cmd = none →
    (axis s n).homing = none → Completes s (.motStop c) motStopSpec c stOk 0 (posWords (axis s n).p) s) ∧
  (∀ s c n, Runs s motStopSpec c → idx 6 (bits (pw c 0) 2 0) = some n → (axis s n).state ∈ [.position, .velocity, .homing, .stopping] → atRest (axis s n) = false →
    nextWith (exec (.motStop c) s) fun t => (axis t n).state = .stopping ∧ (axis t n).vt = 0 ∧ (axis t n).quick = ((axis s n).quick || bit (pw c 0) 8) ∧
      (axis t n).waits = [] ∧ (axis t n).cmd = none ∧ (axis t n).p = (axis s n).p ∧
      (axis t n).ends = (axis s n).ends ++ [{ pair := c.pair, tag := c.tag, withPos := true }]) ∧
  (∀ s c n, Runs s motHomeSpec c → idx 6 (bits (pw c 0) 2 0) = some n → (axis s n).state = .idle → feedBusy s n = false → bits (pw c 0) 9 8 ≠ 3 →
    (bits (pw c 0) 9 8 = 0 → (axis s n).encEn = true) → s.hkp.shutdown = false → blocked (axis s n) (if bit (pw c 0) 10 then -1 else 1) = false →
    nextWith (exec (.motHome c) s) fun t => Underway t c ∧ (axis t n).state = .homing ∧ (axis t n).homed = false ∧
      (axis t n).vt = (if bit (pw c 0) 10 then -((pw c 1).toNat : Int) else (pw c 1).toNat) ∧
      (axis t n).current = (if bits (pw c 0) 9 8 = 0 then 2 else 1) ∧ (axis t n).p = (axis s n).p) ∧
  (∀ s c n, Runs s motSetPositionSpec c → idx 6 (bits (pw c 0) 2 0) = some n → (axis s n).state = .idle → feedBusy s n = false →
    nextWith (exec (.motSetPosition c) s) fun t => Replied s t motSetPositionSpec c stOk 0 [] ∧ (axis t n).p = posParam c 1 ∧ (axis t n).dev = 0 ∧
      deviation (axis t n) = 0 ∧ (axis t n).state = .idle) ∧
  (∀ s c n, Runs s motClearSpec c → idx 6 (bits (pw c 0) 2 0) = some n →
    (∀ i : Fin 2, (vget (axis s n).inputs i).chat = true → ∀ t ∈ (vget (axis s n).inputs i).edges, t + 20000000 ≤ s.ct) →
    nextWith (exec (.motClear c) s) fun t => Replied s t motClearSpec c stOk 0 [] ∧ (axis t n).state = (if (axis s n).state = .fault then .idle else (axis s n).state) ∧
      (∀ i : Fin 2, (vget (axis t n).inputs i).chat = false) ∧ (axis t n).current = (axis s n).current ∧ (axis t n).p = (axis s n).p)

/-- An axis moves tick by tick (R411, R412, R414, R415, R417, R436, R439): a tick in velocity mode is one tick of R414 towards VT, ten microseconds after the last; the last tick of a
plan ends at the target exactly and the axis rests; a waiting velocity command, or a move, takes effect at its tick while a sequencer runs; after HOLD_DELAY at rest the current is HOLD_I. -/
def Obligations.AxisMoves : Prop :=
  (∀ s n y, s.glb.sysLock = true → (axis s n).state = .velocity → (axis s n).waits = [] → (axis s n).encEn = false → (axis s n).quick = false →
    y = steer (axis s n) (clampTo ((vLimit (axis s n) : Nat) * q64) ((axis s n).vt * q64)) (axis s n).dmax (axis s n).jmax → y.a ≠ 0 →
    nextWith (exec (.motTick n) s) fun t => t.ct = max s.ct (axis s n).tickAt ∧ (axis t n).p = y.p ∧ (axis t n).v = y.v ∧ (axis t n).a = y.a ∧ (axis t n).jk = y.jk ∧
      (axis t n).state = .velocity ∧ (axis t n).tickAt = (axis s n).tickAt + 4000 ∧ ∀ m, m ≠ n → axis t m = axis s m) ∧
  (∀ s n g, s.glb.sysLock = true → (axis s n).state = .position → (axis s n).planned = true → (axis s n).replan = false → (axis s n).ceil = none →
    (axis s n).plan = [(g, 1)] → (axis s n).waits = [] → (axis s n).encEn = false → nextWith (exec (.motTick n) s) fun t =>
      (axis t n).p = (axis s n).target ∧ (axis t n).v = 0 ∧ (axis t n).a = 0 ∧ (axis t n).state = .idle ∧ (axis t n).cmd = none ∧
      (axis t n).tickAt = (axis s n).tickAt + 4000) ∧
  (∀ s n w, s.glb.sysLock = true → (axis s n).waits = [w] → waitDue w (axis s n).tickAt = true → w.isMove = false → (axis s n).state = .idle →
    blocked (axis s n) w.goal = false → s.hkp.shutdown = false → fwRuns s = true → nextWith (exec (.moveStart n) s) fun t =>
      (axis t n).state = .velocity ∧ (axis t n).vt = w.goal ∧ (axis t n).cmd = some (w.pair, w.tag) ∧ (axis t n).waits = [] ∧ (axis t n).p = (axis s n).p ∧
      t.ct = max s.ct (axis s n).tickAt) ∧
  (∀ s n t0, s.glb.sysLock = true → (axis s n).restAt = some t0 → nextWith (exec (.holdDelayExpiry n) s) fun t =>
    (axis t n).current = 0 ∧ (axis t n).restAt = none ∧ (axis t n).p = (axis s n).p ∧ t.ct = max s.ct (t0 + 400000 * (axis s n).holdDelay)) ∧
  (∀ s n w, s.glb.sysLock = true → (axis s n).waits = [w] → waitDue w (axis s n).tickAt = true → w.isMove = true → (axis s n).state = .idle →
    blocked (axis s n) (w.goal - (axis s n).p) = false → ((axis s n).rejectRev = true → behind (axis s n) w.goal = false) → s.hkp.shutdown = false →
    fwRuns s = true → nextWith (exec (.moveStart n) s) fun t =>
      (axis t n).state = .position ∧ (axis t n).target = w.goal ∧ (axis t n).cmd = some (w.pair, w.tag) ∧ (axis t n).waits = [] ∧ (axis t n).p = (axis s n).p ∧
      t.ct = max s.ct (axis s n).tickAt)

/-- Encoder, inputs, jog and the read of MOT_STAT (R426, R427, R431, R433, R440, R444): an edge counts with its stamp; a quadrature error is counted; a qualified edge turns
the input's level; a limit trip ahead stops the axis quickly; a jog write sets the velocity, 100 ms without one end it; a read of MOT_STAT captures
the axis. -/
def Obligations.AxisInputs : Prop :=
  (∀ s n up, nextWith (exec (.encoderEdge n up) s) fun t => (axis t n).count = signed 32 (toBits 32 ((axis s n).count + if up then 1 else -1)) ∧
    (axis t n).encAt = s.ct - ((axis s n).encFilt + 2) ∧ (axis t n).p = (axis s n).p ∧ ∀ m, m ≠ n → axis t m = axis s m) ∧
  (∀ s n, nextWith (exec (.quadratureError n) s) fun t => (axis t n).errQuad = satAdd 0xFFFF (axis s n).errQuad 1 ∧ (axis t n).count = (axis s n).count) ∧
  (∀ s n i, (axis s n).state ≠ .homing → nextWith (exec (.inputQualifiedEdge n i) s) fun t =>
    (vget (axis t n).inputs i).qual = !(vget (axis s n).inputs i).qual ∧ (vget (axis t n).inputs i).raw = !(vget (axis s n).inputs i).qual ∧
      (vget (axis t n).inputs i).role = (vget (axis s n).inputs i).role ∧ (axis t n).p = (axis s n).p) ∧
  (∀ s n i, (axis s n).state = .velocity → (axis s n).v ≠ 0 → (vget (axis s n).inputs i).role = (if 0 < (axis s n).v then 2 else 1) →
    (vget (axis s n).inputs i).qual = false → (vget (axis s n).inputs i).chat = false → nextWith (exec (.inputQualifiedEdge n i) s) fun t =>
      (axis t n).state = .stopping ∧ (axis t n).quick = true ∧ (axis t n).limitStop = true ∧ (axis t n).vt = 0 ∧ (axis t n).cmd = none) ∧
  (∀ s n w, s.bob.linkUp = true → (axis s n).jogEn = true → ((axis s n).state = .idle ∨ ((axis s n).state = .velocity ∧ (axis s n).jog = true)) →
    blocked (axis s n) (sbits w 31 0) = false → s.hkp.shutdown = false → nextWith (exec (.jogWrite n w) s) fun t =>
      (axis t n).state = .velocity ∧ (axis t n).vt = sbits w 31 0 ∧ (axis t n).jog = true ∧ (axis t n).jogAt = s.ct ∧ (axis t n).p = (axis s n).p) ∧
  (∀ s n, s.glb.sysLock = true → (axis s n).jog = true → nextWith (exec (.jogTimeout n) s) fun t => (axis t n).vt = 0 ∧ (axis t n).jog = true ∧
    t.ct = max s.ct ((axis s n).jogAt + 40000000)) ∧
  (∀ s n, s.bob.linkUp = true → nextWith (exec (.motStatRead n) s) fun t => t.out = s.out ++ [.hostRead .success (natLe (motStat s n).toNat 4)] ∧
    (axis t n).snapPos = (axis s n).p / one32 ∧ (axis t n).snapVel = wholeVel (axis s n).v ∧ (axis t n).snapEnc = (axis s n).count ∧
      (axis t n).snapDev = (axis s n).dev)

/-- The time bases are set and read (from R447, R449, R450 and R471): SET gives the time and cancels a slew, STEP adds to it, SLEW replaces the slew and
answers what was left, RATE sets the rate; each leaves CT as it is; a read of TIM_CT_LO captures CT and the time bases; a slew runs out after the FIRE
cycles it needs. -/
def Obligations.TimeBasesSet : Prop :=
  (∀ s c, Runs s timSetTbSpec c → setTbOp c = 0 → tbSlave s (setTbIdx c) = none → (pw c 3).toNat < 1000000000 →
    nextWith (exec (.timSetTbSet c) s) fun t => Replied s t timSetTbSpec c stOk 0 [] ∧ t.ct = s.ct ∧ (∀ b, b ≠ setTbIdx c → vget t.tim.tbs b = vget s.tim.tbs b) ∧
      vget t.tim.tbs (setTbIdx c) = { vget s.tim.tbs (setTbIdx c) with
        t := (setTbSecs c * 1000000000 + (pw c 3).toNat) * (25 * 2 ^ 48), slew := 0, steps := (vget s.tim.tbs (setTbIdx c)).steps + 1, stepAt := some s.ct }) ∧
  (∀ s c (x : Int), Runs s timSetTbSpec c → setTbOp c = 1 → tbSlave s (setTbIdx c) = none →
    x = (vget s.tim.tbs (setTbIdx c)).t + (signed 48 (setTbSecs c) * 1000000000 + sbits (pw c 3) 31 0) * tbNs → 0 ≤ x → tbSec x.toNat < 2 ^ 48 →
    nextWith (exec (.timSetTbStep c) s) fun t => Replied s t timSetTbSpec c stOk 0 [] ∧ t.ct = s.ct ∧ (∀ b, b ≠ setTbIdx c → vget t.tim.tbs b = vget s.tim.tbs b) ∧
      vget t.tim.tbs (setTbIdx c) = { vget s.tim.tbs (setTbIdx c) with
        t := x.toNat, steps := (vget s.tim.tbs (setTbIdx c)).steps + 1, stepAt := some s.ct }) ∧
  (∀ s c, Runs s timSetTbSpec c → setTbOp c = 2 → tbSlave s (setTbIdx c) = none → -1000000000 ≤ sbits (pw c 3) 31 0 → sbits (pw c 3) 31 0 ≤ 1000000000 →
    Completes s (.timSetTbSlew c) timSetTbSpec c stOk 0 [w32 (toBits 32 (slewNs (vget s.tim.tbs (setTbIdx c))))]
      (touch (modTb s (setTbIdx c) fun x => { x with slew := sbits (pw c 3) 31 0 * tbNs }) .tim)) ∧
  (∀ s c, Runs s timSetTbSpec c → setTbOp c = 3 → tbSlave s (setTbIdx c) = none → -32768000 ≤ sbits (pw c 4) 31 0 → sbits (pw c 4) 31 0 ≤ 32768000 →
    Completes s (.timSetTbRate c) timSetTbSpec c stOk 0 [] (touch (modTb s (setTbIdx c) fun x => { x with rate := sbits (pw c 4) 31 0 }) .tim)) ∧
  (∀ s, s.bob.linkUp = true → nextWith (exec .timCtLoRead s) fun t => t.out = s.out ++ [.hostRead .success (natLe (w32 s.ct).toNat 4)] ∧ t.tim.ctSnap = s.ct ∧
    (∀ b : Fin 4, vget t.tim.tbSnap b = (vget s.tim.tbs b).t) ∧ t.tim.tbs = s.tim.tbs ∧ t.ct = s.ct) ∧
  (∀ s b, s.glb.sysLock = true → nextWith (exec (.slewComplete b) s) fun t => (vget t.tim.tbs b).slew = 0 ∧
    t.ct = s.ct + ((vget s.tim.tbs b).slew.natAbs + (2 ^ 43 - 1)) / 2 ^ 43 ∧
      (0 ≤ ((vget s.tim.tbs b).t : Int) + (vget s.tim.tbs b).slew →
        ((vget t.tim.tbs b).t : Int) = (vget s.tim.tbs b).t + ((t.ct - s.ct) * tbInc (vget s.tim.tbs b).rate : Nat) + (vget s.tim.tbs b).slew))

/-- Tacks arm and fire (from R465 to R469): a write with ARM takes the staged set, unless a periodic tack's PERIOD lies outside its range; a write
without ARM disarms; a fire counts, disarms a single tack, and moves the target of a periodic one on by its period. -/
def Obligations.TacksFire : Prop :=
  (∀ s n v, s.bob.linkUp = true → (bit (v ||| 1) 1 = true → 1000 ≤ (vget s.tim.tacks n).periodS.toNat ∧ (vget s.tim.tacks n).periodS.toNat ≤ 2000000000) →
    nextWith (exec (.tackArm n v) s) fun t => (vget t.tim.tacks n).armed = true ∧ (vget t.tim.tacks n).rejected = false ∧
      (vget t.tim.tacks n).target = (vget s.tim.tacks n).targetS ∧ (vget t.tim.tacks n).period = (vget s.tim.tacks n).periodS.toNat ∧
      (vget t.tim.tacks n).periodic = bit (v ||| 1) 1 ∧ (vget t.tim.tacks n).tb.val = bits (v ||| 1) 3 2 ∧ (vget t.tim.tacks n).fires = (vget s.tim.tacks n).fires ∧
      ∀ k, k ≠ n → vget t.tim.tacks k = vget s.tim.tacks k) ∧
  (∀ s n v, s.bob.linkUp = true → bit (v ||| 1) 1 = true →
    ((vget s.tim.tacks n).periodS.toNat < 1000 ∨ 2000000000 < (vget s.tim.tacks n).periodS.toNat) → nextWith (exec (.tackArm n v) s) fun t =>
      (vget t.tim.tacks n).rejected = true ∧ (vget t.tim.tacks n).armed = (vget s.tim.tacks n).armed ∧ (vget t.tim.tacks n).target = (vget s.tim.tacks n).target ∧
      (vget t.tim.tacks n).periodic = (vget s.tim.tacks n).periodic) ∧
  (∀ s n v, s.bob.linkUp = true → nextWith (exec (.tackDisarm n v) s) fun t => (vget t.tim.tacks n).armed = false ∧
    (vget t.tim.tacks n).fires = (vget s.tim.tacks n).fires) ∧
  (∀ s n k, s.glb.sysLock = true → vget s.tim.tacks n = k → k.armed = true → k.periodic = false → nextWith (exec (.tackFire n) s) fun t =>
    t.ct = tackFireAt s k ∧ (vget t.tim.tacks n).armed = false ∧ (vget t.tim.tacks n).fires = k.fires + 1 ∧ (vget t.tim.tacks n).lastFire = some t.ct ∧
      (vget t.tim.tacks n).late = k.behind ∧ (vget t.tim.tacks n).target = k.target) ∧
  (∀ s n k missed, s.glb.sysLock = true → vget s.tim.tacks n = k → k.armed = true → k.periodic = true →
    missed = (tackDiff (advanceTo s (tackFireAt s k)) k).natAbs / max 1 k.period → nextWith (exec (.tackFire n) s) fun t =>
      t.ct = tackFireAt s k ∧ (vget t.tim.tacks n).armed = true ∧ (vget t.tim.tacks n).target = k.target + w32 ((missed + 1) * k.period) ∧
      (vget t.tim.tacks n).missed = min 255 missed ∧ (vget t.tim.tacks n).fires = k.fires + 1 ∧ (vget t.tim.tacks n).late = (k.behind || decide (0 < missed)))

/-- The Ethernet ports and PTP instances are set up, and host messages pass, (from R452, R453, R457, R463, R464, R471 and R472): a link change is taken and
reported; a discarded frame is counted; SET_PORT and SET_PTP put their settings in force; SEND_MSG sends the message and answers its transmit stamp;
RECV_MSG takes the oldest waiting message or waits; a message that comes waits in the queue of 16 or is counted as lost. -/
def Obligations.EthernetPortsServe : Prop :=
  (∀ s e, (vget s.eth e).link = false → (vget s.eth e).cfg.mode ≠ 0 → s.glb.sdLock = true →
    exec (.ethLinkChange e true) s = .next (raise (modEth s e fun p => { p with link := true }) 173 e.val 1 (w32 (vget s.eth e).cfg.mode))) ∧
  (∀ s e, (vget s.eth e).link = true →
    exec (.ethLinkChange e false) s = .next (raise (modEth s e fun p => { p with link := false }) 173 e.val 0 (w32 (vget s.eth e).cfg.mode))) ∧
  (∀ s e, (vget s.eth e).link = true → nextWith (exec (.ethFrameDiscard e) s) fun t =>
    (vget t.ethq e).dropFrames = satAdd 0xFFFF (vget s.ethq e).dropFrames 1 ∧ t.eth = s.eth) ∧
  (∀ s c, Runs s timSetPortSpec c → bits (pw c 0) 2 1 ≠ 3 → nextWith (exec (.timSetPort c) s) fun t => Replied s t timSetPortSpec c stOk 0 [] ∧
    (vget t.eth (ethOf c)).cfg.mode = bits (pw c 0) 2 1 ∧ (vget t.eth (ethOf c)).cfg.txLat = bits (pw c 3) 19 0 ∧
      (vget t.eth (ethOf c)).cfg.rxLat = bits (pw c 4) 19 0 ∧ (vget t.eth (ethOf c)).cfg.asym = sbits (pw c 5) 31 0 ∧
      (vget t.eth (ethOf c)).cfg.ipv4 = pw c 7 ∧ (vget t.eth (ethOf c)).ptp = (vget s.eth (ethOf c)).ptp ∧
      ((vget s.eth (ethOf c)).cfg.mode = bits (pw c 0) 2 1 → (vget t.eth (ethOf c)).link = (vget s.eth (ethOf c)).link) ∧
      ((vget s.eth (ethOf c)).cfg.mode ≠ bits (pw c 0) 2 1 → (vget t.eth (ethOf c)).link = false ∧ (vget t.eth (ethOf c)).parent = none) ∧
      (∀ e, e ≠ ethOf c → vget t.eth e = vget s.eth e)) ∧
  (∀ s c, Runs s timSetPtpSpec c → bits (pw c 0) 5 4 ≠ 3 → bits (pw c 0) 11 9 ≤ 3 → -7 ≤ sbits (pw c 4) 7 0 → sbits (pw c 4) 7 0 ≤ 4 →
    -7 ≤ sbits (pw c 4) 15 8 → sbits (pw c 4) 15 8 ≤ 5 → -7 ≤ sbits (pw c 4) 23 16 → sbits (pw c 4) 23 16 ≤ 5 → 2 ≤ bits (pw c 4) 31 24 →
    1000 ≤ (pw c 5).toNat → (pw c 5).toNat ≤ 1000000000 →
    (bits (pw c 0) 2 1 = 1 → ∀ o, o ≠ ethOf c → (vget s.eth o).ptp.role = .slave → (vget s.eth o).ptp.tb.val ≠ bits (pw c 0) 8 7) →
    nextWith (exec (.timSetPtp c) s) fun t => Replied s t timSetPtpSpec c stOk 0 [] ∧ (vget t.eth (ethOf c)).ptp.role = roleOf (bits (pw c 0) 2 1) ∧
      (vget t.eth (ethOf c)).ptp.tb.val = bits (pw c 0) 8 7 ∧ (vget t.eth (ethOf c)).ptp.p2p = bit (pw c 0) 3 ∧
      (vget t.eth (ethOf c)).ptp.oneStep = bit (pw c 0) 6 ∧ (vget t.eth (ethOf c)).ptp.domain.toNat = bits (pw c 0) 23 16 ∧
      (vget t.eth (ethOf c)).ptp.logSync = sbits (pw c 4) 7 0 ∧ (vget t.eth (ethOf c)).ptp.syncLoss = bits (pw c 4) 31 24 ∧
      (vget t.eth (ethOf c)).ptp.stepLimit = (pw c 5).toNat ∧ (vget t.eth (ethOf c)).ptp.kp = bits (pw c 6) 15 0 ∧
      (vget t.eth (ethOf c)).ptp.ki = bits (pw c 6) 31 16 ∧
      (vget t.eth (ethOf c)).parent = none ∧ ((vget s.eth (ethOf c)).ptp.role ≠ roleOf (bits (pw c 0) 2 1) → (vget t.eth (ethOf c)).integral = 0)) ∧
  (∀ s c bs, Runs s timSendMsgSpec c → bs = (wordBytes (c.words.drop 2)).take (bits (pw c 1) 10 0) → 34 ≤ bits (pw c 1) 10 0 → bits (pw c 1) 10 0 ≤ 1024 →
    (vget s.eth (ethOf c)).link = true → (bit (pw c 0) 1 = true → (vget s.ethq (ethOf c)).txq.length < 8) →
    nextWith (exec (.timSendMsg c) s) fun t => t.out = s.out ++ [.eth (ethOf c) (.hostMsg bs)] ∧
      Replied s t timSendMsgSpec c stOk 0 (if bit (pw c 0) 1 then stampWords (txStamp s (ethOf c)) else [])) ∧
  (∀ s c m rest, Runs s timRecvMsgSpec c → (vget s.cmd.pairs c.pair).outs.countP (fun o => o.op == 0x0905 && o.started) < 8 → bit (pw c 0) 1 = false →
    (vget s.ethq (ethOf c)).rxq = m :: rest → Completes s (.timRecvMsg c) timRecvMsgSpec c stOk 0 (recvWords (ethOf c) m)
      (modEthQ s (ethOf c) fun q => { q with rxq := rest })) ∧
  (∀ s c, Runs s timRecvMsgSpec c → (vget s.cmd.pairs c.pair).outs.countP (fun o => o.op == 0x0905 && o.started) < 8 → bit (pw c 0) 1 = false →
    (vget s.ethq (ethOf c)).rxq = [] → Starts s (.timRecvMsg c) c s) ∧
  (∀ s e kind m bytes, ptpMine s e m = true → recvWaiting s e = none → (vget s.ethq e).rxq.length < 16 →
    nextWith (exec (.ptpHostMessageReceive e kind m bytes) s) fun t =>
      (vget t.ethq e).rxq = (vget s.ethq e).rxq ++ [{ came := s.ct, stamp := if kind.toNat < 8 then some (rxStamp s e) else none, bytes := bytes }]) ∧
  (∀ s e kind m bytes, ptpMine s e m = true → recvWaiting s e = none → 16 ≤ (vget s.ethq e).rxq.length →
    nextWith (exec (.ptpHostMessageReceive e kind m bytes) s) fun t => (vget t.ethq e).rxq = (vget s.ethq e).rxq ∧
      (vget t.ethq e).dropMsgs = satAdd 0xFFFF (vget s.ethq e).dropMsgs 1)

/-- PTP messages run (from R457, R459, R460 and R462): a SLAVE takes a Sync and waits for its Follow_Up; a one-step Sync with a delay known moves RATE by the
servo's law or steps the time base; requests go out and their answers give delays; a MASTER sends Sync and answers; the loss of Sync leads to holdover. -/
def Obligations.PtpExchanges : Prop :=
  (∀ s e m, ptpMine s e m = true → (vget s.eth e).ptp.role = .slave → ptpFw s = true → (vget s.eth e).servo ≠ .holdover →
    ((vget s.eth e).parent = none ∨ (vget s.eth e).parent = some m.src) → m.twoStep = true → nextWith (exec (.syncReceive e m) s) fun t =>
      (vget t.eth e).parent = some m.src ∧ (vget t.eth e).lastSync = s.ct ∧ t.tim = s.tim ∧
      (vget t.eth e).syncWait = some { seq := m.seq.toNat, t2 := rxStamp s e, corr := m.corr, since := s.ct }) ∧
  (∀ s e m sm d (o : Int), ptpMine s e m = true → (vget s.eth e).ptp.role = .slave → ptpFw s = true → (vget s.eth e).servo ≠ .holdover →
    ((vget s.eth e).parent = none ∨ (vget s.eth e).parent = some m.src) → m.twoStep = false → (vget s.eth e).ptp.p2p = false → (vget s.eth e).delayPair = some sm →
    d = meanOf (vget s.eth e).ptp.avg ((((((rxStamp s e : Int) - m.ts - corr16 m.corr) + sm) / 2) :: (vget s.eth e).dHist).take 8) →
    o = (rxStamp s e : Int) - m.ts - corr16 m.corr - d - (vget s.eth e).cfg.asym →
    ∃ t, exec (.syncReceive e m) s = .next t ∧ (vget t.eth e).parent = some m.src ∧ (vget t.eth e).lastSync = s.ct ∧
      (o.natAbs ≤ (vget s.eth e).ptp.stepLimit * 16 → (vget t.eth e).integral = (vget s.eth e).integral + o ∧
        (vget t.tim.tbs (vget s.eth e).ptp.tb).t = (vget s.tim.tbs (vget s.eth e).ptp.tb).t ∧
        (vget t.tim.tbs (vget s.eth e).ptp.tb).rate = max (-32768000) (min 32768000 ((vget s.eth e).baseRate -
          (((vget s.eth e).ptp.kp : Int) * o + (vget s.eth e).ptp.ki * ((vget s.eth e).integral + o)) / 65536))) ∧
      ((vget s.eth e).ptp.stepLimit * 16 < o.natAbs → (vget t.eth e).integral = 0 ∧ (vget t.eth e).servo = .acquiring ∧
        (vget t.tim.tbs (vget s.eth e).ptp.tb).rate = (vget s.tim.tbs (vget s.eth e).ptp.tb).rate ∧
        (vget t.tim.tbs (vget s.eth e).ptp.tb).t = (((vget s.tim.tbs (vget s.eth e).ptp.tb).t : Int) - o * (tbNs / 16 : Nat)).toNat)) ∧
  (∀ s e m w, ptpMine s e m = true → (vget s.eth e).ptp.role = .slave → ptpFw s = true → (vget s.eth e).syncWait = some w → w.seq = m.seq.toNat →
    (vget s.eth e).parent = some m.src → exec (.followUpReceive e m) s =
      .next (syncDone (modEth s e fun p => { p with syncWait := none }) e m.ts w.t2 (corr16 (w.corr + m.corr)))) ∧
  (∀ s e w, s.glb.sysLock = true → ptpFw s = true → (vget s.eth e).syncWait = some w → ∃ t x, exec (.followUpTimeout e) s = .next t ∧ (vget t.eth e).syncWait = none ∧
    t.ct = max s.ct (w.since + logInterval (vget s.eth e).ptp.logSync) ∧ t.evt.net = s.evt.net ++ [x] ∧ x.num = 176 ∧ x.inst = e.val ∧ x.code = 1 ∧
      x.d0 = w32 w.seq) ∧
  (∀ s e, (vget s.eth e).link = true → (vget s.eth e).ptp.role = .slave → (vget s.eth e).ptp.p2p = false → (vget s.eth e).parent.isSome = true → ptpFw s = true →
    (vget s.ethq e).txq = [] → (∃ t, exec (.delayReqSend e false) s = .next t ∧ (vget t.eth e).delayOut = some ((vget s.eth e).seqDelay, none) ∧
      t.out = s.out ++ [.eth e (.delayReq (vget s.eth e).seqDelay)] ∧ (vget t.eth e).seqDelay = ((vget s.eth e).seqDelay + 1) % 65536) ∧
    (∃ t, exec (.delayReqSend e true) s = .next t ∧ (vget t.eth e).delayOut = some ((vget s.eth e).seqDelay, some (txStamp t e)) ∧
      t.out = s.out ++ [.eth e (.delayReq (vget s.eth e).seqDelay)] ∧ (vget t.eth e).nextDelay = t.ct + logInterval (vget s.eth e).ptp.logDelay)) ∧
  (∀ s e m t3, ptpMine s e m = true → (vget s.eth e).ptp.role = .slave → ptpFw s = true → (vget s.eth e).delayOut = some (m.seq.toNat, some t3) →
    (vget s.eth e).parent = some m.src → m.req = { clock := (vget s.eth e).ptp.clockId, port := (vget s.eth e).ptp.portNumber } →
    exec (.delayRespReceive e m) s = .next (modEth s e fun p => { p with delayOut := none, delayPair := some ((m.ts : Int) - t3 - corr16 m.corr), dCur := none
                                                                         dHist := (p.dCur.toList ++ p.dHist).take 8 })) ∧
  (∀ s e m, ptpMine s e m = true → (vget s.eth e).ptp.role = .master → (vget s.eth e).ptp.p2p = false → ptpFw s = true →
    exec (.delayReqReceive e m) s = .next (emit s (.eth e (.delayResp m.src m.seq.toNat (rxStamp s e))))) ∧
  (∀ s e, (vget s.eth e).link = true → (vget s.eth e).ptp.role ≠ .disabled → (vget s.eth e).ptp.p2p = true → ptpFw s = true → (vget s.ethq e).txq = [] →
    nextWith (exec (.pdelayReqSend e true) s) fun t => (vget t.eth e).pdelayOut = some ((vget s.eth e).seqPdelay, some (txStamp t e)) ∧
      t.out = s.out ++ [.eth e (.pdelayReq (vget s.eth e).seqPdelay)] ∧ (vget t.eth e).nextPdelay = t.ct + logInterval (vget s.eth e).ptp.logPdelay) ∧
  (∀ s e m, ptpMine s e m = true → (vget s.eth e).ptp.p2p = true → ptpFw s = true → (vget s.ethq e).txq = [] →
    nextWith (exec (.pdelayReqReceive e m true) s) fun t => t.out = s.out ++ [.eth e (.pdelayResp m.src m.seq.toNat (rxStamp s e)),
      .eth e (.pdelayRespFollowUp m.src m.seq.toNat (txStamp s e))]) ∧
  (∀ s e m t1, ptpMine s e m = true → (vget s.eth e).ptp.p2p = true → ptpFw s = true →
    m.req = { clock := (vget s.eth e).ptp.clockId, port := (vget s.eth e).ptp.portNumber } → (vget s.eth e).pdelayOut = some (m.seq.toNat, t1) →
    exec (.pdelayRespReceive e m false) s = .next (modEth s e fun p => { p with pdelayWait := some (m.seq.toNat, m.ts, corr16 m.corr, rxStamp s e) })) ∧
  (∀ s e m t1 t2 (c : Int) t4, ptpMine s e m = true → (vget s.eth e).ptp.p2p = true → ptpFw s = true →
    m.req = { clock := (vget s.eth e).ptp.clockId, port := (vget s.eth e).ptp.portNumber } → (vget s.eth e).pdelayOut = some (m.seq.toNat, some t1) →
    (vget s.eth e).pdelayWait = some (m.seq.toNat, t2, c, t4) → nextWith (exec (.pdelayRespReceive e m true) s) fun t =>
      (vget t.eth e).linkHist = (((((t4 : Int) - t1) - ((m.ts : Int) - t2) - (c + corr16 m.corr)) / 2) :: (vget s.eth e).linkHist).take 8 ∧
      (vget t.eth e).pdelayOut = none ∧ (vget t.eth e).pdelayWait = none) ∧
  (∀ s e, (vget s.eth e).link = true → (vget s.eth e).ptp.role = .master → ptpFw s = true → (vget s.ethq e).txq = [] → nextWith (exec (.syncSend e true) s) fun t =>
    (vget t.eth e).nextSync = t.ct + logInterval (vget s.eth e).ptp.logSync ∧ (vget t.eth e).seqSync = ((vget s.eth e).seqSync + 1) % 65536 ∧
      t.out = s.out ++ (if (vget s.eth e).ptp.oneStep then [.eth e (.sync (vget s.eth e).seqSync (txStamp t e) false)]
        else [.eth e (.sync (vget s.eth e).seqSync 0 true), .eth e (.followUp (vget s.eth e).seqSync (txStamp t e))])) ∧
  (∀ s e, (vget s.eth e).ptp.role = .slave → (vget s.eth e).servo ≠ .holdover → ptpFw s = true → nextWith (exec (.syncLossTimeout e) s) fun t =>
    (vget t.eth e).servo = .holdover ∧ (vget t.eth e).syncWait = none ∧ (vget t.tim.tbs (vget s.eth e).ptp.tb).slew = 0 ∧
      (vget t.tim.tbs (vget s.eth e).ptp.tb).rate = (vget s.tim.tbs (vget s.eth e).ptp.tb).rate)

/-- Heartbeats and mirroring run (from R479, R481, R484 to R488): the active's heartbeat closes an MSN with its digest; a standby's matching digest changes nothing, and a
differing one moves the grant; a lost heartbeat or a lock-up of the active moves the grant to a SYNCED standby, or makes the chip headless; a record
reaches both regions; a missing acknowledgement makes the standby SYNCING with the active's region. -/
def Obligations.HeartbeatsAndMirror : Prop :=
  (∀ s q stray x, s.glb.sysLock = true → sqOf s q = x → x.state = .active → x.halted = false → x.lockup = 0 → s.seq.granted = true → s.seq.active = q →
    nextWith (exec (.heartbeat q stray) s) fun t => t.ct = max s.ct (x.hbAt + 4000) ∧ (sqOf t q).hbAt = t.ct ∧ (sqOf t q).msn = x.msn + 1 ∧
      (sqOf t q).region = regionWrite x.region stray ∧ (sqOf t q).dig = regionDigest (regionWrite x.region stray) ∧
      t.seq.digests = ((x.msn + 1, regionDigest (regionWrite x.region stray)) :: s.seq.digests).take 4 ∧ t.seq.granted = true ∧ t.seq.active = q) ∧
  (∀ s q x, sqOf s q = x → x.state = .standby → x.halted = false → x.lockup = 0 → s.seq.granted = true → s.seq.active ≠ q →
    s.seq.digests.find? (fun p => p.1 == x.msn) = some (x.msn, x.dig) → nextWith (exec (.heartbeat q []) s) fun t =>
      (sqOf t q).state = .standby ∧ (sqOf t q).hbMsn = x.msn ∧ (sqOf t q).hbDig = x.dig ∧ t.seq.granted = true ∧ t.seq.active = s.seq.active ∧
      t.seq.epoch = s.seq.epoch) ∧
  (∀ s q x d, sqOf s q = x → x.state = .standby → x.halted = false → x.lockup = 0 → s.seq.granted = true → s.seq.active ≠ q → s.seq.thmOk = true →
    s.seq.ext = false → s.seq.digests.find? (fun p => p.1 == x.msn) = some (x.msn, d) → d ≠ x.dig → nextWith (exec (.heartbeat q []) s) fun t =>
      t.seq.granted = true ∧ t.seq.active = q ∧ t.seq.epoch = s.seq.epoch + 1 ∧ t.seq.lastCause = 2 ∧ t.seq.lastSeq = s.seq.active ∧
      (sqOf t q).state = .active ∧ t.seq.takeover = some (t.ct, false)) ∧
  (∀ s q, s.seq.thmOk = true → s.seq.ext = false → s.seq.granted = true → s.seq.active = q → (sqOf s q).state = .active → synced s (otherSq q) = true →
    nextWith (exec (.heartbeatLoss q) s) fun t => t.seq.active = otherSq q ∧ t.seq.granted = true ∧ t.seq.epoch = s.seq.epoch + 1 ∧ t.seq.lastCause = 1 ∧
      t.seq.revocations = satAdd 255 s.seq.revocations 1 ∧ (sqOf t (otherSq q)).state = .active ∧ t.seq.headless = false) ∧
  (∀ s q, s.seq.thmOk = true → s.seq.ext = false → s.seq.granted = true → s.seq.active = q → (sqOf s q).state = .active → synced s (otherSq q) = false →
    nextWith (exec (.heartbeatLoss q) s) fun t => t.seq.granted = false ∧ t.seq.headless = true ∧ t.seq.epoch = s.seq.epoch ∧ t.glb.fault.getLsbD 2 = true ∧
      faultN t = false) ∧
  (∀ s q why, s.seq.thmOk = true → s.seq.ext = false → s.seq.granted = true → s.seq.active = q → (sqOf s q).state = .active → synced s (otherSq q) = true →
    nextWith (exec (.lockup q why) s) fun t => t.seq.active = otherSq q ∧ t.seq.epoch = s.seq.epoch + 1 ∧ t.seq.lastCause = 3 ∧ t.seq.lastLockup = lockCode why) ∧
  (∀ s ws a, s.seq.active = a → s.seq.granted = true → (sqOf s a).halted = false → (sqOf s a).lockup = 0 → (sqOf s (otherSq a)).state = .standby →
    (sqOf s (otherSq a)).stuck = false → nextWith (exec (.mirrorRecordReceive ws true) s) fun t => (sqOf t a).region = regionWrite (sqOf s a).region ws ∧
      (sqOf t (otherSq a)).region = regionWrite (sqOf s (otherSq a)).region ws ∧ (sqOf t (otherSq a)).stuck = false) ∧
  (∀ s a, s.seq.active = a → s.seq.granted = true → (sqOf s (otherSq a)).state = .standby → nextWith (exec .mirrorAckTimeout s) fun t =>
    (sqOf t (otherSq a)).state = .syncing ∧ (sqOf t (otherSq a)).region = (sqOf s a).region ∧ (sqOf t (otherSq a)).msn = (sqOf s a).msn)

/-- Sequencers start, swap and take over (from R488 to R503 and R576): a sequencer leaves RESET after 1 us; its self-test leads to LOADING or FAILED; the first grant goes to
sequencer A with the next epoch and clears the BOOT cause; a grant that ends a headless period starts cold; a taken-over chip has every block at the new epoch; a planned swap moves the grant when the
digests agree, and is deferred without a SYNCED standby or while a command blocks it; an interval of 0 calls off a deferred one no command asked for; the thimble's input selects the sequencer; the SEQ commands and a debugger's halt take effect. -/
def Obligations.SequencersTakeOver : Prop :=
  (∀ s q, s.glb.sysLock = true → (sqOf s q).state = .reset → s.glb.bootState = .done → nextWith (exec (.seqResetRelease q) s) fun t =>
    (sqOf t q).state = .selftest ∧ (sqOf t q).since = t.ct ∧ t.ct = max s.ct ((sqOf s q).since + 400)) ∧
  (∀ s q, (sqOf s q).state = .selftest → nextWith (exec (.seqSelftestDone q true) s) fun t => (sqOf t q).state = .loading) ∧
  (∀ s q, (sqOf s q).state = .selftest → s.fw.granted = true → nextWith (exec (.seqSelftestDone q false) s) fun t => (sqOf t q).state = .failed ∧
    (sqOf t q).testFails = satAdd 255 (sqOf s q).testFails 1 ∧ (sqOf t q).repair = none) ∧
  (∀ s, (sqOf s 0).state = .loading → s.fw.granted = false → s.seq.thmOk = true → s.seq.ext = false → nextWith (exec (.seqLoadingDone 0) s) fun t =>
    (sqOf t 0).state = .active ∧ t.seq.granted = true ∧ t.seq.active = 0 ∧ t.seq.epoch = s.seq.epoch + 1 ∧ t.fw.granted = true ∧
      t.glb.fault.getLsbD 0 = false ∧ t.seq.takeover = none) ∧
  (∀ s q, (sqOf s q).state = .loading → s.fw.granted = true → s.seq.headless = false → s.seq.granted = true → nextWith (exec (.seqLoadingDone q) s) fun t =>
    (sqOf t q).state = .syncing ∧ (sqOf t q).region = (sqOf s (otherSq q)).region ∧ t.seq.active = s.seq.active) ∧
  (∀ s t0 cold, s.seq.takeover = some (t0, cold) → s.seq.granted = true → (sqOf s s.seq.active).halted = false → (sqOf s s.seq.active).lockup = 0 →
    nextWith (exec .takeoverDone s) fun t => t.seq.takeover = none ∧ (∀ b, (vget t.ep b).epoch = s.seq.epoch) ∧ t.seq.active = s.seq.active ∧
      t.seq.epoch = s.seq.epoch ∧ (sqOf t 0).repair = none ∧ (sqOf t 1).repair = none ∧ t.seq.swapRan = false) ∧
  (∀ s a, s.seq.active = a → canSwap s = true → 0 < s.seq.swapInterval → s.seq.swapRetry = none → synced s (otherSq a) = true → swapBlocked s = false →
    (sqOf s a).region = (sqOf s (otherSq a)).region → (sqOf s (otherSq a)).stuck = false → nextWith (exec .plannedSwap s) fun t =>
      t.seq.active = otherSq a ∧ t.seq.epoch = s.seq.epoch + 1 ∧ (sqOf t a).state = .standby ∧ (sqOf t (otherSq a)).state = .active ∧
      t.seq.swaps = satAdd 255 s.seq.swaps 1 ∧ t.seq.swapFrom = t.ct ∧ (s.glb.sysLock = true → t.ct = max s.ct (s.seq.swapFrom + sec s.seq.swapInterval))) ∧
  (∀ s, canSwap s = true → 0 < s.seq.swapInterval → s.seq.swapRetry = none → (synced s (otherSq s.seq.active) = false ∨ swapBlocked s = true) →
    nextWith (exec .plannedSwap s) fun t => t.seq.swapRetry = some (t.ct + 400000000) ∧ t.seq.active = s.seq.active ∧ t.seq.epoch = s.seq.epoch) ∧
  (∀ s a t0, s.seq.active = a → canSwap s = true → s.seq.swapRetry = some t0 → synced s (otherSq a) = true → swapBlocked s = false →
    (sqOf s a).region = (sqOf s (otherSq a)).region → (sqOf s (otherSq a)).stuck = false → nextWith (exec .swapDeferRetry s) fun t =>
      t.seq.active = otherSq a ∧ t.seq.epoch = s.seq.epoch + 1 ∧ t.seq.swapRetry = none) ∧
  (∀ s b, s.seq.ext = false → exec (.thmGntChange b) s = .next { s with seq := { s.seq with gnt := b } }) ∧
  (∀ s b (k : Fin 2), s.seq.ext = true → s.seq.thmOk = true → s.fw.granted = true → s.seq.headless = false → k.val = b2n b → k ≠ s.seq.active →
    synced s k = true → nextWith (exec (.thmGntChange b) s) fun t => t.seq.active = k ∧ t.seq.epoch = s.seq.epoch + 1 ∧ t.seq.lastCause = 5 ∧ t.seq.gnt = b) ∧
  (∀ s c, Runs s seqSetSwapSpec c → s.seq.ext = false → bits (pw c 0) 16 0 ≤ 86400 →
    Completes s (.seqSetSwap c) seqSetSwapSpec c stOk 0 [] { s with seq := { s.seq with
      swapInterval := bits (pw c 0) 16 0
      swapRetry := if bits (pw c 0) 16 0 = 0 && s.seq.swapCmd.isNone then none else s.seq.swapRetry } }) ∧
  (∀ s c a, Runs s seqSwapSpec c → s.seq.active = a → s.seq.ext = false → s.seq.swapCmd = none → synced s (otherSq a) = true → swapBlocked s = false →
    (sqOf s a).region = (sqOf s (otherSq a)).region → (sqOf s (otherSq a)).stuck = false → nextWith (exec (.seqSwap c) s) fun t => Underway t c ∧
      t.seq.active = otherSq a ∧ t.seq.epoch = s.seq.epoch + 1 ∧ t.seq.swapCmd = some (c.pair, c.tag) ∧ t.seq.swapRan = true) ∧
  (∀ s c (q : Fin 2), Runs s seqRepairSpec c → q.val = bits (pw c 0) 0 0 → (sqOf s q).state = .failed → nextWith (exec (.seqRepair c) s) fun t => Underway t c ∧
    (sqOf t q).state = .reset ∧ (sqOf t q).repair = some (c.pair, c.tag)) ∧
  (∀ s q, (s.glb.dbgLevel = 2 ∨ Config.locked = false) → exec (.sequencerHalt q) s = .next (modSq s q fun x => { x with halted := true })) ∧
  (∀ s q, (sqOf s q).state = .loading → s.fw.granted = true → s.seq.headless = true → s.seq.thmOk = true → s.seq.ext = false →
    nextWith (exec (.seqLoadingDone q) s) fun t => (sqOf t q).state = .active ∧ t.seq.granted = true ∧ t.seq.active = q ∧ t.seq.epoch = s.seq.epoch + 1 ∧
      t.seq.headless = false ∧ t.glb.fault.getLsbD 2 = false ∧ t.seq.takeover = some (t.ct, true))

/-- Writes of the sequencers reach the blocks (from R181, R477 and R490): a write that does not pass its gate is counted; one of an older epoch is counted by
its block, or by the port at HLK, and changes nothing else; one of the block's epoch or a newer one is applied, at PDP as the scheduling it carries, and the
block then has seen that epoch; a repeat of a write applied under an earlier epoch changes no register. -/
def Obligations.SequencerWritesGated : Prop :=
  (∀ s b q epoch pair tag ws, gatePasses s q = false →
    exec (.sequencerWriteArrival b q epoch pair tag ws) s = .next { s with seq := { s.seq with discards := satAdd 0xFFFF s.seq.discards 1 } }) ∧
  (∀ s b q epoch pair tag ws, gatePasses s q = true → b ≠ .hlk → epoch.toNat < (vget s.ep (epIdx b)).epoch.toNat → ∃ t x,
    exec (.sequencerWriteArrival b q epoch pair tag ws) s = .next t ∧ (vget t.ep (epIdx b)).stale = sat32 (vget s.ep (epIdx b)).stale 1 ∧
      (vget t.ep (epIdx b)).epoch = (vget s.ep (epIdx b)).epoch ∧ t.evt.net = s.evt.net ++ [x] ∧ x.num = staleEvent b ∧ x.d0 = epoch ∧
      t = { s with ep := t.ep, evt := t.evt }) ∧
  (∀ s b q epoch pair tag ws, gatePasses s q = true → (vget s.ep (epIdx b)).epoch.toNat ≤ epoch.toNat →
    (vget s.ep (epIdx b)).applied.any (fun x => x.1.toNat < epoch.toNat && x.2 == (pair, tag, ws)) = true → nextWith
      (exec (.sequencerWriteArrival b q epoch pair tag ws) s) fun t => (vget t.ep (epIdx b)).epoch = epoch ∧ t = { s with ep := t.ep }) ∧
  (∀ s q epoch pair tag w, gatePasses s q = true → (vget s.ep 4).epoch.toNat ≤ epoch.toNat →
    (vget s.ep 4).applied.any (fun x => x.1.toNat < epoch.toNat && x.2 == (pair, tag, [(0x300004, w)])) = false → nextWith
      (exec (.sequencerWriteArrival .cam q epoch pair tag [(0x300004, w)]) s) fun t => (vget t.ep 4).epoch = epoch ∧ t.cam.rate = bits w 11 0 ∧
        (vget t.ep 4).stale = (vget s.ep 4).stale ∧ t.fir = s.fir) ∧
  (∀ s b q epoch pair tag ws, b ≠ .pdp → gatePasses s q = true → (vget s.ep (epIdx b)).epoch.toNat ≤ epoch.toNat →
    (vget s.ep (epIdx b)).applied.any (fun x => x.1.toNat < epoch.toNat && x.2 == (pair, tag, ws)) = false →
    exec (.sequencerWriteArrival b q epoch pair tag ws) s = .next (ws.foldl (cfgWrite b)
      { s with ep := vmod s.ep (epIdx b) fun e => { e with epoch := epoch, applied := (epoch, pair, tag, ws) :: e.applied } })) ∧
  (∀ s q epoch pair tag ws, gatePasses s q = true → epoch.toNat < (vget s.ep (epIdx .hlk)).epoch.toNat →
    nextWith (exec (.sequencerWriteArrival .hlk q epoch pair tag ws) s) fun t =>
      (hport t (hlkPortOf ws)).staleWrites = sat32 (hport s (hlkPortOf ws)).staleWrites 1 ∧ t = { s with hlk := t.hlk, evt := t.evt }) ∧
  (∀ s q epoch pair tag ws, gatePasses s q = true → (vget s.ep (epIdx .pdp)).epoch.toNat ≤ epoch.toNat →
    (vget s.ep (epIdx .pdp)).applied.any (fun x => x.1.toNat < epoch.toNat && x.2 == (pair, tag, ws)) = false →
    exec (.sequencerWriteArrival .pdp q epoch pair tag ws) s = .next (cfgPdp
      { s with ep := vmod s.ep (epIdx .pdp) fun e => { e with epoch := epoch, applied := (epoch, pair, tag, ws) :: e.applied } } pair tag ws))

/-- Reads, writes and the end of a freeze (R510, R512, R515, R517, R518, R524, R526): bring-up puts the DRAM in service with every byte 0 where no request waits for it, or fails; a clean read changes nothing but the count of
refresh-management commands; a corrected one is counted; an uncorrectable one, and the fourth CRC failure of a write, freeze the controller with the first
diagnosis kept; DRC.RESET ends the freeze, in service unless training failed or is under way. -/
def Obligations.DramFreezes : Prop :=
  (∀ s, s.drc.bringUp.isSome = true → s.drc.frozen = false → s.glb.dramLock = true → s.glb.bootState ≠ .failed → s.drcx.waiting = [] → nextWith (exec (.dramBringupDone .pass) s) fun t =>
    t.drc.ready = true ∧ t.drc.training = false ∧ t.drc.bringUp = none ∧ t.dram = [] ∧ t.glb.ready.getLsbD 2 = true) ∧
  (∀ s step sc rank, s.drc.bringUp.isSome = true → s.drc.frozen = false → s.glb.dramLock = true → s.glb.bootState ≠ .failed →
    nextWith (exec (.dramBringupDone (.fail step sc rank)) s) fun t => t.drc.ready = s.drc.ready ∧ t.drc.trainFail = true ∧ t.drc.failStep = step.val + 1 ∧
      t.drc.bringUp = none ∧ t.glb.fault.getLsbD 7 = true ∧ t.dram = s.dram) ∧
  (∀ s src unit addr nbr a, a = addr.toNat / 64 * 64 → dramReady s = true → a < dramTop s → burstResult s a .clean = .clean →
    exec (.dramReadComplete src unit addr .clean .within nbr) s =
      .next (if nbr.toNat % 2 ^ s.drc.nbrK = 0 then { s with drcx := { s.drcx with rfms := s.drcx.rfms + 1 } } else s)) ∧
  (∀ s src unit addr r d nbr a, a = addr.toNat / 64 * 64 → dramReady s = true → a < dramTop s → burstResult s a r = .corrected d →
    nextWith (exec (.dramReadComplete src unit addr r .within nbr) s) fun t => t.drc.eccCorr = sat32 s.drc.eccCorr 1 ∧ t.drc.frozen = false ∧
      t.drc.ready = true ∧ t.dram = s.dram ∧ ∀ i : Fin 40, i.val = devOf s a d.val → vget t.drc.devErr i = sat32 (vget s.drc.devErr i) 1) ∧
  (∀ s src unit addr r drift nbr a sy, a = addr.toNat / 64 * 64 → dramReady s = true → a < dramTop s → burstResult s a r = .uncorrectable sy →
    nextWith (exec (.dramReadComplete src unit addr r drift nbr) s) fun t => t.drc.frozen = true ∧ t.drc.ready = false ∧ t.drc.freeze.valid = true ∧
      t.drc.freeze.cause = 1 ∧ t.drc.freeze.addr = a ∧ t.drc.freeze.source = sourceCode src ∧ t.drc.freeze.unit = unit.val ∧ a ∈ t.drc.badBursts ∧
      t.glb.fault.getLsbD 1 = true) ∧
  (∀ s src unit addr k back, dramReady s = true → 0 < k.val → k.val < 4 → nextWith (exec (.dramWriteCrcAlert src unit addr { failures := k, back := back }) s) fun t =>
    t.drc.wcrc = sat32 s.drc.wcrc k.val ∧ t.drc.frozen = false ∧ t.drc.ready = true) ∧
  (∀ s src unit addr back, dramReady s = true → nextWith (exec (.dramWriteCrcAlert src unit addr { failures := 4, back := back }) s) fun t =>
    t.drc.wcrc = sat32 s.drc.wcrc 3 ∧ t.drc.frozen = true ∧ t.drc.freeze.cause = 3 ∧ t.drc.freeze.command = (if back then 2 else 1) ∧ t.drc.freeze.addr = addr.toNat / 64 * 64) ∧
  (∀ s f g, s.drc.frozen = true → drcFreeze s f = s ∧ (drcFreeze { s with drc := { s.drc with frozen := false } } g).drc.freeze = { g with valid := true }) ∧
  (∀ s c, Runs s drcResetSpec c → s.drc.frozen = true → (s.drc.freeze.cause = 6 → dramLockHeld s = true) → s.drcx.resetCmd = none →
    Starts s (.drcReset c) c (touch { s with drcx := { s.drcx with resetCmd := some (some (c.pair, c.tag), bit (pw c 0) 0, bit (pw c 0) 1, s.drc.freeze.cause) }
                                             drc := { s.drc with training := bit (pw c 0) 1 } } .drc)) ∧
  (∀ s cmd clear full cause, s.drcx.resetCmd = some (cmd, clear, full, cause) → s.pdp.held = [] → nextWith (exec .drcResetDone s) fun t =>
    t.drc.frozen = false ∧ t.drc.ready = (s.drc.bringUp.isNone && !s.drc.trainFail) ∧ t.drcx.resetCmd = none ∧ t.glb.fault.getLsbD 1 = false ∧
      t.dram = (if clear && s.drc.freeze.source != 15 then memWrite s.dram s.drc.freeze.addr (List.replicate 64 0) else s.dram))

/-- The controller's timers and commands, and the SRAM scrubber, run (from R511 to R514, R519, R522, R523, R529 to R531): refresh is issued, or postponed under panic up
to its limit and made up when the last panic ends; calibrations and temperature readings come at their times in each rank; a buffer below its threshold is
in panic, one above twice it is not; a retraining holds requests until it ends, and of two held writes that of a port in panic is done first; the settings
take effect; a correctable SRAM word is counted. -/
def Obligations.DramKept : Prop :=
  (∀ s r, dramReady s = true → s.drc.ports.any (fun p => p.panic) = false → nextWith (exec (.refreshTimer r) s) fun t =>
    vget t.drc.postponed r = 0 ∧ t.drcx.refreshes = s.drcx.refreshes + vget s.drc.postponed r + 1) ∧
  (∀ s r, dramReady s = true → s.drc.ports.any (fun p => p.panic) = true → vget s.drc.postponed r < (if s.drc.mode = 0 then 4 else 8) →
    nextWith (exec (.refreshTimer r) s) fun t => vget t.drc.postponed r = vget s.drc.postponed r + 1 ∧ t.drcx.refreshes = s.drcx.refreshes) ∧
  (∀ s r, dramReady s = true → s.drc.ports.any (fun p => p.panic) = true → (if s.drc.mode = 0 then 4 else 8) ≤ vget s.drc.postponed r →
    nextWith (exec (.refreshTimer r) s) fun t => vget t.drc.postponed r = vget s.drc.postponed r ∧ t.drcx.refreshes = s.drcx.refreshes + 1) ∧
  (∀ s r sc, s.glb.sysLock = true → dramReady s = true → nextWith (exec (.zqCalibrationTimer r sc .within) s) fun t =>
    t.ct = max s.ct (vget s.drcx.zqAt (rankChan r sc) + 51200000) ∧ vget t.drcx.zqAt (rankChan r sc) = t.ct ∧ t.drc = s.drc) ∧
  (∀ s r sc, s.glb.sysLock = true → dramReady s = true → nextWith (exec (.dqsOscRead r sc .within) s) fun t =>
    t.ct = max s.ct (vget s.drcx.dqsAt (rankChan r sc) + 25600000) ∧ vget t.drcx.dqsAt (rankChan r sc) = t.ct ∧ t.drc = s.drc) ∧
  (∀ s r sc, dramReady s = true → nextWith (exec (.dqsOscRead r sc .outside) s) fun t => t.drc.frozen = true ∧ t.drc.freeze.cause = 4 ∧
    t.drc.freeze.source = 15 ∧ t.drc.freeze.rank = r.val ∧ t.drc.freeze.sc = sc.val) ∧
  (∀ s r code b, s.glb.sysLock = true → dramReady s = true → nextWith (exec (.deviceTempRead r code b) s) fun t => t.ct = max s.ct (vget s.drcx.tempAt r + 6400000) ∧
    vget t.drcx.hot r = b ∧ t.drc.doubled = t.drcx.hot.any id) ∧
  (∀ s r, dramReady s = true → s.drc.scrubbing = true → 0 < dramTop s → burstResult s s.drc.scrubPos r = .clean → nextWith (exec (.patrolScrub r) s) fun t =>
    t.drc = { s.drc with scrubPos := (s.drc.scrubPos + 64) % dramTop s } ∧ t.dram = s.dram) ∧
  (∀ s p level z, (vget s.drc.ports p).panic = false → level < (vget s.drc.ports p).thresh * 1024 → nextWith (exec (.drcPanicChange p level z) s) fun t =>
    (vget t.drc.ports p).panic = true ∧ (vget t.drc.ports p).since = s.ct) ∧
  (∀ s p level z, (vget s.drc.ports p).panic = true → (vget s.drc.ports p).thresh * 2048 < level → nextWith (exec (.drcPanicChange p level z) s) fun t =>
    (vget t.drc.ports p).panic = false ∧ ((∀ k, k ≠ p → (vget s.drc.ports k).panic = false) →
      t.drc.postponed = Vector.replicate 2 0 ∧ t.drcx.refreshes = s.drcx.refreshes + vget s.drc.postponed 0 + vget s.drc.postponed 1)) ∧
  (∀ s c, Runs s drcRetrainSpec c → panelOpen s = false → contextOn s = false → s.drc.frozen = false → s.drc.ready = true →
    Starts s (.drcRetrain c) c (touch { s with drcx := { s.drcx with retrainCmd := some (some (c.pair, c.tag)) }
                                               drc := { s.drc with ready := false, training := true } } .drc)) ∧
  (∀ s p tag m, s.drcx.retrainCmd = some (some (p, tag)) → s.drc.frozen = false → fwRuns s = true → s.drcx.waiting = [] → nextWith (exec (.drcRetrainDone m) s) fun t =>
    t.drcx.retrainCmd = none ∧ t.drc.ready = true ∧ t.drc.training = false ∧ t.dram = s.dram ∧
      (∀ o, findTag s p tag = some o → ∃ r ∈ (vget t.cmd.pairs p).staged, r.tag = tag ∧ r.status = stOk ∧ r.results = [w32 m.val])) ∧
  (∀ s c, Runs s drcSetRefreshSpec c → bits (pw c 0) 1 0 ≠ 3 → 8 ≤ bits (pw c 0) 12 8 → bits (pw c 0) 12 8 ≤ 16 → bits (pw c 0) 23 16 ≤ 168 →
    nextWith (exec (.drcSetRefresh c) s) fun t => Replied s t drcSetRefreshSpec c stOk 0 [] ∧ t.drc = { s.drc with
      mode := bits (pw c 0) 1 0, nbrK := bits (pw c 0) 12 8, scrubHours := bits (pw c 0) 23 16, corrWb := bit (pw c 0) 24
      scrubbing := bits (pw c 0) 23 16 != 0 && dramReady s }) ∧
  (∀ s c, Runs s drcSetQosSpec c → 32 ≤ bits (pw c 0) 9 0 → bits (pw c 0) 9 0 ≤ 512 → 4 ≤ bits (pw c 1) 5 0 → bits (pw c 1) 5 0 ≤ 48 →
    4 ≤ bits (pw c 1) 13 8 → bits (pw c 1) 13 8 ≤ 32 → nextWith (exec (.drcSetQos c) s) fun t => Replied s t drcSetQosSpec c stOk 0 [] ∧
      (vget t.drc.ports 0).thresh = bits (pw c 0) 9 0 ∧ (vget t.drc.ports 1).thresh = bits (pw c 1) 5 0 ∧ (vget t.drc.ports 2).thresh = bits (pw c 1) 13 8 ∧
      t.drc.devLimit = bits (pw c 2) 15 0 ∧ (∀ p, (vget t.drc.ports p).panic = (vget s.drc.ports p).panic)) ∧
  (∀ s c a, Runs s drcInjectSpec c → a = addr64 (pw c 0) (pw c 1) → a % 64 = 0 → a + 64 ≤ dramTop s → bits (pw c 2) 3 0 ≤ 9 →
    (bit (pw c 2) 4 = true → bits (pw c 2) 11 8 ≤ 9) → Completes s (.drcInject c) drcInjectSpec c stOk 0 [] (touch { s with drc := { s.drc with
      injects := s.drc.injects.filter (fun j => j.addr != a) ++ [{
        addr := a, dev := bits (pw c 2) 3 0, dev2 := if bit (pw c 2) 4 then some (bits (pw c 2) 11 8) else none, addrKind := bit (pw c 2) 15 }] } } .drc)) ∧
  (∀ s a, s.glb.sysLock = true → s.glb.sramInit = true → (a.toNat / 8 * 8 < 0x13E0000 ∨ 0x1440000 ≤ a.toNat / 8 * 8) →
    ∃ t e, exec (.sramScrub a false) s = .next t ∧ t.drcx.sramCorr = satAdd 0xFFFF s.drcx.sramCorr 1 ∧ t.sram = s.sram ∧
      t.evt.net = s.evt.net ++ [e] ∧ e.num = 220 ∧ e.code = 0 ∧ e.d0 = w32 (a.toNat / 8 * 8)) ∧
  (∀ s a, s.glb.sysLock = true → s.glb.sramInit = true → a.toNat / 8 * 8 < 0x360000 → nextWith (exec (.sramScrub a true) s) fun t =>
    a.toNat / 8 * 8 ∈ t.drcx.sramBad ∧ t.drcx.sramErrAddr = a.toNat / 8 * 8 ∧ t.drcx.sramUnc = satAdd 0xFFFF s.drcx.sramUnc 1) ∧
  (∀ s cmd m (p : Fin 3) a b x y, s.drcx.retrainCmd = some cmd → s.drc.frozen = false → (∀ r, vget s.drc.postponed r < postponeLimit s.drc.mode) →
    (vget s.drc.ports p).panic = true → s.drcx.waiting = [.put none a x, .put (some p) b y] → nextWith (exec (.drcRetrainDone m) s) fun t =>
      t.dram = memWrite (memWrite s.dram b y) a x ∧ t.drcx.waiting = [])

/-- Housekeeping runs (from R534, R538, R541 to R545, R559 and R561): a slot ends 250 us after the last and the next begins, a die sensor's slot takes its temperature; while a
sequencer runs, a throttle request that has stood for GRACE is enforced, and after STEP the term falls by FRACTION down to FLOOR while a group stays hot; the
settings take effect; HKP.CLEAR ends a shutdown once every group lies below its SHUTDOWN threshold less its hysteresis, and is refused before. -/
def Obligations.HousekeepingRuns : Prop :=
  (∀ s m, s.glb.sysLock = true → 46 ≤ s.hkp.slot → nextWith (exec (.hkpSlot m) s) fun t => t.ct = max s.ct s.hkp.slotAt ∧
    t.hkp.slotAt = s.hkp.slotAt + 100000 ∧ t.hkp.slot = (if 63 ≤ s.hkp.slot then 0 else s.hkp.slot + 1) ∧
      t.hkp.round = (if 63 ≤ s.hkp.slot then (s.hkp.round + 1) % 65536 else s.hkp.round)) ∧
  (∀ s m (n : Fin 46), s.glb.sysLock = true → s.hkp.slot = n.val → 40 ≤ n.val → (chan s n).mode ≠ 0 → s.hkp.shutdown = true →
    adcRuns (advanceTo s s.hkp.slotAt) = false → -550 ≤ m.die → m.die ≤ 2000 → nextWith (exec (.hkpSlot m) s) fun t => (chan t n).temp = m.die ∧
      (chan t n).sampled = some t.ct ∧ t.hkp.slot = s.hkp.slot + 1 ∧ t.freeCtr = s.freeCtr + 1) ∧
  (∀ s, s.glb.sysLock = true → s.hkp.throttle = .requested → fwRuns s = true → nextWith (exec .throttleGraceExpiry s) fun t => t.hkp.throttle = .enforced ∧ t.hkp.stepAt = t.ct ∧
    t.ct = max s.ct (s.hkp.reqAt + s.hkp.grace * 40000000) ∧
      t.hkp.term = (if s.fir.src = 1 then some (otherRate s * s.hkp.frac / 256) else none)) ∧
  (∀ s r, s.glb.sysLock = true → s.hkp.throttle = .enforced → s.hkp.term = some r → fwRuns s = true → someHot (advanceTo s (s.hkp.stepAt + s.hkp.step * 40000000)) = true →
    nextWith (exec .throttleStepExpiry s) fun t => t.hkp.term = some (max s.hkp.floor (r * s.hkp.frac / 256)) ∧ t.hkp.stepAt = t.ct ∧
      t.ct = max s.ct (s.hkp.stepAt + s.hkp.step * 40000000)) ∧
  (∀ s c n, Runs s hkpSetChannelSpec c → idx 46 (bits (pw c 0) 5 0) = some n → n.val < 40 → bits (pw c 0) 7 6 ≠ 3 → bits (pw c 0) 9 8 = 0 → (chan s n).role ≠ 1 →
    pairOk s n.val 0 (bits (pw c 0) 13 10) (bits (pw c 0) 19 14) = true → nextWith (exec (.hkpSetChannel c) s) fun t =>
      Replied s t hkpSetChannelSpec c stOk 0 [] ∧ (chan t n).mode = bits (pw c 0) 7 6 ∧ (chan t n).role = 0 ∧ (chan t n).pair = bits (pw c 0) 19 14 ∧
      (chan t n).eta = bits (pw c 1) 15 0 ∧ (chan t n).rs = bits (pw c 1) 23 16 ∧ (chan t n).r0 = (pw c 2).toNat ∧ (chan t n).b = bits (pw c 3) 15 0 ∧
      (chan t n).rb = (pw c 4).toNat ∧ (chan t n).offset = sbits (pw c 5) 15 0 ∧ ∀ m, m ≠ n → chan t m = chan s m) ∧
  (∀ s c g, Runs s hkpSetThreshSpec c → idx 9 (bits (pw c 0) 3 0) = some g → sbits (pw c 1) 15 0 < sbits (pw c 1) 31 16 →
    sbits (pw c 1) 31 16 < sbits (pw c 2) 15 0 → (groupTemp s g = none ∨ (groupTemp s g).all (fun T => decide (T < sbits (pw c 1) 15 0)) = true ∧ (vget s.hkp.groups g).inWarn = false ∧
      (vget s.hkp.groups g).inThrottle = false ∧ (vget s.hkp.groups g).inShutdown = false) → nextWith (exec (.hkpSetThresh c) s) fun t =>
      Replied s t hkpSetThreshSpec c stOk 0 [] ∧ (vget t.hkp.groups g).warn = sbits (pw c 1) 15 0 ∧ (vget t.hkp.groups g).throttle = sbits (pw c 1) 31 16 ∧
      (vget t.hkp.groups g).shutdown = sbits (pw c 2) 15 0 ∧ (vget t.hkp.groups g).hystW = bits (pw c 3) 7 0 ∧ (vget t.hkp.groups g).hystT = bits (pw c 3) 15 8 ∧
      (vget t.hkp.groups g).hystS = bits (pw c 3) 23 16) ∧
  (∀ s c (p : Fin 16), Runs s hkpSetHeadSpec c → p.val = bits (pw c 0) 3 0 → sbits (pw c 1) 15 0 ≤ sbits (pw c 1) 31 16 →
    (∀ r, (hport s p).rank = some r → r.jetLo ≤ sbits (pw c 1) 15 0 ∧ sbits (pw c 1) 31 16 ≤ r.jetHi) →
    ((hport s p).rank = none → 200 ≤ sbits (pw c 1) 15 0 ∧ sbits (pw c 1) 31 16 ≤ 600) → nextWith (exec (.hkpSetHead c) s) fun t =>
      Replied s t hkpSetHeadSpec c stOk 0 [] ∧ (vget t.hkp.heads p).lo = sbits (pw c 1) 15 0 ∧ (vget t.hkp.heads p).hi = sbits (pw c 1) 31 16 ∧
      (vget t.hkp.heads p).hyst = bits (pw c 2) 7 0 ∧ ∀ q, q ≠ p → vget t.hkp.heads q = vget s.hkp.heads q) ∧
  (∀ s c, Runs s hkpSetThrottleSpec c → bits (pw c 0) 7 0 ≤ 250 → 5 ≤ bits (pw c 0) 15 8 → bits (pw c 0) 15 8 ≤ 250 → 128 ≤ bits (pw c 0) 23 16 →
    1000 ≤ bits (pw c 1) 16 0 → bits (pw c 1) 16 0 ≤ 80000 → Completes s (.hkpSetThrottle c) hkpSetThrottleSpec c stOk 0 []
      (touch { s with hkp := { s.hkp with grace := bits (pw c 0) 7 0, step := bits (pw c 0) 15 8, frac := bits (pw c 0) 23 16, floor := bits (pw c 1) 16 0 } } .hkp)) ∧
  (∀ s c, Runs s hkpClearSpec c → pw c 0 = 1 → s.hkp.shutdown = true → (indices 9).any (stillHot s) = false →
    nextWith (exec (.hkpClear c) s) fun t => Replied s t hkpClearSpec c stOk 0 [1] ∧ t.hkp.shutdown = false ∧ t.glb.fault.getLsbD 4 = false) ∧
  (∀ s c, Runs s hkpClearSpec c → pw c 0 = 1 → s.hkp.shutdown = true → (indices 9).any (stillHot s) = true →
    Completes s (.hkpClear c) hkpClearSpec c stBadState 0x1002 [] s)

/-- Sinks work (from R547 to R551 and R559): a sink in PWM mode goes on at its next switch-on with the duty last written and off after its on-time; a pulse ends; derating and
the power estimate come every millisecond; a faulty sink goes off; the settings take effect. -/
def Obligations.SinksDriven : Prop :=
  (∀ s k, s.glb.sysLock = true → (sink s k).strobe = false → sinkWorks s k = true → sinkInCal s k = false → onTime (sink s k).dutyW s.lgt.period ≠ 0 →
    nextWith (exec (.pwmSwitchOn k) s) fun t => t.ct = max s.ct (switchOnAt s k) ∧ (sink t k).on = true ∧ (sink t k).onAt = t.ct ∧ (sink t k).duty = (sink s k).dutyW ∧
      (sink t k).fNow = (sink s k).f ∧ (sink t k).sNow = s.lgt.scale ∧ ∀ j, j ≠ k → sink t j = sink s j) ∧
  (∀ s k, s.glb.sysLock = true → (sink s k).strobe = false → sinkWorks s k = true → sinkInCal s k = true → nextWith (exec (.pwmSwitchOn k) s) fun t =>
    t.ct = max s.ct (switchOnAt s k) ∧ (sink t k).on = false ∧ (sink t k).duty = (sink s k).dutyW) ∧
  (∀ s k, s.glb.sysLock = true → (sink s k).strobe = false → (sink s k).on = true → (sink s k).duty ≠ 4095 → nextWith (exec (.pwmSwitchOff k) s) fun t =>
    (sink t k).on = false ∧ t.ct = max s.ct ((sink s k).onAt + onTime (sink s k).duty s.lgt.period)) ∧
  (∀ s k v, s.bob.linkUp = true → exec (.ledDutyWrite k v) s = .next (modSink s k fun x => { x with dutyW := bits v 11 0 })) ∧
  (∀ s k t0, s.glb.sysLock = true → (sink s k).pulseEnd = some t0 → nextWith (exec (.strobeEnd k) s) fun t =>
    (sink t k).on = false ∧ (sink t k).pulseEnd = none ∧ t.ct = max s.ct t0) ∧
  (∀ s u, s.glb.sysLock = true → u = advanceTo s s.lgt.derateAt → nextWith (exec .derateUpdate s) fun t => t.lgt.derateAt = s.lgt.derateAt + 400000 ∧
    ∀ k, (sink t k).f = derate (sink s k).knee (sink s k).endT (derateTemp u (sink s k).sensor) ∧ (sink t k).on = (sink s k).on) ∧
  (∀ s u pins, s.glb.sysLock = true → u = advanceTo s s.lgt.powerAt → nextWith (exec (.powerEstimate pins) s) fun t => t.lgt.powerAt = s.lgt.powerAt + 400000 ∧
    t.lgt.power = min 0xFFFF (powerSum u pins / powerDen) ∧ (∀ k, (sink t k).onAcc = 0) ∧
      (s.lgt.plimit * powerDen < powerSum u pins → t.lgt.limited = true ∧ t.lgt.scale = 256 * s.lgt.plimit * powerDen / powerSum u pins) ∧
      (powerSum u pins < s.lgt.plimit * powerDen → t.lgt.limited = false ∧ (s.lgt.limited = true → t.lgt.scale = 256) ∧ (s.lgt.limited = false → t.lgt.scale = s.lgt.scale))) ∧
  (∀ s k b v, (sink s k).en = true → (sink s k).fault = false → ∃ t e, exec (.sinkFault k b v) s = .next t ∧ (sink t k).fault = true ∧ (sink t k).on = false ∧
    t.evt.net = s.evt.net ++ [e] ∧ e.num = 234 ∧ e.inst = k.val ∧ e.code = (if b then 2 else 1)) ∧
  (∀ s c (k : Fin 8), Runs s lgtSetSinkSpec c → k.val = bits (pw c 0) 2 0 → s.hkp.shutdown = false → bits (pw c 2) 5 0 ≤ 45 →
    sbits (pw c 3) 15 0 + 50 ≤ sbits (pw c 3) 31 16 → (bit (pw c 0) 4 = true → bits (pw c 4) 15 0 ≠ 0) → nextWith (exec (.lgtSetSink c) s) fun t =>
      Replied s t lgtSetSinkSpec c stOk 0 [] ∧ (sink t k).en = bit (pw c 0) 3 ∧ (sink t k).strobe = bit (pw c 0) 4 ∧ (sink t k).tack.val = bits (pw c 0) 9 5 ∧
      (sink t k).iset = bits (pw c 1) 7 0 ∧ (sink t k).phase = bits (pw c 1) 15 8 ∧ (sink t k).sensor = bits (pw c 2) 5 0 ∧
      (sink t k).knee = sbits (pw c 3) 15 0 ∧ (sink t k).endT = sbits (pw c 3) 31 16 ∧ (sink t k).strobeLen = bits (pw c 4) 15 0 ∧
      ((bit (pw c 0) 3 = false ∨ bit (pw c 0) 4 ≠ (sink s k).strobe) → (sink t k).on = false)) ∧
  (∀ s c, Runs s lgtSetPwmSpec c → 6250 ≤ bits (pw c 0) 22 0 → bits (pw c 0) 22 0 ≤ 4000000 → 500 ≤ bits (pw c 1) 11 0 → bits (pw c 1) 11 0 ≤ 4000 →
    Completes s (.lgtSetPwm c) lgtSetPwmSpec c stOk 0 [] (touch { s with lgt := { s.lgt with period := bits (pw c 0) 22 0, plimit := bits (pw c 1) 11 0 } } .hkp))

/-- Chain ports work (from R552, R553 and R559): a word is queued, or counted when the FIFO is full; a frame starts once the FIFO holds enough and its first word goes out;
the devices latch LATCH_GAP after the last bit; the settings take effect. -/
def Obligations.ChainsSend : Prop :=
  (∀ s c v, s.bob.linkUp = true → (chainOf s c).sending = false → (chainOf s c).fifo.length < 128 →
    exec (.chainFifoWrite c v) s = .next (modChain s c fun x => { x with fifo := x.fifo ++ [v] })) ∧
  (∀ s c v, s.bob.linkUp = true → (chainOf s c).sending = false → 128 ≤ (chainOf s c).fifo.length →
    exec (.chainFifoWrite c v) s = .next (modChain s c fun x => { x with overflow := satAdd 255 x.overflow 1 })) ∧
  (∀ s c w ws, (chainOf s c).en = true → (chainOf s c).sending = false → s.hkp.shutdown = false → (chainOf s c).fifo = w :: ws →
    min (chainOf s c).bits 4096 ≤ 32 * (chainOf s c).fifo.length → nextWith (exec (.chainFrameStart c) s) fun t => (chainOf t c).sending = true ∧
      (chainOf t c).fifo = ws ∧ (chainOf t c).sent = min 32 (chainOf s c).bits ∧ (chainOf t c).wordEnd = s.ct + min 32 (chainOf s c).bits * 200 ∧
      t.out = s.out ++ [.chain c w (min 32 (chainOf s c).bits)]) ∧
  (∀ s c, s.glb.sysLock = true → (chainOf s c).sending = true → (chainOf s c).zeros = false → (chainOf s c).fifo = [] → (chainOf s c).sent = (chainOf s c).bits →
    nextWith (exec (.chainLatch c) s) fun t => (chainOf t c).sending = false ∧ (chainOf t c).sent = 0 ∧ (chainOf t c).underrun = (chainOf s c).underrun ∧
      t.ct = max s.ct ((chainOf s c).wordEnd + 400 * (chainOf s c).gap) ∧ t.out = s.out ++ [.chainLatch c]) ∧
  (∀ s c (p : Fin 4), Runs s lgtSetChainSpec c → p.val = bits (pw c 0) 1 0 → 48 ≤ bits (pw c 1) 15 0 → bits (pw c 1) 15 0 ≤ 65520 → 20 ≤ bits (pw c 2) 7 0 →
    (chainOf s p).sending = false → Completes s (.lgtSetChain c) lgtSetChainSpec c stOk 0 [] (touch (modChain s p fun x => { x with
      en := bit (pw c 0) 2, bits := bits (pw c 1) 15 0, gap := bits (pw c 2) 7 0, sent := min x.sent (bits (pw c 1) 15 0) }) .hkp)) ∧
  (∀ s c (p : Fin 4), Runs s lgtSetChainSpec c → p.val = bits (pw c 0) 1 0 → 48 ≤ bits (pw c 1) 15 0 → bits (pw c 1) 15 0 ≤ 65520 → 20 ≤ bits (pw c 2) 7 0 →
    nextWith (exec (.lgtSetChain c) s) fun t => Replied s t lgtSetChainSpec c stOk 0 [] ∧ (chainOf t p).en = bit (pw c 0) 2 ∧
      (chainOf t p).bits = bits (pw c 1) 15 0 ∧ (chainOf t p).gap = bits (pw c 2) 7 0 ∧ (bit (pw c 0) 2 = false → (chainOf t p).sending = false))

/-- Calibration runs (from R554 to R560): the first due group in the order of R555 begins; a run that ends puts its trims in force, a sink's at its next switch-on, or leaves the
old ones when it failed; a group deferred for 30 s is forced to the next hem; CAL.SET takes effect; CAL.RUN makes its groups due and waits for them. -/
def Obligations.CalibrationRuns : Prop :=
  (∀ s, s.glb.sysLock = true → s.glb.bootState ≠ .failed → (∀ g, (calGroup s g).running = none) → s.cal.cmds = [] → s.hkp.shutdown = false → (calGroup s 10).due = true →
    s.pdp.active = none → s.hkp.slot = 0 → nextWith (exec .calRunStart s) fun t => (calGroup t 10).running = some (s.hkp.slotAt - 100000) ∧
      (calGroup t 10).stale = false ∧ ∀ g, g ≠ 10 → calGroup t g = calGroup s g) ∧
  (∀ s (k : Fin 8) (g : Fin 11), s.glb.sysLock = true → s.glb.bootState ≠ .failed → g.val = k.val → (∀ h, (calGroup s h).running = none) → s.cal.cmds = [] → s.hkp.shutdown = false →
    (∀ h, (calGroup s h).due = true → k.val ≤ h.val ∧ h.val < 8) → (calGroup s g).due = true → (sink s k).strobe = false → s.pdp.active = none →
    nextWith (exec .calRunStart s) fun t => (calGroup t g).running = some s.ct ∧ (sink t k).on = false ∧ ∀ h, h ≠ g → calGroup t h = calGroup s h) ∧
  (∀ s g gain offset t0, s.glb.sysLock = true → g.val < 8 → (calGroup s g).running = some t0 → nextWith (exec (.calRunDone g gain offset true) s) fun t =>
    t.ct = max s.ct (t0 + 24000) ∧ (calGroup t g).running = none ∧ (calGroup t g).due = false ∧ (calGroup t g).failed = false ∧
      (calGroup t g).pending = some (gain.toNat % 256, offset.toNat % 256) ∧ (calGroup t g).gain = (calGroup s g).gain ∧ t.cal.runs = satAdd 0xFFFF s.cal.runs 1) ∧
  (∀ s g gain offset t0, s.glb.sysLock = true → (g.val = 8 ∨ g.val = 9) → (calGroup s g).running = some t0 → nextWith (exec (.calRunDone g gain offset true) s) fun t =>
    t.ct = max s.ct (t0 + 100000) ∧ (calGroup t g).running = none ∧ (calGroup t g).gain = gain.toNat % 64 ∧ (calGroup t g).offset = offset.toNat ∧
      t.cal.fails = s.cal.fails) ∧
  (∀ s g gain offset t0, s.glb.sysLock = true → g.val < 10 → (calGroup s g).running = some t0 → nextWith (exec (.calRunDone g gain offset false) s) fun t =>
    (calGroup t g).running = none ∧ (calGroup t g).failed = true ∧ (calGroup t g).gain = (calGroup s g).gain ∧ (calGroup t g).offset = (calGroup s g).offset ∧
      (calGroup t g).pending = (calGroup s g).pending ∧ t.cal.fails = satAdd 255 s.cal.fails 1) ∧
  (∀ s g t0, s.glb.sysLock = true → (calGroup s g).deferAt = some t0 → (calGroup s g).due = true → (calGroup s g).running = none →
    nextWith (exec (.calDeferTimeout g) s) fun t => (calGroup t g).forced = true ∧ t.ct = max s.ct (t0 + 12000000000)) ∧
  (∀ s c, Runs s calSetSpec c → 5 ≤ bits (pw c 0) 7 0 → bits (pw c 0) 7 0 ≤ 160 → bits (pw c 1) 5 0 ≤ 45 → bits (pw c 1) 13 8 ≤ 45 →
    nextWith (exec (.calSet c) s) fun t => Replied s t calSetSpec c stOk 0 [] ∧ t.cal.delta = bits (pw c 0) 7 0 ∧ t.cal.auto = bit (pw c 0) 8 ∧
      vget t.cal.refs 0 = bits (pw c 1) 5 0 ∧ vget t.cal.refs 1 = bits (pw c 1) 13 8 ∧ (bit (pw c 0) 8 = false → t.cal.groups = s.cal.groups)) ∧
  (∀ s c, Runs s calRunSpec c → (∀ g : Fin 11, bit (pw c 0) g.val = false) → Completes s (.calRun c) calRunSpec c stOk 0 [0, 0, 0] s) ∧
  (∀ s c (h : Fin 11), Runs s calRunSpec c → bit (pw c 0) h.val = true → nextWith (exec (.calRun c) s) fun t => Underway t c ∧
    (∀ g : Fin 11, (calGroup t g).due = ((calGroup s g).due || bit (pw c 0) g.val)) ∧ ∃ k, t.cal.cmds = s.cal.cmds ++ [k] ∧ k.pair = c.pair ∧ k.tag = c.tag ∧
      (∀ g : Fin 11, g ∈ k.mask ↔ bit (pw c 0) g.val = true) ∧ k.ran = [])

/-- Chip resets (R35, R446, R567, R569, R578, R587): power-on leaves the reset state with cause power-on and count 0; a brown-out, a low SYS_RST_N, the loss of
the system PLL and a debug reset (at debug level 2, or on a part that is not locked) leave it with their own cause and the count one higher; CT is 0, host memory, the flash and the waiting commands stay;
the rising edge of SYS_RST_N latches the straps. -/
def Obligations.ChipResets : Prop :=
  (∀ s, nextWith (exec .powerOnReset s) fun t => t.ct = 0 ∧ t.glb = State.reset.glb ∧ t.glb.causePowerOn = true ∧ t.glb.resetCount = 0 ∧ t.dram = [] ∧
    t.sram = [] ∧ t.cmd = State.reset.cmd ∧ t.fir = State.reset.fir ∧ t.mot = State.reset.mot ∧ t.hlk = State.reset.hlk ∧ t.pending = s.pending) ∧
  (∀ s, nextWith (exec .brownOut s) fun t => t.ct = 0 ∧ t.glb.causeBrownOut = true ∧ t.glb.causePowerOn = false ∧ t.glb.causePin = false ∧
    t.glb.resetCount = satAdd 255 s.glb.resetCount 1 ∧ t.cmd = State.reset.cmd ∧ t.bob.rings = State.reset.bob.rings ∧ t.mot = State.reset.mot ∧ t.dram = [] ∧
    t.seq.epoch = 0 ∧ t.seq.granted = false ∧ t.hostMem = s.hostMem ∧ t.flash = s.flash ∧ t.glb.bootSrc = s.glb.bootSrc ∧ t.pending = s.pending) ∧
  (∀ s, nextWith (exec .pinReset s) fun t => t.ct = 0 ∧ t.glb.causePin = true ∧ t.glb.causeBrownOut = false ∧ t.glb.rstN = false ∧ t.glb.sysLock = false ∧
    t.glb.resetCount = satAdd 255 s.glb.resetCount 1 ∧ t.mot = State.reset.mot ∧ t.pdp = State.reset.pdp) ∧
  (∀ s, s.glb.sysLock = true → ∃ t, exec .sysPllLoss s = .next t ∧ t.ct = 0 ∧ t.glb.causeSysPll = true ∧ t.glb.sysLost = true ∧ t.glb.sysLock = false ∧
    t.glb.resetCount = satAdd 255 s.glb.resetCount 1 ∧ (s.glb.sysLost = false → ∃ e, t.evt.net = [e] ∧ e.num = 0)) ∧
  (∀ s, (s.glb.dbgLevel = 2 ∨ Config.locked = false) → nextWith (exec .debugReset s) fun t => t.ct = 0 ∧ t.glb.causeDebug = true ∧ t.glb.dbgLevel = 0 ∧
    t.glb.resetCount = satAdd 255 s.glb.resetCount 1 ∧ t.cam = State.reset.cam) ∧
  (∀ s b x, s.glb.rstN = false → exec (.resetRelease b x) s = .next { s with
    glb := { s.glb with rstN := true, bootSrc := b, strapThmExt := x }, seq := { s.seq with ext := x } })

/-- PLLs and supplies (R34, R35, R499, R524, R546, R580, R583 to R586): the system PLL's lock starts CT; the DRAM PLL's loss freezes the DRAM controller, the SD PLL's takes every
lane and Ethernet port down, the PCIe PLL's the host link; FAULT_N stays low until lost PLLs have held lock for 1 ms again; the thimble's faults and the rails
out of their windows assert it too. -/
def Obligations.ClocksAndSupplies : Prop :=
  (∀ s, s.glb.rstN = true → s.glb.sysLock = false → nextWith (exec .sysPllLock s) fun t => t.glb.sysLock = true ∧ t.glb.thmOscOk = !s.seq.oscBad ∧
    t.seq.thmOk = (!s.seq.oscBad && !s.seq.vddThmBad) ∧ t.ct = s.ct) ∧
  (∀ s, s.glb.dramLock = true → s.drc.frozen = false → nextWith (exec .dramPllLoss s) fun t => t.glb.dramLock = false ∧ t.glb.dramLost = true ∧
    t.drc.frozen = true ∧ t.drc.freeze.cause = 6 ∧ t.glb.fault.getLsbD 6 = true ∧ t.glb.fault.getLsbD 1 = true) ∧
  (∀ s, s.glb.sdLock = true → nextWith (exec .sdPllLoss s) fun t => t.glb.sdLock = false ∧ t.glb.sdLost = true ∧ t.glb.fault.getLsbD 6 = true ∧
    (∀ e, (vget t.eth e).link = false) ∧ ∀ p l, (laneOfPort t p l).state = .disabled) ∧
  (∀ s, s.glb.pcieLock = true → nextWith (exec .pciePllLoss s) fun t => t.glb.pcieLock = false ∧ t.glb.pcieLost = true ∧ t.bob.linkUp = false ∧
    t.glb.fault.getLsbD 6 = true ∧ ∀ n, (vget t.bob.rings n).en = false) ∧
  (∀ s, s.glb.rstN = true → s.glb.dramLock = false → exec (.pllLock .dram) s = .next { s with glb := { s.glb with dramLock := true, dramRise := s.ct } }) ∧
  (∀ s, s.glb.rstN = true → s.glb.pcieLock = false → exec (.pllLock .pcie) s = .next { s with glb := { s.glb with pcieLock := true, pcieRise := s.ct } }) ∧
  (∀ s, s.glb.rstN = true → s.glb.sdLock = false → nextWith (exec (.pllLock .sd) s) fun t => t.glb.sdLock = true ∧ t.glb.sdRise = s.ct) ∧
  (∀ s, s.glb.rstN = true → s.glb.dramLock = false → s.glb.dramUnheld = true →
    exec (.pllRelock .dram) s = .next { s with glb := { s.glb with dramLock := true, dramRise := s.ct } }) ∧
  (∀ s, s.glb.sysLock = true → s.glb.dramLock = true → s.glb.dramUnheld = true → s.glb.sdUnheld = false → s.glb.pcieUnheld = false →
    nextWith (exec (.pllLockHeld .dram) s) fun t => t.glb.dramUnheld = false ∧ t.glb.fault.getLsbD 6 = false ∧ t.ct = max s.ct (s.glb.dramRise + 400000)) ∧
  (∀ s, s.glb.sysLock = true → s.glb.sdLock = true → s.glb.sdUnheld = true → s.glb.dramUnheld = true → s.glb.fault.getLsbD 6 = true →
    nextWith (exec (.pllLockHeld .sd) s) fun t => t.glb.sdUnheld = false ∧ t.glb.fault.getLsbD 6 = true) ∧
  (∀ s osc, s.glb.sysLock = true → nextWith (exec (.thmFault osc) s) fun t => t.seq.thmOk = false ∧ t.glb.fault.getLsbD 3 = true ∧ t.seq.granted = s.seq.granted ∧
    t.seq.active = s.seq.active ∧ t.seq.thmFaultAt = s.ct ∧ (osc = true → t.glb.thmOscLost = true)) ∧
  (∀ s, s.glb.sysLock = true → s.seq.oscBad = true → nextWith (exec .thmRestore s) fun t => t.seq.thmOk = true ∧ t.seq.oscBad = false ∧ t.seq.vddThmBad = false ∧
    t.glb.fault.getLsbD 3 = false ∧ t.ct = max s.ct (s.seq.thmFaultAt + 4000000) ∧ (s.seq.granted = true → t.seq.granted = true ∧ t.seq.active = s.seq.active)) ∧
  (∀ s m, 2 ≤ (rail s m).outN → (rail s m).uv = false → (rail s m).ov = false → nextWith (exec (.supplyOutOfWindow m) s) fun t => t.glb.fault.getLsbD 5 = true ∧
    (rail t m).uv = decide (10 * (rail s m).mv < (railLimits m).1) ∧ (rail t m).ov = !(rail t m).uv) ∧
  (∀ s, (∀ m, 2 ≤ (rail s m).inN) → nextWith (exec .supplyRecovered s) fun t => t.glb.fault.getLsbD 5 = false)

/-- Boot and the debug lock (R569, R571 to R576, R578, R581, R587): SRAM initialisation clears the SRAM and, with the host strap, waits for the host; a silent flash slot is
rejected with REASON 1; a good image starts both sequencers and DRAM bring-up; the doorbell is taken in WAIT_HOST only; firmware that has started takes
commands; a response is refused without a challenge, and the third refusal locks the port. -/
def Obligations.BootAndDebug : Prop :=
  (∀ s, s.glb.sysLock = true → s.glb.sramInit = false → nextWith (exec .sramInitDone s) fun t => t.glb.sramInit = true ∧ t.sram = [] ∧
    t.glb.bootState = (if s.glb.bootSrc = 1 ∧ s.glb.bootState = .booting then .waitHost else s.glb.bootState)) ∧
  (∀ s, s.glb.sysLock = true → s.glb.sramInit = true → s.glb.bootState = .booting → s.glb.pushed = none → s.glb.bootSrc ≠ 1 → s.glb.bootSource = 0 →
    nextWith (exec (.flashSlotVerify .silent) s) fun t => t.glb.bootReason = 1 ∧ t.glb.bootSource = 1 ∧ t.glb.bootState = .booting ∧
      t.glb.bootAttempts = satAdd 255 s.glb.bootAttempts 1 ∧ t.sram = s.sram) ∧
  (∀ s, s.glb.sysLock = true → s.glb.sramInit = true → s.glb.bootState = .booting → s.glb.pushed = none → s.glb.bootSrc = 2 → s.glb.bootSource = 1 →
    nextWith (exec (.flashSlotVerify .silent) s) fun t => t.glb.bootReason = 1 ∧ t.glb.bootState = .failed) ∧
  (∀ s h, s.glb.sysLock = true → s.glb.sramInit = true → s.glb.bootState = .booting → s.glb.pushed = none → s.glb.bootSrc ≠ 1 → s.glb.bootSource = 0 →
    h = memRead s.flash 0 512 → headerOk h = true → lengthOk h 0x1000000 = true → nextWith (exec (.flashSlotVerify .answers) s) fun t =>
      t.sram = memWrite s.sram 0x1F00000 (h ++ memRead s.flash 512 (payloadLen h)) ∧
      (imageReason h (memRead s.flash 512 (payloadLen h)) 0x1000000 = none → t.glb.bootState = .done ∧ t.glb.fwVersion = hdrWord h 0x010 ∧
        (sqOf t 0).state = .selftest ∧ (sqOf t 1).state = .selftest ∧ t.drc.training = true ∧ t.drc.bringUp = some s.ct) ∧
      (∀ r, imageReason h (memRead s.flash 512 (payloadLen h)) 0x1000000 = some r → t.glb.bootState = .booting ∧ t.glb.bootReason = r ∧ t.glb.bootSource = 1)) ∧
  (∀ s len, s.bob.linkUp = true → s.glb.bootState = .waitHost →
    exec (.bootDoorbell len) s = .next { s with glb := { s.glb with bootState := .booting, bootSource := 2, pushed := some len.toNat } }) ∧
  (∀ s len, s.bob.linkUp = true → s.glb.bootState ≠ .waitHost → exec (.bootDoorbell len) s = .next s) ∧
  (∀ s len, s.glb.pushed = some len → (len < 4608 ∨ 492032 < len) → nextWith (exec .hostImageVerifyDone s) fun t => t.glb.pushed = none ∧
    t.glb.bootReason = 7 ∧ t.glb.bootState = .waitHost ∧ t.sram = s.sram) ∧
  (∀ s len h, s.glb.pushed = some len → 4608 ≤ len → len ≤ 492032 → h = memRead s.sram 0x1440000 512 → headerOk h = true → lengthOk h len = true →
    nextWith (exec .hostImageVerifyDone s) fun t => t.glb.pushed = none ∧
      (imageReason h (memRead s.sram (0x1440000 + 512) (payloadLen h)) len = none → t.glb.bootState = .done ∧ t.glb.bootSource = 2 ∧
        (sqOf t 0).state = .selftest ∧ (sqOf t 1).state = .selftest) ∧
      (∀ r, imageReason h (memRead s.sram (0x1440000 + 512) (payloadLen h)) len = some r → t.glb.bootState = .waitHost ∧ t.glb.bootReason = r)) ∧
  (∀ s, s.fw.granted = true → fwRuns s = true → s.fw.accepting = false → nextWith (exec .firmwareInitDone s) fun t => t.fw.accepting = true ∧
    t.glb.ready.getLsbD 0 = true ∧ ∀ b, (vget t.ep b).epoch = s.seq.epoch) ∧
  (∀ s r, nextWith (exec (.debugChallenge r) s) fun t => t.glb.challenge = some (r.take 32 ++ serialBytes) ∧ t.out = s.out ++ [.jtag (r.take 32 ++ serialBytes)]) ∧
  (∀ s r x lv key, s.glb.challenge = none → ∃ t e, exec (.debugResponse r x lv key) s = .next t ∧ t.glb.dbgLevel = s.glb.dbgLevel ∧
    t.glb.dbgRefused = min 3 (s.glb.dbgRefused + 1) ∧ t.glb.dbgLockout = (s.glb.dbgLockout || decide (2 ≤ s.glb.dbgRefused)) ∧
      t.evt.net = s.evt.net ++ [e] ∧ e.num = 11 ∧ e.d0 = w32 (lv.val + 1)) ∧
  (∀ s r x lv key ch, s.glb.challenge = some ch → s.glb.dbgLockout = false → nextWith (exec (.debugResponse r x lv key) s) fun t =>
    t.glb.challenge = none ∧ t.glb.dbgLevel = (if sha384 key = Config.debugKeyHash ∧ ecdsaVerifies key (ch ++ [b8 (lv.val + 1)]) r x = true
      then lv.val + 1 else s.glb.dbgLevel))

/-- The host's accesses (R14, R15, R21, R35, R42, R47 to R50, R119, R509, R510, R512, R525, R528, R532): a register write takes effect where the register has one and is reported where it has none; a bad access changes no
register; BAR2 reads and writes DRAM byte by byte and waits while
the controller holds its requests; BAR4 reads and writes the SRAM host window, and outside it reads 0xA5A55A5A; a poisoned write is logged,
reported and changes neither memory nor a bobbin. -/
def Obligations.HostAccesses : Prop :=
  (∀ s (i : Fin 256) v, s.bob.linkUp = true → exec (.registerWrite (BitVec.ofNat 24 (0x30000 + 4 * i.val)) v) s =
    .next { s with evt := { s.evt with routes := vset s.evt.routes i { bobbin := ⟨bits v 1 0, Nat.mod_lt _ (by decide)⟩, en := bit v 2 } } }) ∧
  (∀ s (n : Fin 32) v, s.bob.linkUp = true → exec (.registerWrite (BitVec.ofNat 24 (0x3C1000 + 16 * n.val)) v) s =
    .next (modTack s n fun k => { k with targetS := v, staged := true })) ∧
  (∀ s v, s.bob.linkUp = true → ∃ t e, exec (.registerWrite 0 v) s = .next t ∧ t.evt.net = s.evt.net ++ [e] ∧ e.num = 1 ∧ e.d0 = 0 ∧ e.d1 = v ∧
    t = { s with evt := t.evt }) ∧
  (∀ s off v, s.bob.linkUp = true → off.toNat % 4 ≠ 0 → exec (.registerWrite off v) s = .next (emit s .hostWriteRefused)) ∧
  (∀ s, s.bob.linkUp = true → exec (.bar0BadAccess true) s = .next (emit s .hostWriteRefused) ∧
    exec (.bar0BadAccess false) s = .next (emit s (.hostRead .unsupportedRequest []))) ∧
  (∀ s v, s.bob.linkUp = true → nextWith (exec (.clkLostClear v) s) fun t => t.glb.sysLost = (s.glb.sysLost && !bit v 8) ∧
    t.glb.dramLost = (s.glb.dramLost && !bit v 9) ∧ t.glb.sdLost = (s.glb.sdLost && !bit v 10) ∧ t.glb.pcieLost = (s.glb.pcieLost && !bit v 11) ∧
    t.glb.thmOscLost = (s.glb.thmOscLost && !bit v 12) ∧ t.glb.fault = s.glb.fault) ∧
  (∀ s, s.bob.linkUp = true → s.drc.frozen = false → exec .freezeLatchClear s = .next { s with drc := { s.drc with freeze := {} } }) ∧
  (∀ s, s.bob.linkUp = true → s.drc.frozen = true → exec .freezeLatchClear s = .next s) ∧
  (∀ s, s.bob.linkUp = true → nextWith (exec (.rcRegisterRead 0x500014) s) fun t => t.drc.eccCorr = 0 ∧
    t.out = s.out ++ [.hostRead .success (natLe (regValue s 0 0x500014).toNat 4)] ∧ t.dram = s.dram) ∧
  (∀ s (off : BitVec 36) n, s.bob.linkUp = true → 0 < n → s.drc.ready = true → s.drc.frozen = false → off.toNat + n ≤ dramUsable s → ∃ bs,
    exec (.bar2Read off n) s = .next (emit s (.hostRead .success bs)) ∧ bs.length = n ∧ ∀ i < n, bs[i]? = some (memGet s.dram (off.toNat + i))) ∧
  (∀ s (off : BitVec 36) bytes, s.bob.linkUp = true → s.drc.ready = true → s.drc.frozen = false → memWf s.dram = true → off.toNat + bytes.length ≤ dramUsable s →
    nextWith (exec (.bar2Write off bytes) s) fun t => memWf t.dram = true ∧ t.sram = s.sram ∧ ∀ a, memGet t.dram a =
      (if off.toNat ≤ a then ((bytes[a - off.toNat]?).join).getD (memGet s.dram a) else memGet s.dram a)) ∧
  (∀ s (off : BitVec 36) bytes, s.bob.linkUp = true → off.toNat + bytes.length ≤ dramTop s → s.drc.frozen = true →
    nextWith (exec (.bar2Write off bytes) s) fun t => t.dram = s.dram ∧ t.drc = s.drc) ∧
  (∀ s (off : BitVec 36) bytes, s.bob.linkUp = true → (s.drc.capGib = 0 ∨ off.toNat + bytes.length ≤ dramTop s) → s.drc.ready = false → s.drc.frozen = false →
    exec (.bar2Write off bytes) s = .next { s with drcx := { s.drcx with waiting := s.drcx.waiting ++ [.bar2Write off.toNat bytes] } }) ∧
  (∀ s (off : BitVec 36) n, s.bob.linkUp = true → 0 < n → off.toNat + n ≤ dramTop s → s.drc.ready = false → s.drc.frozen = false → s.drcx.retrainCmd ≠ none →
    exec (.bar2Read off n) s = .next { s with drcx := { s.drcx with waiting := s.drcx.waiting ++ [.bar2Read off.toNat n] } }) ∧
  (∀ s (off : BitVec 25) n, s.bob.linkUp = true → bar4Ok off.toNat n = true → 0x1440000 ≤ off.toNat → off.toNat + n ≤ 0x1AA0000 → s.glb.sramInit = true →
    s.drcx.sramBad = [] → exec (.bar4Read off n) s = .next (emit s (.hostRead .success (memRead s.sram off.toNat n)))) ∧
  (∀ s (off : BitVec 25), s.bob.linkUp = true → bar4Ok off.toNat 4 = true → (off.toNat < 0x1440000 ∨ 0x1AA0000 < off.toNat + 4) →
    nextWith (exec (.bar4Read off 4) s) fun t => t.out = s.out ++ [.hostRead .success [0x5A, 0x5A, 0xA5, 0xA5]] ∧ t.sram = s.sram ∧
      t.drcx.sramGuard = sat32 s.drcx.sramGuard 1) ∧
  (∀ s (off : BitVec 25) bytes, s.bob.linkUp = true → bar4Ok off.toNat bytes.length = true → 0x1440000 ≤ off.toNat → off.toNat + bytes.length ≤ 0x1AA0000 →
    s.glb.sramInit = true → memWf s.sram = true → nextWith (exec (.bar4Write off bytes) s) fun t => memWf t.sram = true ∧ t.dram = s.dram ∧
      ∀ a, memGet t.sram a = (if off.toNat ≤ a then (bytes[a - off.toNat]?).getD (memGet s.sram a) else memGet s.sram a)) ∧
  (∀ s bar off, s.bob.linkUp = true →
    nextWith (exec (.poisonedWrite bar off) s) fun t => t.evt = (raise s 244 (barNumber bar) 0 (w32 off.toNat) (w32 (off.toNat / 2 ^ 32))).evt ∧
      t.bob.cfg.aerUncor.getLsbD 12 = true ∧ t.dram = s.dram ∧ t.sram = s.sram ∧ t.bob.rings = s.bob.rings)

/-- The link and the host interface (R45, R65, R80, R84 to R88, R580): the first training makes the link usable, a change after it is reported; a host-interface reset clears BOB's registers and configuration space and
keeps the staged replies, counted, the BAR2 writes that wait, and every other block; clearing Bus Master Enable (or entering D3hot) halts what moves host memory; setting it, and unmasking a vector, sends what is
pending. -/
def Obligations.HostInterfaceResets : Prop :=
  (∀ s speed width, s.bob.linkUp = true → s.bob.trained = true → speed ≠ s.bob.speed → exec (.linkChange speed width) s =
    .next (raise { s with bob := { s.bob with speed := speed, width := width } } 245 0 0 (w32 speed) (w32 width))) ∧
  (∀ s speed width, s.glb.rstN = true → s.glb.pcieLock = true → s.bob.linkUp = false → s.bob.trained = false → exec (.pcieLinkUp speed width) s =
    .next { s with bob := { s.bob with linkUp := true, trained := true, perstN := true, speed := speed, width := width } }) ∧
  (∀ s kind, s.glb.rstN = true → (∀ n, (vget s.bob.rings n).desc = none) → (∀ k, (camCtx s k).frames = []) → ∃ t e,
    exec (.hostInterfaceReset kind) s = .next t ∧ t.bob.rings = State.reset.bob.rings ∧ t.bob.msix = State.reset.bob.msix ∧ t.bob.pba = State.reset.bob.pba ∧
      t.bob.bme = false ∧ t.bob.dmaAborted = s.bob.dmaAborted ∧ t.bob.repliesHeld = satAdd 0xFFFF s.bob.repliesHeld (stagedReplies s) ∧
      t.bob.linkUp = (s.bob.linkUp && !resetsLink kind) ∧ (∀ p, (vget t.cmd.pairs p).staged = (vget s.cmd.pairs p).staged ∧ (vget t.cmd.pairs p).afterReset = true) ∧
      t.bob.cfg = State.reset.bob.cfg ∧ (∀ off bs, DramReq.bar2Write off bs ∈ s.drcx.waiting → DramReq.bar2Write off bs ∈ t.drcx.waiting) ∧
      t.evt.net = s.evt.net ++ [e] ∧ e.num = 247 ∧ e.code = resetCode kind ∧ t.pdp = s.pdp ∧ t.mot = s.mot ∧ t.fir = s.fir ∧ t.dram = s.dram) ∧
  (∀ s d, s.bob.linkUp = true → busMaster s = false → exec (.bmeClear d) s =
    .next { s with bob := { s.bob with bme := s.bob.bme && d, d3hot := s.bob.d3hot || d } }) ∧
  (∀ s d, s.bob.linkUp = true → busMaster s = true → (∀ n, (vget s.bob.rings n).desc = none) → exec (.bmeClear d) s =
    .next (raise { s with bob := { s.bob with bme := s.bob.bme && d, d3hot := s.bob.d3hot || d } } 246 0 (b2n d))) ∧
  (∀ s (n : Fin 16) d d3, s.bob.linkUp = true → busMaster s = true → ringLive (vget s.bob.rings (dmaBob n)) = true →
    (vget s.bob.rings (dmaBob n)).desc = some d → d.fin = none → d.srcSpace = 0 → d.op ≠ .fill → isEbc d = false → (∀ m, m ≠ dmaBob n → (vget s.bob.rings m).desc = none) →
    nextWith (exec (.bmeClear d3) s) fun t => (vget t.bob.rings (dmaBob n)).halted = true ∧ (vget t.bob.rings (dmaBob n)).errKind = 7 ∧
      (vget t.bob.rings (dmaBob n)).desc = none ∧ busMaster t = false) ∧
  (∀ s, s.bob.linkUp = true → nextWith (exec .bmeSet s) fun t => t.bob.bme = true ∧ t.bob.rings = s.bob.rings ∧
    ∀ v, s.bob.fmask = false → s.bob.d3hot = false → bit (vget s.bob.msix v).ctrl 0 = false → vget s.bob.pba v = true → vget t.bob.pba v = false ∧ .msix v.val ∈ t.out) ∧
  (∀ s v, busMaster s = true → s.bob.fmask = false → vget s.bob.pba v = true → nextWith (exec (.msixUnmask (some v)) s) fun t =>
    vget t.bob.pba v = false ∧ t.out = s.out ++ [.msix v.val] ∧ bit (vget t.bob.msix v).ctrl 0 = false) ∧
  (∀ s v, vget s.bob.pba v = false → nextWith (exec (.msixUnmask (some v)) s) fun t =>
    bit (vget t.bob.msix v).ctrl 0 = false ∧ t.out = s.out ∧ t.bob.pba = s.bob.pba) ∧
  (∀ s, nextWith (exec (.msixUnmask none) s) fun t => t.bob.fmask = false ∧ t.bob.msix = s.bob.msix)

/-- Bobbins (R50, R58 to R64, R79, R82, R83, R86): a sound enabling write puts base, write-back, space and size in force, an unsound one is rejected; a clearing write disables; a sound
doorbell moves the host's index, an unsound one is reported, and one behind BAR2 requests that wait waits too; a resume ends a halt; the latch and the counts clear; a changed index is written back; MOD_TIME
sends the message. -/
def Obligations.BobbinsServed : Prop :=
  (∀ s n w v, v = w ||| 1 → s.bob.linkUp = true → (vget s.bob.rings n).en = false → 4 ≤ bits v 8 4 → bits v 8 4 ≤ 16 → bits v 2 1 ≠ 3 →
    inSpace s (bits v 2 1) (addr64 (vget s.bob.rings n).baseLo (vget s.bob.rings n).baseHi) (32 * 2 ^ bits v 8 4) = true →
    inSpace s (bits v 2 1) (addr64 (vget s.bob.rings n).wbLo (vget s.bob.rings n).wbHi) 4 = true →
    nextWith (exec (.bobEnable n w) s) fun t => (vget t.bob.rings n).en = true ∧
      (vget t.bob.rings n).base = addr64 (vget s.bob.rings n).baseLo (vget s.bob.rings n).baseHi ∧ (vget t.bob.rings n).space = bits v 2 1 ∧
      (vget t.bob.rings n).log2n = bits v 8 4 ∧ (vget t.bob.rings n).wbEn = bit v 3 ∧
      (vget t.bob.rings n).wb = addr64 (vget s.bob.rings n).wbLo (vget s.bob.rings n).wbHi ∧ (vget t.bob.rings n).head = (vget s.bob.rings n).head ∧
      (vget t.bob.rings n).tail = (vget s.bob.rings n).tail ∧ ∀ m, m ≠ n → vget t.bob.rings m = vget s.bob.rings m) ∧
  (∀ s n w v, v = w ||| 1 → s.bob.linkUp = true → (vget s.bob.rings n).en = false → (bits v 8 4 < 4 ∨ 16 < bits v 8 4 ∨ bits v 2 1 = 3 ∨
    inSpace s (bits v 2 1) (addr64 (vget s.bob.rings n).baseLo (vget s.bob.rings n).baseHi) (32 * 2 ^ bits v 8 4) = false ∨
    inSpace s (bits v 2 1) (addr64 (vget s.bob.rings n).wbLo (vget s.bob.rings n).wbHi) 4 = false) →
    ∃ t e, exec (.bobEnable n w) s = .next t ∧ (vget t.bob.rings n).en = false ∧ (vget t.bob.rings n).cfgRej = true ∧
      t.evt.net = s.evt.net ++ [e] ∧ e.num = 241 ∧ e.inst = n.val ∧ e.d0 = v) ∧
  (∀ s n v, s.bob.linkUp = true → nextWith (exec (.bobDisable n v) s) fun t => (vget t.bob.rings n).en = false) ∧
  (∀ s n v, s.bob.linkUp = true → s.drcx.waiting.any ofBar2 = true →
    exec (.bobDoorbell n v) s = .next { s with drcx := { s.drcx with waiting := s.drcx.waiting ++ [.doorbell n v] } }) ∧
  (∀ s n v, s.bob.linkUp = true → s.drcx.waiting.any ofBar2 = false → (vget s.bob.rings n).en = true → doorbellOk (vget s.bob.rings n) (hostProduced n) (bits v 16 0) = true →
    exec (.bobDoorbell n v) s = .next (modRing s n fun r => if hostProduced n then { r with tail := bits v 16 0 } else { r with head := bits v 16 0 })) ∧
  (∀ s n v, s.bob.linkUp = true → s.drcx.waiting.any ofBar2 = false → ((vget s.bob.rings n).en = false ∨ doorbellOk (vget s.bob.rings n) (hostProduced n) (bits v 16 0) = false) →
    exec (.bobDoorbell n v) s = .next (raise (modRing s n fun r => { r with dbBad := true }) 240 n.val 0 v)) ∧
  (∀ s n, s.bob.linkUp = true → exec (.bobResume n) s = .next (modRing s n fun r => { r with halted := false })) ∧
  (∀ s, s.bob.linkUp = true → nextWith (exec .dmaErrLatchClear s) fun t => t.bob.errValid = false ∧ t.bob.errAddr = 0 ∧ t.bob.errMore = s.bob.errMore ∧
    t.bob.rings = s.bob.rings) ∧
  (∀ s, s.bob.linkUp = true → nextWith (exec .dmaErrMoreRead s) fun t => t.bob.errMore = 0 ∧
    t.out = s.out ++ [.hostRead .success (natLe (w32 s.bob.errMore).toNat 4)] ∧ t.bob.errValid = s.bob.errValid) ∧
  (∀ s, s.bob.linkUp = true → nextWith (exec .bobResetReportRead s) fun t => t.bob.dmaAborted = 0 ∧ t.bob.repliesHeld = 0 ∧
    t.out = s.out ++ [.hostRead .success (natLe (pack [(s.bob.dmaAborted, 0), (s.bob.repliesHeld, 16)]).toNat 4)]) ∧
  (∀ s n, (vget s.bob.rings n).wbDue = true → (vget s.bob.rings n).wbEn = true → (vget s.bob.rings n).halted = false → (vget s.bob.rings n).msgDue = false →
    accessHeld s (vget s.bob.rings n).space = false → accessErr s (vget s.bob.rings n).space (vget s.bob.rings n).wb 4 false = none →
    exec (.indexWriteBack n) s = .next (modRing (spaceWrite s (vget s.bob.rings n).space (vget s.bob.rings n).wb
      (natLe (if hostProduced n then (vget s.bob.rings n).head else (vget s.bob.rings n).tail) 4)) n fun r => { r with wbDue := false, msgDue := false })) ∧
  (∀ s n (v : Fin 64), s.glb.sysLock = true → (vget s.bob.rings n).irqEn = true → 0 < (vget s.bob.rings n).pend → 0 < (vget s.bob.rings n).modTime →
    (vget s.bob.rings n).wbDue = false → (vget s.bob.rings n).vector = v.val → nextWith (exec (.modTimeExpiry n) s) fun t => (vget t.bob.rings n).pend = 0 ∧
      t.ct = max s.ct ((vget s.bob.rings n).pendAt + 400 * (vget s.bob.rings n).modTime) ∧
      (if s.bob.fmask || bit (vget s.bob.msix v).ctrl 0 || !busMaster s then vget t.bob.pba v = true ∧ t.out = s.out
        else t.out = s.out ++ [.msix v.val] ∧ t.bob.pba = s.bob.pba))

/-- Descriptors, of the rows DMA_COPY, DMA_FILL, DMA_COMPARE, DMA_EBC_ENCODE and DMA_EBC_DECODE (R70 to R73, R80, R81): a channel that works takes the entry at its head; a sound descriptor is in progress from then on and nothing else changes; one with a field out
of range, or a reserved OP, completes at once with BAD_DESC, one with a bad address range with BAD_ADDR, RESULT 0 and DONE, and the head advances; an entry that cannot be
read halts the channel with its head left. -/
def Obligations.DescriptorsChecked : Prop :=
  (∀ s n op, HeadReadable s (dmaBob n) → bits ((headWords s (dmaBob n)).getD 0 0) 7 0 = dmaCode op →
    FieldsSound (descOf op (headWords s (dmaBob n))) ((headWords s (dmaBob n)).getD 0 0) ((headWords s (dmaBob n)).getD 1 0) →
    RangesSound s (descOf op (headWords s (dmaBob n))) →
    exec (dmaRow n op) s = .next (modRing s (dmaBob n) fun r => { r with desc := some (descOf op (headWords s (dmaBob n))) })) ∧
  (∀ s n op, HeadReadable s (dmaBob n) → bits ((headWords s (dmaBob n)).getD 0 0) 7 0 = dmaCode op →
    ¬ FieldsSound (descOf op (headWords s (dmaBob n))) ((headWords s (dmaBob n)).getD 0 0) ((headWords s (dmaBob n)).getD 1 0) →
    nextWith (exec (dmaRow n op) s) fun t => (vget t.bob.rings (dmaBob n)).desc = none ∧
      (vget t.bob.rings (dmaBob n)).head = idxAdd (vget s.bob.rings (dmaBob n)) (vget s.bob.rings (dmaBob n)).head 1 ∧
      (bit ((headWords s (dmaBob n)).getD 0 0) 12 = false → s.memoriesOk = true → t.mot = s.mot ∧ spaceRead t (vget s.bob.rings (dmaBob n)).space
        (entryAddr (vget s.bob.rings (dmaBob n)) (vget s.bob.rings (dmaBob n)).head + 0x18) 8 = [0, 0, 0, 0, 0x10, 0, 0, 0x80])) ∧
  (∀ s n op, HeadReadable s (dmaBob n) → bits ((headWords s (dmaBob n)).getD 0 0) 7 0 = dmaCode op →
    FieldsSound (descOf op (headWords s (dmaBob n))) ((headWords s (dmaBob n)).getD 0 0) ((headWords s (dmaBob n)).getD 1 0) →
    ¬ RangesSound s (descOf op (headWords s (dmaBob n))) →
    nextWith (exec (dmaRow n op) s) fun t => (vget t.bob.rings (dmaBob n)).desc = none ∧
      (vget t.bob.rings (dmaBob n)).head = idxAdd (vget s.bob.rings (dmaBob n)) (vget s.bob.rings (dmaBob n)).head 1 ∧
      (bit ((headWords s (dmaBob n)).getD 0 0) 12 = false → s.memoriesOk = true → t.mot = s.mot ∧ spaceRead t (vget s.bob.rings (dmaBob n)).space
        (entryAddr (vget s.bob.rings (dmaBob n)) (vget s.bob.rings (dmaBob n)).head + 0x18) 8 = [0, 0, 0, 0, 0x11, 0, 0, 0x80])) ∧
  (∀ s n, HeadReadable s (dmaBob n) → (∀ op, bits ((headWords s (dmaBob n)).getD 0 0) 7 0 ≠ dmaCode op) →
    nextWith (exec (.dmaCopy n) s) fun t => (vget t.bob.rings (dmaBob n)).desc = none ∧
      (vget t.bob.rings (dmaBob n)).head = idxAdd (vget s.bob.rings (dmaBob n)) (vget s.bob.rings (dmaBob n)).head 1 ∧
      (bit ((headWords s (dmaBob n)).getD 0 0) 12 = false → s.memoriesOk = true → t.mot = s.mot ∧ spaceRead t (vget s.bob.rings (dmaBob n)).space
        (entryAddr (vget s.bob.rings (dmaBob n)) (vget s.bob.rings (dmaBob n)).head + 0x18) 8 = [0, 0, 0, 0, 0x10, 0, 0, 0x80])) ∧
  (∀ s n op r, vget s.bob.rings (dmaBob n) = r → ringLive r = true → r.desc = none → ringUsed r ≠ 0 → r.space = 1 → s.drc.frozen = true →
    exec (dmaRow n op) s = .next (haltBob s (dmaBob n) 6 false 1 (entryAddr r r.head) true)) ∧
  (∀ s n op, (vget s.bob.rings (dmaBob n)).desc.isSome = true → exec (dmaRow n op) s = .next s)

/-- Bursts (R70, R71, R75, R77, R78, R81, R510): a channel moves a burst when its turn comes, the first with work after the one that had the latest turn, and waits when the DRAM
controller holds its requests; a burst moves
64 times 2^BURST bytes or what is left; COPY copies them, FILL writes the pattern, COMPARE writes nothing and ends at the first
difference; the last burst ends the descriptor OK with RESULT LENGTH; a paced channel waits for its request, and a tack's burst serves one fire; a burst
that cannot be issued completes the descriptor with its code and halts the channel. Overlapping COPY ranges leave the destination undefined. -/
def Obligations.DmaBurstsMove : Prop :=
  (∀ s n d len, DescRuns s n d → len = min (64 * 2 ^ d.burst) (d.length - d.moved) → d.op = .copy → d.periph = 0 → d.dstSpace ≠ 3 →
    (d.srcSpace ≠ d.dstSpace ∨ d.src + d.length ≤ d.dst ∨ d.dst + d.length ≤ d.src) → accessErr s d.srcSpace (d.src + d.moved) len true = none →
    accessErr s d.dstSpace (d.dst + d.moved) len false = none → exec (.dmaBurst n) s =
      .next (progress (spaceWrite (turned s n) d.dstSpace (d.dst + d.moved) (spaceRead s d.srcSpace (d.src + d.moved) len) true) n d (d.moved + len)
        (if d.length ≤ d.moved + len then some (0x01, d.length) else none))) ∧
  (∀ s n d len, DescRuns s n d → len = min (64 * 2 ^ d.burst) (d.length - d.moved) → d.op = .fill → d.periph = 0 → d.dstSpace ≠ 3 →
    accessErr s d.dstSpace (d.dst + d.moved) len false = none → ∃ bs, bs.length = len ∧
      (∀ i < len, bs[i]? = some (b8 (d.operand.toNat / 2 ^ (8 * ((d.moved + i) % 4))))) ∧ exec (.dmaBurst n) s =
      .next (progress (spaceWrite (turned s n) d.dstSpace (d.dst + d.moved) bs true) n d (d.moved + len)
        (if d.length ≤ d.moved + len then some (0x01, d.length) else none))) ∧
  (∀ s n d len, DescRuns s n d → len = min (64 * 2 ^ d.burst) (d.length - d.moved) → d.op = .compare → d.periph = 0 → d.dstSpace ≠ 3 →
    accessErr s d.srcSpace (d.src + d.moved) len true = none → accessErr s d.dstSpace (d.dst + d.moved) len true = none →
    (spaceRead s d.srcSpace (d.src + d.moved) len = spaceRead s d.dstSpace (d.dst + d.moved) len → exec (.dmaBurst n) s =
      .next (progress (turned s n) n d (d.moved + len) (if d.length ≤ d.moved + len then some (0x01, d.length) else none))) ∧
    (∀ i, i < len → (∀ j < i, (spaceRead s d.srcSpace (d.src + d.moved) len)[j]? = (spaceRead s d.dstSpace (d.dst + d.moved) len)[j]?) →
      (spaceRead s d.srcSpace (d.src + d.moved) len)[i]? ≠ (spaceRead s d.dstSpace (d.dst + d.moved) len)[i]? → exec (.dmaBurst n) s =
      .next (progress (turned s n) n d (d.moved + i) (some (0x02, d.moved + i))))) ∧
  (∀ s n d len, DescRuns s n d → len = min (64 * 2 ^ d.burst) (d.length - d.moved) → d.op = .copy → d.periph = 0 → d.dstSpace = d.srcSpace →
    d.dstSpace ≠ 3 → d.src < d.dst + d.length → d.dst < d.src + d.length → accessErr s d.srcSpace (d.src + d.moved) len true = none →
    accessErr s d.dstSpace (d.dst + d.moved) len false = none → ∃ bs k, bs.length = len ∧ exec (.dmaBurst n) s =
      .next (progress (spaceWrite { turned s n with freeCtr := k } d.dstSpace (d.dst + d.moved) bs true) n d (d.moved + len)
        (if d.length ≤ d.moved + len then some (0x01, d.length) else none))) ∧
  (∀ s n d (k : Fin 32), (vget s.bob.rings (dmaBob n)).desc = some d → isEbc d = false → d.periph = 0x10 + k.val → (vget s.tim.tacks k).dmaReq = 0 →
    exec (.dmaBurst n) s = .next s) ∧
  (∀ s n d (k : Fin 32) len, DescRuns s n d → len = min (64 * 2 ^ d.burst) (d.length - d.moved) → d.op = .copy → d.periph = 0x10 + k.val →
    0 < (vget s.tim.tacks k).dmaReq → d.dstSpace ≠ 3 → d.srcSpace ≠ d.dstSpace → accessErr s d.srcSpace (d.src + d.moved) len true = none →
    accessErr s d.dstSpace (d.dst + d.moved) len false = none → nextWith (exec (.dmaBurst n) s) fun t =>
      (vget t.tim.tacks k).dmaReq = (vget s.tim.tacks k).dmaReq - 1 ∧ (vget t.bob.rings (dmaBob n)).desc = some { d with
        moved := d.moved + len, fin := if d.length ≤ d.moved + len then some (0x01, d.length) else none } ∧ t.mot = s.mot) ∧
  (∀ s n d, DescRuns s n d → d.periph = 0 → d.op = .copy ∨ d.op = .compare → d.srcSpace = 0 → busMaster s = false →
    exec (.dmaBurst n) s = .next (failDesc (turned s n) (dmaBob n) 7 false 0 (d.src + d.moved))) ∧
  (∀ s n, dmaNext s = some n ↔ wantsTurn s n = true ∧ turnHeld s n = false ∧
    ∀ m, (m - s.bob.dmaTurn - 1).val < (n - s.bob.dmaTurn - 1).val → wantsTurn s m = false ∨ turnHeld s m = true) ∧
  (∀ s n, dmaNext s ≠ some n → turnHeld s n = false → exec (.dmaBurst n) s = .next s) ∧
  (∀ s n, wantsTurn s n = true → turnHeld s n = true → DramReq.burst n ∉ s.drcx.waiting →
    exec (.dmaBurst n) s = .next { s with drcx := { s.drcx with waiting := s.drcx.waiting ++ [.burst n] } })

/-- EBC blocks (R70, R75, R76, R202, R208, R213, R214): in its turn a channel with an EBC descriptor reads its next block into the free engine 2, or writes the finished block at its
place and reads the next; the last block ends the descriptor OK with RESULT the number of blocks; a block that ends
early or runs past its size ends it with the block's index and nothing of it written; an encode gives a slot that decodes back to the block, or ends with
EBC_NOFIT or ENC_VERIFY. The reference is the raw block before. Engine 2 counts every block. -/
def Obligations.EbcBlocksCoded : Prop :=
  (∀ s n d, DescRuns s n d → isEbc d = true → s.bob.eng = none → d.periph = 0 →
    accessErr s d.srcSpace (d.src + d.moved * (ebcSizes d).1) (ebcSizes d).1 true = none →
    nextWith (exec (.dmaBurst n) s) fun t => t.bob.eng = some {
        chan := n, index := d.moved, src := spaceRead s d.srcSpace (d.src + d.moved * (ebcSizes d).1) (ebcSizes d).1,
        ref := if d.moved = 0 then none else some (vget s.bob.rings (dmaBob n)).ebcRef } ∧
      (vget t.ebc 2).busy = true ∧ (vget t.ebc 2).level = (if d.op = .ebcEncode then bits d.operand 5 4 else 0) ∧ t.bob.rings = s.bob.rings ∧
      t.bob.dmaTurn = n ∧ t.dram = s.dram ∧ t.sram = s.sram ∧ t.hostMem = s.hostMem) ∧
  (∀ s n d b raw, s.bob.eng = some b → b.chan = n → b.out = none → (vget s.bob.rings (dmaBob n)).desc = some d → d.op = .ebcDecode →
    ebcDecode (bits d.operand 1 0) b.src b.ref = .ok raw → nextWith (exec (.ebcBlockDone n) s) fun t =>
      t.bob.eng = some { b with out := some (.bytes raw raw) } ∧ (vget t.ebc 2).blocks = ((vget s.ebc 2).blocks + 1) % 2 ^ 32 ∧
      t.bob.rings = s.bob.rings ∧ t.dram = s.dram ∧ t.sram = s.sram ∧ t.hostMem = s.hostMem) ∧
  (∀ s n d b res, s.bob.eng = some b → b.chan = n → b.out = none → (vget s.bob.rings (dmaBob n)).desc = some d → d.op = .ebcDecode →
    ebcDecode (bits d.operand 1 0) b.src b.ref = res →
    (res = .short → exec (.ebcBlockDone n) s = .next (progress (engFree (engShort (engBlock s 2) 2)) n d d.moved (some (0x33, d.moved)))) ∧
    (res = .overrun → exec (.ebcBlockDone n) s = .next (progress (engFree (engOverrun (engBlock s 2) 2)) n d d.moved (some (0x32, d.moved))))) ∧
  (∀ s n d b, s.bob.eng = some b → b.chan = n → b.out = none → (vget s.bob.rings (dmaBob n)).desc = some d → d.op = .ebcEncode →
    ∃ t, exec (.ebcBlockDone n) s = .next t ∧
      ((∃ slot, slot.length = (ebcSizes d).2 ∧ ebcDecode (bits d.operand 1 0) slot b.ref = .ok b.src ∧ t.bob.rings = s.bob.rings ∧
          t.bob.eng = some { b with out := some (.bytes slot b.src) } ∧ t.dram = s.dram ∧ t.sram = s.sram ∧ t.hostMem = s.hostMem) ∨
        t = progress (engFree (engNoFit (engBlock s 2) 2)) n d d.moved (some (0x30, d.moved)) ∨
        t = progress (engFree (engVerify (engBlock s 2) 2)) n d d.moved (some (0x31, d.moved)))) ∧
  (∀ s n d b out raw, DescRuns s n d → isEbc d = true → s.bob.eng = some b → b.chan = n → b.out = some (.bytes out raw) → ebcBlocks d ≤ d.moved + 1 →
    accessErr s d.dstSpace (d.dst + d.moved * (ebcSizes d).2) (ebcSizes d).2 false = none → exec (.dmaBurst n) s =
      .next (modRing (blockWritten (engFree (turned s n)) d out) (dmaBob n) fun r =>
        { r with ebcRef := raw, desc := some { d with moved := d.moved + 1, fin := some (0x01, ebcBlocks d) } })) ∧
  (∀ s n d b out raw, DescRuns s n d → isEbc d = true → s.bob.eng = some b → b.chan = n → b.out = some (.bytes out raw) → d.moved + 1 < ebcBlocks d →
    d.periph = 0 → accessErr s d.dstSpace (d.dst + d.moved * (ebcSizes d).2) (ebcSizes d).2 false = none →
    accessErr s d.srcSpace (d.src + (d.moved + 1) * (ebcSizes d).1) (ebcSizes d).1 true = none → nextWith (exec (.dmaBurst n) s) fun u =>
      (vget u.bob.rings (dmaBob n)).desc = some { d with moved := d.moved + 1 } ∧ u.dram = (blockWritten s d out).dram ∧
      u.sram = (blockWritten s d out).sram ∧ u.hostMem = (blockWritten s d out).hostMem ∧ u.bob.eng = some {
        chan := n, index := d.moved + 1, ref := some raw, src := spaceRead (blockWritten s d out) d.srcSpace (d.src + (d.moved + 1) * (ebcSizes d).1) (ebcSizes d).1 } ∧
      (vget u.ebc 2).busy = true ∧ u.bob.dmaTurn = n) ∧
  (∀ widthCode slot ref raw, ebcDecode widthCode slot ref = .ok raw → raw.length = 256 * 2 ^ widthCode)

/-- How descriptors end (R74, R80 to R82): the status is written and the head advances past the descriptor; a failed read of data writes the failure's code and RESULT the bytes (or
blocks) moved and halts the channel; an access to the entry, its status or the write-back that fails leaves the head; the first halt is latched, with where it failed, a later one counted. -/
def Obligations.DescriptorsEnd : Prop :=
  (∀ s n d code result r, vget s.bob.rings (dmaBob n) = r → r.desc = some d → d.fin = some (code, result) → d.irq = false → ringLive r = true →
    accessHeld s r.space = false → accessErr s r.space (entryAddr r r.head + 0x18) 8 false = none → exec (.dmaDescriptorComplete n) s =
      .next (modRing (spaceWrite s r.space (entryAddr r r.head + 0x18) (natLe result 4 ++ natLe (2 ^ 31 + code) 4)) (dmaBob n) fun r =>
        { r with desc := none, head := idxAdd r r.head 1, wbDue := true })) ∧
  (∀ s n d f r, vget s.bob.rings (dmaBob n) = r → r.desc = some d → d.fin = some f → d.irq = true → ringLive r = true → accessHeld s r.space = false →
    accessErr s r.space (entryAddr r r.head + 0x18) 8 false = none → r.pend + 1 < r.modCount → nextWith (exec (.dmaDescriptorComplete n) s) fun t =>
      (vget t.bob.rings (dmaBob n)).desc = none ∧ (vget t.bob.rings (dmaBob n)).head = idxAdd r r.head 1 ∧ (vget t.bob.rings (dmaBob n)).pend = r.pend + 1 ∧
      t.bob.pba = s.bob.pba) ∧
  (∀ s (n : Fin 32) d r why, vget s.bob.rings n = r → ringLive r = true → r.desc = some d → d.fin = none → d.op ≠ .fill → d.irq = false →
    canFail s why d.srcSpace false = true → accessHeld s r.space = false → accessErr s r.space (entryAddr r r.head + 0x18) 8 false = none →
    s.bob.errValid = false → s.bob.errIrqEn = false → ∃ t e,
    exec (.busErrorHalt n .data why false) s = .next t ∧ t.evt.net = s.evt.net ++ [e] ∧ e.num = 242 ∧ e.inst = n.val ∧
      (vget t.bob.rings n).halted = true ∧ (vget t.bob.rings n).errKind = failKind why ∧ (vget t.bob.rings n).desc = none ∧
      (vget t.bob.rings n).head = idxAdd r r.head 1 ∧ t.bob.errValid = true ∧ t.bob.errDir = false ∧ t.bob.errRing = false ∧ t.bob.errBobbin = n.val ∧
      t.bob.errKind = failKind why ∧ t.bob.errSpace = d.srcSpace ∧ t.bob.errAddr = srcAt d ∧ (∀ m, m ≠ n → vget t.bob.rings m = vget s.bob.rings m) ∧
      (s.memoriesOk = true → isEbc d = false → r.wbEn = false → spaceRead t r.space (entryAddr r r.head + 0x18) 8 =
        natLe d.moved 4 ++ natLe (2 ^ 31 + if why = .sram ∨ why = .dramFrozen then 0x22 else 0x20) 4)) ∧
  (∀ s (n : Fin 32) r which why isWrite space a w, vget s.bob.rings n = r → ringLive r = true → which ≠ .data → which ≠ .compareDest →
    failedAccess s n which isWrite = some (space, a, w) → canFail s why space w = true →
    s.bob.errIrqEn = false → ∃ t e, exec (.busErrorHalt n which why isWrite) s = .next t ∧ t.evt.net = s.evt.net ++ [e] ∧ e.num = 242 ∧ e.inst = n.val ∧
      (vget t.bob.rings n).halted = true ∧ (vget t.bob.rings n).errKind = failKind why ∧ (vget t.bob.rings n).head = r.head ∧
      (vget t.bob.rings n).desc = (if which = .writeBack then r.desc else none) ∧
      t.bob.errMore = (if s.bob.errValid then satAdd 0xFFFF s.bob.errMore 1 else s.bob.errMore) ∧
      (s.bob.errValid = true → t.bob.errKind = s.bob.errKind ∧ t.bob.errAddr = s.bob.errAddr ∧ t.bob.errBobbin = s.bob.errBobbin) ∧
      (s.bob.errValid = false → t.bob.errKind = failKind why ∧ t.bob.errSpace = space ∧ t.bob.errAddr = a ∧ t.bob.errRing = true ∧ t.bob.errBobbin = n.val) ∧
      (∀ m, m ≠ n → vget t.bob.rings m = vget s.bob.rings m) ∧ t.dram = s.dram ∧ t.sram = s.sram ∧ t.hostMem = s.hostMem)

/-- Fetching (R89 to R92, R100, R101, R612): a packet whose entries all lie in the ring and which passes the checks is consumed whole and outstanding; one that fails a check is consumed
and answered with it, and has no effect; a LENGTH outside 4 to 2048 is a framing error, which stops the pair with its head left; an incomplete
packet, a stopped pair and a pair with 48 outstanding commands wait. -/
def Obligations.CommandsFetched : Prop :=
  (∀ s p r op len k c c0, vget s.bob.rings (cmdBob p) = r → mayFetch s p = true → ringLive r = true → accessHeld s r.space = false →
    packetOf p (ringRead s r r.head 1) 8 = (op, c0) → leNat ((ringRead s r r.head 1).drop 4 |>.take 2) = len → 4 ≤ len → len ≤ 2048 →
    k = (4 * len + 31) / 32 → k ≤ 2 ^ r.log2n → k ≤ ringUsed r → ringErr s r r.head k true = none → (packetOf p (ringRead s r r.head k) len).2 = c →
    (fetchCheck s (specOf op) op c = none → exec (.commandFetch p) s =
      .next (addOut (modRing s (cmdBob p) fun r => { r with head := idxAdd r r.head k, wbDue := true }) op c)) ∧
    (∀ st det, fetchCheck s (specOf op) op c = some (st, det) → exec (.commandFetch p) s =
      .next (stageReply (modRing s (cmdBob p) fun r => { r with head := idxAdd r r.head k, wbDue := true }) p c.tag (BitVec.ofNat 16 op) st det [] false))) ∧
  (∀ s p r op len c, vget s.bob.rings (cmdBob p) = r → mayFetch s p = true → ringLive r = true → 0 < ringUsed r → accessHeld s r.space = false →
    ringErr s r r.head 1 true = none → packetOf p (ringRead s r r.head 1) 8 = (op, c) → leNat ((ringRead s r r.head 1).drop 4 |>.take 2) = len →
    (len < 4 ∨ 2048 < len ∨ 2 ^ r.log2n < (4 * len + 31) / 32) → ∃ t e, exec (.commandFetch p) s = .next t ∧ (vget t.cmd.pairs p).stopped = true ∧
      t.bob.rings = s.bob.rings ∧ t.evt.net = s.evt.net ++ [e] ∧ e.num = 4 ∧ e.inst = p.val ∧ (vget t.cmd.pairs p).outs = (vget s.cmd.pairs p).outs ∧
      (vget t.cmd.pairs p).staged = (vget s.cmd.pairs p).staged ++ [{ tag := c.tag, op := BitVec.ofNat 16 op, status := 0x11, detail := 2, ctDone := s.ct }]) ∧
  (∀ s p r len, vget s.bob.rings (cmdBob p) = r → ringLive r = true → accessHeld s r.space = false → ringErr s r r.head 1 true = none →
    leNat ((ringRead s r r.head 1).drop 4 |>.take 2) = len → 4 ≤ len → len ≤ 2048 → ringUsed r < (4 * len + 31) / 32 →
    (4 * len + 31) / 32 ≤ 2 ^ r.log2n → exec (.commandFetch p) s = .next s) ∧
  (∀ s p, ((vget s.cmd.pairs p).stopped = true ∨ 48 ≤ (vget s.cmd.pairs p).outs.length ∨ accepting s = false) → exec (.commandFetch p) s = .next s) ∧
  (∀ s p r, vget s.bob.rings (cmdBob p) = r → mayFetch s p = true → ringLive r = true → 0 < ringUsed r → r.space = 0 → busMaster s = false →
    exec (.commandFetch p) s = .next (haltBob s (cmdBob p) 7 false 0 (entryAddr r r.head) true))

/-- The checks of a packet in their order, each answered only when those before it pass (R612). -/
def Obligations.PacketsChecked : Prop :=
  ∀ s p c op, c.pair = p →
    ((findTag s p c.tag).isSome = true → ∀ sp, fetchCheck s sp op c = some (0x13, 0x0003)) ∧
    (findTag s p c.tag = none → op ≠ 0x0101 →
      (s.cmd.cmdVer = 0 → ∀ sp, fetchCheck s sp op c = some (0x13, 0x0004)) ∧
      (s.cmd.cmdVer ≠ 0 → (c.version >>> 8 ≠ s.cmd.cmdVer >>> 8 ∨ s.cmd.cmdVer < c.version) → ∀ sp, fetchCheck s sp op c = some (0x20, 0x01))) ∧
    (findTag s p c.tag = none → (op = 0x0101 ∨ s.cmd.cmdVer ≠ 0 ∧ c.version >>> 8 = s.cmd.cmdVer >>> 8 ∧ c.version ≤ s.cmd.cmdVer) →
      fetchCheck s none op c = some (0x10, 0) ∧ ∀ sp : CmdSpec, (sp.lenOk c.words = false → fetchCheck s (some sp) op c = some (0x11, 0)) ∧
        (sp.lenOk c.words = true → (c.rsvHi ≠ 0 ∨ c.rsvWord ≠ 0 ∨ 4 ≤ c.flags.toNat ∨ sp.rsvOk c.words = false) →
          fetchCheck s (some sp) op c = some (0x12, 0x0001)) ∧
        (sp.lenOk c.words = true → c.rsvHi = 0 → c.rsvWord = 0 → c.flags.toNat < 4 → sp.rsvOk c.words = true → sp.priv p c.words = true → p ≠ 0 →
          fetchCheck s (some sp) op c = some (0x21, 0x0007)) ∧
        (sp.lenOk c.words = true → c.rsvHi = 0 → c.rsvWord = 0 → c.flags.toNat < 4 → sp.rsvOk c.words = true → (sp.priv p c.words = false ∨ p = 0) →
          fetchCheck s (some sp) op c = none))

/-- A packet that fails a check of R612 is answered with it in the row's own step, and nothing else changes; neither does anything while the interpreter takes
no commands (R91, R92, R100, R101, R612). -/
def Obligations.PacketsRejected : Prop :=
  ∀ r ∈ [((Instr.sysHello : Cmd → Instr), sysHelloSpec), (.sysNop, sysNopSpec), (.sysCancel, sysCancelSpec), (.jobOpenPanel, jobOpenPanelSpec),
      (.jobReady, jobReadySpec), (.jobHem, jobHemSpec), (.jobWaitHem, jobWaitHemSpec), (.pdpLoadCurves, pdpLoadCurvesSpec),
      (.pdpLoadGlobalCurve, pdpLoadGlobalCurveSpec), (.pdpLoadScreen, pdpLoadScreenSpec), (.pdpLoadSeamMask, pdpLoadSeamMaskSpec),
      (.pdpSetLevelMap, pdpSetLevelMapSpec), (.pdpSetSelvedge, pdpSetSelvedgeSpec), (.pdpSetSeam, pdpSetSeamSpec),
      (.firSetFeed, firSetFeedSpec), (.firSetRows, firSetRowsSpec), (.firSetOverspeed, firSetOverspeedSpec),
      (.firClearFault, firClearFaultSpec), (.nhdSetNozzles, setNozzlesSpec), (.nhdSetRange, nhdSetRangeSpec),
      (.nhdCommitMap, nhdCommitMapSpec), (.nhdDiscardStaged, nhdDiscardStagedSpec), (.nhdLoadMap, nhdLoadMapSpec),
      (.nhdReadMap, nhdReadMapSpec), (.nhdSetKernel, nhdSetKernelSpec), (.nhdSetPolicy, nhdSetPolicySpec), (.nhdSetGate, nhdSetGateSpec),
      (.nhdGateRun, nhdGateRunSpec), (.nhdSetSwatch, setSwatchSpec), (.nhdPrintSwatch, nhdPrintSwatchSpec), (.hlkSetPort, hlkSetPortSpec),
      (.hlkRethread, hlkRethreadSpec), (.hlkLoopback, hlkLoopbackSpec), (.hlkIdentify, hlkIdentifySpec), (.hlkMgmtRead, hlkMgmtReadSpec),
      (.hlkMgmtWrite, hlkMgmtWriteSpec), (.hlkSetTimers, hlkSetTimersSpec), (.camSetInput, camSetInputSpec), (.camSetMap, camSetMapSpec),
      (.camSetContext, camSetContextSpec), (.camSetSensor, camSetSensorSpec), (.camSetMatrix, camSetMatrixSpec),
      (.camLoadTone, camLoadToneSpec), (.camSetDefects, camSetDefectsSpec), (.camSetOutput, setOutputSpec),
      (.camSetGeometry, camSetGeometrySpec), (.camSetFlatfield, camSetFlatfieldSpec), (.camCommit, camCommitSpec),
      (.camSetStats, camSetStatsSpec), (.camSetRate, camSetRateSpec), (.motSetAxis, motSetAxisSpec), (.motSetLimits, motSetLimitsSpec),
      (.motSetBands, motSetBandsSpec), (.motSetInputs, motSetInputsSpec), (.motEnable, motEnableSpec), (.motMoveTo, motMoveToSpec),
      (.motSetVelocity, motSetVelocitySpec), (.motStop, motStopSpec), (.motHome, motHomeSpec), (.motSetPosition, motSetPositionSpec),
      (.motClear, motClearSpec), (.timSetPort, timSetPortSpec), (.timSetPtp, timSetPtpSpec), (.timSendMsg, timSendMsgSpec),
      (.timRecvMsg, timRecvMsgSpec), (.seqSetSwap, seqSetSwapSpec), (.seqSwap, seqSwapSpec), (.seqRepair, seqRepairSpec),
      (.drcReset, drcResetSpec), (.drcRetrain, drcRetrainSpec), (.drcSetRefresh, drcSetRefreshSpec), (.drcSetQos, drcSetQosSpec),
      (.drcInject, drcInjectSpec), (.hkpSetChannel, hkpSetChannelSpec), (.hkpSetThresh, hkpSetThreshSpec), (.hkpSetHead, hkpSetHeadSpec),
      (.hkpSetThrottle, hkpSetThrottleSpec), (.hkpClear, hkpClearSpec), (.lgtSetSink, lgtSetSinkSpec), (.lgtSetPwm, lgtSetPwmSpec),
      (.lgtSetChain, lgtSetChainSpec), (.calSet, calSetSpec), (.calRun, calRunSpec)],
    ∀ s c, (accepting s = false → exec (r.1 c) s = .next s) ∧
      (findTag s c.pair c.tag = none → mayFetch s c.pair = false → exec (r.1 c) s = .next s) ∧
      ∀ st det, findTag s c.pair c.tag = none → mayFetch s c.pair = true → fetchCheck s (some r.2) r.2.op c = some (st, det) →
        exec (r.1 c) s = .next (stageReply s c.pair c.tag (BitVec.ofNat 16 r.2.op) st det [] false)

/-- Replies and event records on their way to the host (R64, R66, R67, R97, R117, R118, R121, R122): the oldest staged reply is written to its bobbin when that has room, and the tail advances;
every entry written counts as signalled; without room the reply stays; the oldest staged event is written with the bobbin's SEQ, which counts on; losses are reported behind the staged records. -/
def Obligations.StagedRecordsWritten : Prop :=
  (∀ s p r rest b, (vget s.cmd.pairs p).staged = r :: rest → vget s.bob.rings (replyBob p) = b → fwRuns s = true → ringLive b = true →
    (16 + 4 * r.results.length + 31) / 32 ≤ ringFree b → accessHeld s b.space = false → ringErr s b b.tail (replyEntries r) false = none →
    (b.irqEn = false → ∃ t, exec (.replyPost p) s = .next t ∧ t.dram = (ringWrite s b b.tail (replyEntries r) (replyBytes r)).dram ∧
      t.sram = (ringWrite s b b.tail (replyEntries r) (replyBytes r)).sram ∧ t.hostMem = (ringWrite s b b.tail (replyEntries r) (replyBytes r)).hostMem ∧
      (∀ m, m ≠ replyBob p → vget t.bob.rings m = vget s.bob.rings m) ∧ t.evt = s.evt ∧ (vget t.bob.rings (replyBob p)).pend = b.pend + replyEntries r) ∧
    nextWith (exec (.replyPost p) s) fun t => (vget t.cmd.pairs p).staged = rest ∧ (vget t.cmd.pairs p).outs = (vget s.cmd.pairs p).outs ∧
      (vget t.bob.rings (replyBob p)).tail = idxAdd b b.tail ((16 + 4 * r.results.length + 31) / 32)) ∧
  (∀ s p r rest, (vget s.cmd.pairs p).staged = r :: rest → (ringLive (vget s.bob.rings (replyBob p)) = false ∨
    ringFree (vget s.bob.rings (replyBob p)) < (16 + 4 * r.results.length + 31) / 32) → exec (.replyPost p) s = .next s) ∧
  (∀ r : Reply, r.status < 256 → r.detail < 65536 → r.results.length ≤ 252 → ∃ w0 w1 w2 w3 : Word, replyBytes r = wordBytes ([w0, w1, w2, w3] ++ r.results) ∧
    bits w0 15 0 = r.tag.toNat ∧ bits w0 31 16 = r.op.toNat ∧ bits w1 7 0 = r.status ∧ bits w1 15 8 = 0 ∧ bits w1 31 16 = r.detail ∧
    bits w2 15 0 = r.results.length ∧ bit w2 16 = r.interim ∧ bits w2 31 17 = 0 ∧ w3.toNat = r.ctDone % 2 ^ 32) ∧
  (∀ s (k : Fin 4) e rest r, (vget s.evt.bobs k).staging = e :: rest → vget s.bob.rings (evBob k) = r → ringLive r = true → 0 < ringFree r →
    accessHeld s r.space = false → ringErr s r r.tail 1 false = none → r.irqEn = false → (vget s.evt.bobs k).pendLost = 0 →
    exec (.eventStagingWrite k) s = .next (modRing (modEvBob (spaceWrite s r.space (entryAddr r r.tail) (eventBytes e (vget s.evt.bobs k).seq)) k fun b =>
      { b with staging := rest, seq := b.seq + 1 }) (evBob k) fun x =>
        { x with tail := idxAdd x x.tail 1, wbDue := true, pend := x.pend + 1, pendAt := if x.pend = 0 then s.ct else x.pendAt })) ∧
  (∀ s (k : Fin 4) e rest r b, vget s.evt.bobs k = b → b.staging = e :: rest → vget s.bob.rings (evBob k) = r → ringLive r = true → 0 < ringFree r →
    accessHeld s r.space = false → ringErr s r r.tail 1 false = none → r.irqEn = false → 0 < b.pendLost → rest.length < 2048 →
    nextWith (exec (.eventStagingWrite k) s) fun t => (vget t.evt.bobs k).pendLost = 0 ∧ (vget t.evt.bobs k).seq = b.seq + 1 ∧
      ∃ x, (vget t.evt.bobs k).staging = rest ++ [x] ∧ x.num = 3 ∧ x.inst = 24 + k.val ∧ x.stamp = b.firstLost ∧ x.d0 = w32 b.pendLost) ∧
  (∀ s (k : Fin 4), ((vget s.evt.bobs k).staging = [] ∨ ringLive (vget s.bob.rings (evBob k)) = false ∨ ringFree (vget s.bob.rings (evBob k)) = 0) →
    exec (.eventStagingWrite k) s = .next s) ∧
  (∀ (e : Ev) seq, ∃ w0 w1 w2 w3 : Word, eventBytes e seq = wordBytes [w0, w1, w2, w3, e.d0, e.d1, e.d2, e.d3] ∧ bits w0 7 0 = e.num % 256 ∧
    bit w0 8 = e.late ∧ bits w0 15 9 = 0 ∧ bits w0 31 16 = seq.toNat ∧ bits w1 15 0 = e.inst % 65536 ∧ bits w1 31 16 = e.code % 65536 ∧
    w2.toNat + 2 ^ 32 * w3.toNat = e.stamp % 2 ^ 64)

/-- Events in order (R37 to R39, R119 to R122): an event that arrives in time is held; the earliest held event, by stamp and then by source number, is delivered when CT reaches its stamp
plus 800, to the bobbin its route names then; one that arrives later is delivered at once with LATE, which is reported once per stall; an unrouted one is
discarded, and one for a full staging area is lost and counted. -/
def Obligations.EventsOrdered : Prop :=
  (∀ s i e, s.evt.net[i]? = some e → s.ct ≤ e.stamp + 800 → nextWith (exec (.eventArrival i) s) fun t =>
    t.evt.win = s.evt.win ++ [e] ∧ t.evt.net = s.evt.net.eraseIdx i ∧ t.evt.bobs = s.evt.bobs ∧ t.ct = s.ct ∧ t.bob = s.bob) ∧
  (∀ s i e (n : Fin 256), s.evt.net[i]? = some e → e.stamp + 800 < s.ct → e.dest = none → e.num = n.val → (vget s.evt.routes n).en = true →
    (vget s.evt.bobs (vget s.evt.routes n).bobbin).staging.length < 2048 → n.val ∉ s.evt.stalled → ∃ t x, exec (.eventArrival i) s = .next t ∧
      (vget t.evt.bobs (vget s.evt.routes n).bobbin).staging = (vget s.evt.bobs (vget s.evt.routes n).bobbin).staging ++ [{ e with late := true }] ∧
      t.evt.net = s.evt.net.eraseIdx i ++ [x] ∧ x.num = 2 ∧ x.inst = n.val ∧ x.dest = some (vget s.evt.routes n).bobbin ∧ n.val ∈ t.evt.stalled ∧ t.evt.win = s.evt.win) ∧
  (∀ s e a b, s.glb.sysLock = true → s.evt.win = a ++ e :: b → (∀ x ∈ a, e.stamp < x.stamp ∨ (e.stamp = x.stamp ∧ e.num < x.num)) →
    (∀ x ∈ b, e.stamp < x.stamp ∨ (e.stamp = x.stamp ∧ e.num ≤ x.num)) → nextWith (exec .eventDeliver s) fun t =>
      t.ct = max s.ct (e.stamp + 800) ∧ t.evt.win = a ++ b ∧ t.evt.net = s.evt.net ∧
      (∀ (n : Fin 256) k, e.dest = none → e.num = n.val → vget s.evt.routes n = { bobbin := k, en := true } → (vget s.evt.bobs k).staging.length < 2048 →
        (vget t.evt.bobs k).staging = (vget s.evt.bobs k).staging ++ [e] ∧ ∀ j, j ≠ k → vget t.evt.bobs j = vget s.evt.bobs j) ∧
      (∀ n : Fin 256, e.dest = none → e.num = n.val → (vget s.evt.routes n).en = false → t.evt.bobs = s.evt.bobs) ∧
      (∀ k, e.dest = some k → 2048 ≤ (vget s.evt.bobs k).staging.length → (vget t.evt.bobs k).staging = (vget s.evt.bobs k).staging ∧
        (vget t.evt.bobs k).lost = min 0xFFFFFFFF ((vget s.evt.bobs k).lost + 1) ∧ (vget t.evt.bobs k).pendLost = (vget s.evt.bobs k).pendLost + 1 ∧
        (vget t.evt.bobs k).lastLost = e.stamp)) ∧
  (∀ s, s.evt.win = [] → exec .eventDeliver s = .next s)

/-- A step runs the command at the front of the queue on the state with the queue's rest; on an empty queue one FIRE cycle passes, which is the model's choice (log entry
58). -/
def Obligations.StepRunsFrontCommand : Prop :=
  (∀ s c rest, s.pending = c :: rest → step s = exec c { s with pending := rest }) ∧
  (∀ s, s.pending = [] → step s = .next (tick s)) ∧
  (∀ s, s.glb.sysLock = false → tick s = s) ∧
  (∀ s, s.glb.sysLock = true → (∀ p l, (laneOfPort s p l).state ≠ .up) → (tick s).ct = s.ct + 1 ∧ (tick s).hlk = s.hlk ∧
    ∀ b, vget (tick s).tim.tbs b = tbRun (vget s.tim.tbs b) 1)

/-- What reset leaves (R57, R112, R118, R119, R123, R446, R448, R564): chip time and every time base at 0, no bobbin enabled, no command-set version chosen, no event of a bobbin counted or lost, every
event routed to bobbin 24 but 231, which is not delivered, no panel, memories in canonical form with nothing listed, no command waiting. -/
def Obligations.ResetState : Prop :=
  State.reset.ct = 0 ∧ (∀ b, vget State.reset.tim.tbs b = { t := 0, rate := 0, slew := 0 }) ∧ State.reset.pending = [] ∧
  (∀ n, (vget State.reset.bob.rings n).en = false ∧ (vget State.reset.bob.rings n).halted = false ∧ (vget State.reset.bob.rings n).head = 0 ∧
    (vget State.reset.bob.rings n).tail = 0) ∧
  State.reset.cmd.cmdVer = 0 ∧ (∀ k, (vget State.reset.evt.bobs k).seq = 0 ∧ (vget State.reset.evt.bobs k).lost = 0 ∧ (vget State.reset.evt.bobs k).staging = []) ∧
  (∀ n : Fin 256, vget State.reset.evt.routes n = { bobbin := 0, en := n.val != 231 }) ∧
  State.reset.pdp.active = none ∧ State.reset.pdp.queued = none ∧ (∀ p, (vget State.reset.cmd.pairs p).outs = [] ∧ (vget State.reset.cmd.pairs p).staged = []) ∧
  State.reset.memoriesOk = true ∧ ∀ a, memGet State.reset.sram a = 0

/-- The four byte memories keep their canonical form in every step, whatever the command. -/
def Obligations.MemoriesKept : Prop := ∀ s t, s.memoriesOk = true → step s = .next t → t.memoriesOk = true

/-- Byte memory: what is written reads back, every other byte is as before, the canonical form stays, and equal contents are equal memories. -/
def Obligations.MemoryReadsWrites : Prop :=
  (∀ m a bs, memWf m = true → memRead (memWrite m a bs) a bs.length = bs) ∧
  (∀ m a bs b, memWf m = true → b < a ∨ a + bs.length ≤ b → memGet (memWrite m a bs) b = memGet m b) ∧
  (∀ m a bs, memWf m = true → memWf (memWrite m a bs) = true) ∧
  (∀ m k, memWf m = true → memWf k = true → (∀ a, memGet m a = memGet k a) → m = k)

/-- A block coded as literal tokens decodes to itself, against any reference and with any bytes behind the tokens (R200, R203, R204). -/
def Obligations.LiteralsDecode : Prop :=
  ∀ widthCode raw ref pad, widthCode < 4 → raw.length = 256 * 2 ^ widthCode →
    ebcDecode widthCode (ebcLiterals (raw.length / 64) raw ++ pad) ref = .ok raw

/-- A setting, carried out or rejected, changes its own block, outstanding commands, replies with their count and the epochs seen, and nothing else (a table of the camera
pipeline may wait for the DRAM controller; a jump of a time base and a full staging raise an event): no memory byte, no other block, no bobbin, no time, no waiting command. -/
def Obligations.SettingsKeepOtherBlocks : Prop :=
  (∀ r ∈ [(Instr.firSetFeed : Cmd → Instr), .firSetRows, .firSetOverspeed, .firClearFault], ∀ s c t, exec (r c) s = .next t →
    OnlyBlock (fun s t => { s with fir := t.fir }) s t) ∧
  (∀ r ∈ [(Instr.motSetAxis : Cmd → Instr), .motSetLimits, .motSetBands, .motSetInputs, .motMoveTo, .motSetVelocity, .motHome, .motSetPosition, .motClear],
    ∀ s c t, exec (r c) s = .next t → OnlyBlock (fun s t => { s with mot := t.mot }) s t) ∧
  (∀ r ∈ [(Instr.camLoadTone : Cmd → Instr), .camSetDefects], ∀ s c t, exec (r c) s = .next t →
    OnlyBlock (fun s t => { s with cam := t.cam, drcx := { s.drcx with waiting := t.drcx.waiting } }) s t) ∧
  (∀ r ∈ [(Instr.camSetSensor : Cmd → Instr), .camSetMatrix, .camSetOutput, .camSetGeometry, .camSetFlatfield, .camCommit, .camSetStats,
      .camSetRate, .camSetMap], ∀ s c t, exec (r c) s = .next t → OnlyBlock (fun s t => { s with cam := t.cam }) s t) ∧
  (∀ r ∈ [(Instr.timSetTbSet : Cmd → Instr), .timSetTbStep, .timSetTbSlew, .timSetTbRate], ∀ s c t, exec (r c) s = .next t →
    OnlyBlock (fun s t => { s with tim := t.tim, evt := { s.evt with net := t.evt.net } }) s t) ∧
  (∀ r ∈ [(Instr.nhdSetKernel : Cmd → Instr), .nhdDiscardStaged, .nhdLoadMap, .nhdReadMap, .nhdSetGate], ∀ s c t, exec (r c) s = .next t →
    OnlyBlock (fun s t => { s with nhd := t.nhd }) s t) ∧
  (∀ r ∈ [(Instr.nhdSetNozzles : Cmd → Instr), .nhdSetRange], ∀ s c t, exec (r c) s = .next t →
    OnlyBlock (fun s t => { s with nhd := t.nhd, evt := { s.evt with net := t.evt.net } }) s t) ∧
  (∀ r ∈ [(Instr.drcSetRefresh : Cmd → Instr), .drcSetQos, .drcInject], ∀ s c t, exec (r c) s = .next t → OnlyBlock (fun s t => { s with drc := t.drc }) s t) ∧
  (∀ s c t, exec (.hlkSetTimers c) s = .next t → OnlyBlock (fun s t => { s with hlk := t.hlk }) s t) ∧
  (∀ s c t, exec (.lgtSetPwm c) s = .next t → OnlyBlock (fun s t => { s with lgt := t.lgt }) s t) ∧
  (∀ s c t, exec (.hkpSetThrottle c) s = .next t → OnlyBlock (fun s t => { s with hkp := t.hkp }) s t) ∧
  (∀ s c t, exec (.seqSetSwap c) s = .next t → OnlyBlock (fun s t => { s with seq := t.seq }) s t)
end

