-- ==== Sys2Proof/Laws/Fire.lean ====
section
/-! SUPPORT. The integer square root FIR's prediction takes is the true one. -/

namespace Sys2Proof.Machine

/-- Bit by bit, the root found is the greatest whose square does not pass `n`. -/
theorem sqrtBits_sq (n : Nat) : ∀ k r, r * r ≤ n → n < (r + 2 ^ k) * (r + 2 ^ k) →
    sqrtBits n k r * sqrtBits n k r ≤ n ∧ n < (sqrtBits n k r + 1) * (sqrtBits n k r + 1)
  | 0, r, h1, h2 => by simpa [sqrtBits] using ⟨h1, h2⟩
  | k + 1, r, h1, h2 => by
    unfold sqrtBits
    split
    · rename_i h
      refine sqrtBits_sq n k _ h ?_
      have e : r + 2 ^ (k + 1) = r + 2 ^ k + 2 ^ k := by rw [Nat.pow_succ]; omega
      rwa [e] at h2
    · exact sqrtBits_sq n k r h1 (by omega)

/-- The square of `isqrt n` does not pass `n`, and that of the next number does. -/
theorem isqrt_sq (n : Nat) : isqrt n * isqrt n ≤ n ∧ n < (isqrt n + 1) * (isqrt n + 1) := by
  refine sqrtBits_sq n _ 0 (Nat.zero_le n) ?_
  rw [Nat.zero_add, ← Nat.pow_add]
  exact Nat.lt_of_lt_of_le Nat.lt_log2_self (Nat.pow_le_pow_right (by decide) (by omega))

end Sys2Proof.Machine
end

