-- ==== Sys2Proof/Laws/Memory.lean ====
section
/-! SUPPORT. What the operations of byte memory do, and that they keep its canonical form. -/

namespace Sys2Proof.Machine

open Sys2Proof

theorem memWfFrom_mono {lo lo' : Nat} (h : lo' ≤ lo) {m : Mem} (hm : memWfFrom lo m = true) : memWfFrom lo' m = true := by
  cases m with
  | nil => rfl
  | cons p m =>
    obtain ⟨k, b⟩ := p
    simp only [memWfFrom, Bool.and_eq_true, decide_eq_true_eq] at hm ⊢
    exact ⟨⟨by omega, hm.1.2⟩, hm.2⟩

/-- An address below the first listed one reads as 0. -/
theorem memGet_below {lo a : Nat} {m : Mem} (hm : memWfFrom lo m = true) (h : a < lo) : memGet m a = 0 := by
  cases m with
  | nil => rfl
  | cons p m =>
    obtain ⟨k, b⟩ := p
    simp only [memWfFrom, Bool.and_eq_true, decide_eq_true_eq] at hm
    have h1 : k ≠ a := by omega
    have h2 : a < k := by omega
    simp [memGet, h1, h2]

/-- One byte written keeps the canonical form. -/
theorem memSet_wfFrom (lo a : Nat) (x : Byte) (m : Mem) (hm : memWfFrom lo m = true) (ha : lo ≤ a) : memWfFrom lo (memSet m a x) = true := by
  induction m generalizing lo with
  | nil =>
    by_cases hx : x = 0#8
    · simp [memSet, hx, memWfFrom]
    · simp [memSet, hx, memWfFrom, ha]
  | cons p m ih =>
    obtain ⟨k, b⟩ := p
    have hm' := hm
    simp only [memWfFrom, Bool.and_eq_true, decide_eq_true_eq] at hm'
    obtain ⟨⟨h1, h2⟩, h3⟩ := hm'
    unfold memSet
    split
    · rename_i e
      subst e
      split
      · exact memWfFrom_mono (by omega) h3
      · rename_i hx
        have hx' : ¬x = 0#8 := hx
        simp [memWfFrom, ha, hx', h3]
    · split
      · split
        · exact hm
        · rename_i hka hlt hx
          have h4 : a + 1 ≤ k := by omega
          simp at h2
          have hx' : ¬x = 0#8 := hx
          simp [memWfFrom, ha, hx', h3, h2, h4]
      · have h4 : k + 1 ≤ a := by omega
        simp only [memWfFrom, Bool.and_eq_true, decide_eq_true_eq]
        exact ⟨⟨h1, h2⟩, ih (k + 1) h3 h4⟩

theorem memSet_wf (a : Nat) (x : Byte) (m : Mem) (hm : memWf m = true) : memWf (memSet m a x) = true :=
  memSet_wfFrom 0 a x m hm (Nat.zero_le a)

/-- The byte written reads back, every other one is as before. -/
theorem memGet_memSet (lo a b : Nat) (x : Byte) (m : Mem) (hm : memWfFrom lo m = true) :
    memGet (memSet m a x) b = if b = a then x else memGet m b := by
  induction m generalizing lo with
  | nil =>
    by_cases hx : x = 0#8
    · by_cases hb : b = a <;> simp [memSet, memGet, hx, hb]
    · by_cases hb : b = a
      · simp [memSet, memGet, hx, hb]
      · have hb' : a ≠ b := fun e => hb e.symm
        simp [memSet, memGet, hx, hb, hb']
  | cons p m ih =>
    obtain ⟨k, c⟩ := p
    have hm' := hm
    simp only [memWfFrom, Bool.and_eq_true, decide_eq_true_eq] at hm'
    obtain ⟨⟨h1, h2⟩, h3⟩ := hm'
    by_cases hka : k = a
    · subst hka
      by_cases hb : b = k
      · subst hb
        by_cases hx : x = 0#8
        · simp [memSet, hx, memGet_below h3 (Nat.lt_succ_self b)]
        · simp [memSet, hx, memGet]
      · have hb' : k ≠ b := fun e => hb e.symm
        by_cases hx : x = 0#8
        · by_cases hlt : b < k
          · simp [memSet, hx, hb, hb', memGet, hlt, memGet_below h3 (show b < k + 1 by omega)]
          · simp [memSet, hx, hb, hb', memGet, hlt]
        · simp [memSet, hx, hb, hb', memGet]
    · by_cases hlt : a < k
      · by_cases hx : x = 0#8
        · by_cases hb : b = a
          · subst hb; simp [memSet, hx, hka, hlt, memGet]
          · simp [memSet, hx, hka, hlt, hb]
        · by_cases hb : b = a
          · subst hb; simp [memSet, hx, hka, hlt, memGet]
          · have hb' : a ≠ b := fun e => hb e.symm
            by_cases hba : b < a
            · have hbk : k ≠ b := by omega
              have hbk' : b < k := by omega
              simp [memSet, hx, hka, hlt, hb, hb', memGet, hba, hbk, hbk']
            · simp [memSet, hx, hka, hlt, hb, hb', memGet, hba]
      · by_cases hbk : k = b
        · have hba : b ≠ a := fun e => hka (hbk.trans e)
          subst hbk; simp [memSet, hka, hlt, memGet]
        · by_cases hbk' : b < k
          · have hba : b ≠ a := by omega
            simp [memSet, hka, hlt, memGet, hbk, hbk', hba]
          · simp [memSet, hka, hlt, memGet, hbk, hbk', ih (k + 1) h3]

/-- Bytes written keep the canonical form. -/
theorem memWrite_wf (m : Mem) (a : Nat) (bs : List Byte) (hm : memWf m = true) : memWf (memWrite m a bs) = true := by
  induction bs generalizing m a with
  | nil => exact hm
  | cons b bs ih => exact ih _ _ (memSet_wf a b m hm)

@[simp] theorem memRead_length (m : Mem) (a n : Nat) : (memRead m a n).length = n := by
  induction n generalizing a with
  | zero => rfl
  | succ n ih => simp [memRead, ih]

/-! ## The four memories of the state -/

/-- The four canonical forms, one by one. -/
theorem memoriesOk_iff (s : State) :
    s.memoriesOk = true ↔ memWf s.dram = true ∧ memWf s.sram = true ∧ memWf s.hostMem = true ∧ memWf s.flash = true := by
  simp [State.memoriesOk, and_assoc]

/-- A state with the same four memories is as canonical. -/
theorem memoriesOk_congr {s t : State} (h1 : t.dram = s.dram) (h2 : t.sram = s.sram) (h3 : t.hostMem = s.hostMem) (h4 : t.flash = s.flash) :
    t.memoriesOk = s.memoriesOk := by
  simp [State.memoriesOk, h1, h2, h3, h4]

theorem spaceWrite_memoriesOk (s : State) (space a : Nat) (bs : List Byte) (payload : Bool) (h : s.memoriesOk = true) :
    (spaceWrite s space a bs payload).memoriesOk = true := by
  rw [memoriesOk_iff] at h ⊢
  obtain ⟨h1, h2, h3, h4⟩ := h
  unfold spaceWrite
  split
  · exact ⟨h1, h2, memWrite_wf _ _ _ h3, h4⟩
  · exact ⟨memWrite_wf _ _ _ h1, h2, h3, h4⟩
  · exact ⟨h1, memWrite_wf _ _ _ h2, h3, h4⟩

end Sys2Proof.Machine
end

