-- ==== Sys2Proof/Laws/Protocol.lean ====
section
/-! SUPPORT. What the shared operations of the command protocol do, said once. -/

namespace Sys2Proof.Machine

open Sys2Proof

@[simp] theorem vget_vset_same {α : Type} {n : Nat} (v : Vector α n) (i : Fin n) (x : α) : vget (vset v i x) i = x := by
  simp [vget, vset]

theorem vget_vset_other {α : Type} {n : Nat} (v : Vector α n) (i j : Fin n) (x : α) (h : i ≠ j) : vget (vset v i x) j = vget v j := by
  have : i.val ≠ j.val := fun e => h (Fin.ext e)
  simp [vget, vset, Vector.getElem_set_ne, this]

@[simp] theorem vget_vmod_same {α : Type} {n : Nat} (v : Vector α n) (i : Fin n) (f : α → α) : vget (vmod v i f) i = f (vget v i) := by
  simp [vmod]

theorem vget_vmod_other {α : Type} {n : Nat} (v : Vector α n) (i j : Fin n) (f : α → α) (h : i ≠ j) : vget (vmod v i f) j = vget v j := by
  simp [vmod, vget_vset_other _ _ _ _ h]

theorem ButReplies.refl (s : State) : ButReplies s s := rfl

theorem ButReplies.trans {s t u : State} (h : ButReplies s t) (k : ButReplies t u) : ButReplies s u := by
  unfold ButReplies at *
  rw [k, h]

theorem stageReply_butReplies (s : State) (p : Fin 4) (tag op : BitVec 16) (st det : Nat) (res : List Word) (im : Bool) :
    ButReplies s (stageReply s p tag op st det res im) := rfl

theorem dropTag_butReplies (s : State) (p : Fin 4) (tag : BitVec 16) : ButReplies s (dropTag s p tag) := rfl

/-- Dropping an outstanding command changes no reply. -/
theorem dropTag_staged (s : State) (p q : Fin 4) (tag : BitVec 16) :
    (vget (dropTag s p tag).cmd.pairs q).staged = (vget s.cmd.pairs q).staged := by
  by_cases h : p = q
  · subst h; simp [dropTag]
  · simp [dropTag, vget_vmod_other _ _ _ _ h]

/-- The mark of a full reply bobbin changes no reply. -/
@[simp] theorem markFull_staged (s : State) (p q : Fin 4) : (vget (markFull s p).cmd.pairs q).staged = (vget s.cmd.pairs q).staged := by
  by_cases h : p = q
  · subst h; simp [markFull]
  · simp [markFull, vget_vmod_other _ _ _ _ h]

/-- The mark of a full reply bobbin changes no outstanding command. -/
@[simp] theorem markFull_findTag (s : State) (p q : Fin 4) (tag : BitVec 16) : findTag (markFull s p) q tag = findTag s q tag := by
  unfold findTag
  by_cases h : p = q
  · subst h; simp [markFull]
  · simp [markFull, vget_vmod_other _ _ _ _ h]

/-- A reply is staged behind the earlier ones of its pair and touches no other pair. -/
theorem stageReply_staged (s : State) (p q : Fin 4) (tag op : BitVec 16) (st det : Nat) (res : List Word) (im : Bool) :
    (vget (stageReply s p tag op st det res im).cmd.pairs q).staged =
      (vget s.cmd.pairs q).staged ++ if p = q then [Reply.mk tag op st det im res s.ct] else [] := by
  unfold stageReply
  rw [markFull_staged]
  by_cases h : p = q
  · subst h; simp
  · simp [vget_vmod_other _ _ _ _ h, h]

theorem endCancels_both (l : List CancelWait) (w1 : Word) (s : State) (q : Fin 4) :
    ButReplies s (l.foldl (fun s w => stageReply (dropTag s w.pair w.tag) w.pair w.tag 0x0103 stOk 0 [w1] false) s) ∧
    ∃ after, (vget (l.foldl (fun s w => stageReply (dropTag s w.pair w.tag) w.pair w.tag 0x0103 stOk 0 [w1] false) s).cmd.pairs q).staged =
      (vget s.cmd.pairs q).staged ++ after := by
  induction l generalizing s with
  | nil => exact ⟨rfl, [], by simp⟩
  | cons w l ih =>
    obtain ⟨hb, a, ha⟩ := ih (stageReply (dropTag s w.pair w.tag) w.pair w.tag 0x0103 stOk 0 [w1] false)
    refine ⟨((dropTag_butReplies s _ _).trans (stageReply_butReplies _ _ _ _ _ _ _ _)).trans hb, ?_⟩
    rw [List.foldl_cons, ha, stageReply_staged, dropTag_staged, List.append_assoc]
    exact ⟨_, rfl⟩

/-- What ends the cancels that waited changes replies and outstanding commands only, and takes no reply away. -/
theorem endCancels_spec (s : State) (p q : Fin 4) (tag : BitVec 16) (st : Nat) :
    ButReplies s (endCancels s p tag st) ∧
      ∃ after, (vget (endCancels s p tag st).cmd.pairs q).staged = (vget s.cmd.pairs q).staged ++ after := by
  have := endCancels_both (s.cmd.cancels.filter fun w => w.target == p && w.targetTag == tag) (if st = stAbandoned then 0 else 1)
    { s with cmd := { s.cmd with cancels := s.cmd.cancels.filter fun w => !(w.target == p && w.targetTag == tag) } } q
  have h : ButReplies s { s with cmd := { s.cmd with cancels := s.cmd.cancels.filter fun w => !(w.target == p && w.targetTag == tag) } } := rfl
  exact ⟨h.trans this.1, this.2⟩

/-- A final reply of an outstanding command while a sequencer runs: it is staged, and nothing but outstanding commands and replies changes. -/
theorem finishTag_spec (s : State) (p : Fin 4) (tag : BitVec 16) (st det : Nat) (res : List Word) (o : OutCmd) (h : findTag s p tag = some o)
    (hf : fwRuns s = true) :
    ButReplies s (finishTag s p tag st det res) ∧
      ∃ after, (vget (finishTag s p tag st det res).cmd.pairs p).staged =
        (vget s.cmd.pairs p).staged ++ Reply.mk tag o.op st det false res s.ct :: after := by
  unfold finishTag
  rw [h]
  simp only [hf, if_true]
  obtain ⟨hb, a, ha⟩ := endCancels_spec (stageReply (dropTag s p tag) p tag o.op st det res false) p p tag st
  refine ⟨((dropTag_butReplies s _ _).trans (stageReply_butReplies _ _ _ _ _ _ _ _)).trans hb, ?_⟩
  refine ⟨a, ?_⟩
  show (vget (endCancels _ p tag st).cmd.pairs p).staged = _
  rw [ha, stageReply_staged, dropTag_staged, if_pos rfl, List.append_assoc]
  rfl

/-- Finishing changes nothing but outstanding commands and replies. -/
theorem finishTag_butReplies (s : State) (p : Fin 4) (tag : BitVec 16) (st det : Nat) (res : List Word) :
    ButReplies s (finishTag s p tag st det res) := by
  cases h : findTag s p tag with
  | none => unfold finishTag; rw [h]; exact rfl
  | some o =>
    by_cases hf : fwRuns s = true
    · exact (finishTag_spec s p tag st det res o h hf).1
    · unfold finishTag; rw [h]; simp only [hf, Bool.false_eq_true, if_false]; rfl

/-- Whether a sequencer runs is no matter of commands and replies. -/
theorem ButReplies.fwRuns {s t : State} (h : ButReplies s t) : fwRuns t = fwRuns s := by
  have hs : t.seq = s.seq := by rw [h]
  unfold Machine.fwRuns
  rw [hs]

/-- The started command is the outstanding one of its tag. -/
theorem begun_findTag (s : State) (sp : CmdSpec) (c : Cmd) (h : findTag s c.pair c.tag = none) :
    ∃ o, findTag (begun s sp c) c.pair c.tag = some o ∧ o.op = BitVec.ofNat 16 sp.op ∧ o.pkt = c ∧ o.started = true ∧ o.async = sp.async := by
  have hn : ∀ o ∈ (vget s.cmd.pairs c.pair).outs, (o.pkt.tag == c.tag) = false := by
    have := List.find?_eq_none.mp h
    intro o ho
    simpa using this o ho
  refine ⟨{ op := BitVec.ofNat 16 sp.op, pkt := c, started := true, async := sp.async }, ?_, rfl, rfl, rfl, rfl⟩
  have hm : (vget s.cmd.pairs c.pair).outs.map (fun o => if o.pkt.tag == c.tag then { o with started := true, async := sp.async } else o)
      = (vget s.cmd.pairs c.pair).outs := by
    rw [List.map_congr_left (g := id)]
    · simp
    · intro o ho; simp [hn o ho]
  have h' : (vget s.cmd.pairs c.pair).outs.find? (fun o => o.pkt.tag == c.tag) = none := h
  simp only [begun, findTag, addOut, vget_vmod_same, List.map_append, hm, List.find?_append, h']
  simp

theorem begun_butReplies (s : State) (sp : CmdSpec) (c : Cmd) : ButReplies s (begun s sp c) := rfl

theorem begun_staged (s : State) (sp : CmdSpec) (c : Cmd) (q : Fin 4) :
    (vget (begun s sp c).cmd.pairs q).staged = (vget s.cmd.pairs q).staged := by
  by_cases h : c.pair = q
  · subst h; simp [begun, addOut]
  · simp [begun, addOut, vget_vmod_other _ _ _ _ h]

/-- Checks with a result worked out on demand are the same checks. -/
theorem firstFailThen_eq (s : State) (cs : List (Bool × Nat × Nat)) (r : Unit → CmdRes) : firstFailThen s cs r = firstFail s cs (r ()) := by
  induction cs with
  | nil => rfl
  | cons x xs ih =>
    obtain ⟨b, st, det⟩ := x
    cases b
    · simpa [firstFailThen, firstFail, List.find?] using ih
    · simp [firstFailThen, firstFail, List.find?]

/-- A list of checks of which none fails leaves the effect. -/
theorem firstFail_none (s : State) (cs : List (Bool × Nat × Nat)) (r : CmdRes) (h : NoneFails cs) : firstFail s cs r = r := by
  induction cs with
  | nil => rfl
  | cons k cs ih =>
    obtain ⟨b, st, det⟩ := k
    have hb : b = false := h (b, st, det) (by simp)
    simp only [firstFail, hb, Bool.false_eq_true, if_false]
    exact ih fun k hk => h k (List.mem_cons_of_mem _ hk)

/-- A packet that runs starts its own part on the state in which it is outstanding. -/
theorem runCmd_runs (s : State) (sp : CmdSpec) (c : Cmd) (body : State → CmdRes) (h : Runs s sp c) :
    runCmd s sp c body = match body (begun s sp c) with
      | .done st det res s2 => answered s2 sp c st det res
      | .started s2 => accepted s2 sp c := by
  obtain ⟨h1, h2, h3, h4, h5⟩ := h
  unfold runCmd
  rw [h1, h2, h3, h4]
  unfold startCmd
  rw [h5]
  rfl

theorem findTag_congr {s t : State} {p : Fin 4} (h : vget t.cmd.pairs p = vget s.cmd.pairs p) (tag : BitVec 16) : findTag t p tag = findTag s p tag := by
  unfold findTag; rw [h]

theorem stageReply_findTag (s : State) (p q : Fin 4) (tag tag' op : BitVec 16) (st det : Nat) (res : List Word) (im : Bool) :
    findTag (stageReply s p tag op st det res im) q tag' = findTag s q tag' := by
  unfold stageReply
  rw [markFull_findTag]
  unfold findTag
  by_cases h : p = q
  · subst h; simp
  · simp [vget_vmod_other _ _ _ _ h]

/-- A command whose own part ends at once, leaving outstanding commands and replies alone and the sequencers running, replies in the same step, and the next state is
what its own part gave. -/
theorem runCmd_done (s : State) (sp : CmdSpec) (c : Cmd) (body : State → CmdRes) (h : Runs s sp c) (st det : Nat) (res : List Word) (s2 : State)
    (hb : body (begun s sp c) = .done st det res s2) (hc : vget s2.cmd.pairs c.pair = vget (begun s sp c).cmd.pairs c.pair)
    (hw : fwRuns s2 = true) :
    Replied s (runCmd s sp c body) sp c st det res ∧ ButReplies s2 (runCmd s sp c body) := by
  obtain ⟨o, ho, hop, -, -, -⟩ := begun_findTag s sp c h.2.1
  rw [runCmd_runs s sp c body h, hb]
  simp only [answered]
  have hst : (vget s2.cmd.pairs c.pair).staged = (vget s.cmd.pairs c.pair).staged := by rw [hc, begun_staged]
  have key : ∀ s3, ButReplies s2 s3 → findTag s3 c.pair c.tag = some o →
      (∃ before, (vget s3.cmd.pairs c.pair).staged = (vget s.cmd.pairs c.pair).staged ++ before) →
      Replied s (finishTag s3 c.pair c.tag st det res) sp c st det res ∧ ButReplies s2 (finishTag s3 c.pair c.tag st det res) := by
    intro s3 hs3 hf hbef
    obtain ⟨before, hbef⟩ := hbef
    obtain ⟨hfr, after, haf⟩ := finishTag_spec s3 c.pair c.tag st det res o hf (hs3.fwRuns ▸ hw)
    refine ⟨⟨before, after, ?_⟩, hs3.trans hfr⟩
    have hct : (finishTag s3 c.pair c.tag st det res).ct = s3.ct := by rw [hfr]
    rw [haf, hbef, hct, hop]
  by_cases hacc : (sp.async && replyAlways c && st == stOk) = true
  · simp only [hacc, if_true]
    refine key _ (stageReply_butReplies _ _ _ _ _ _ _ _) ?_ ?_
    · rw [stageReply_findTag, findTag_congr hc, ho]
    · rw [stageReply_staged, hst]; exact ⟨_, rfl⟩
  · simp only [hacc]
    refine key _ rfl ?_ ?_
    · show findTag s2 c.pair c.tag = some o
      rw [findTag_congr hc, ho]
    · exact ⟨[], by simp [hst]⟩

/-- A command whose own part goes on in the background is under way after the step. -/
theorem runCmd_started (s : State) (sp : CmdSpec) (c : Cmd) (body : State → CmdRes) (h : Runs s sp c) (s2 : State)
    (hb : body (begun s sp c) = .started s2) (hc : vget s2.cmd.pairs c.pair = vget (begun s sp c).cmd.pairs c.pair) :
    Underway (runCmd s sp c body) c ∧ ButReplies s2 (runCmd s sp c body) := by
  obtain ⟨o, ho, -, hp, hs, -⟩ := begun_findTag s sp c h.2.1
  rw [runCmd_runs s sp c body h, hb]
  simp only [accepted]
  split
  · exact ⟨⟨o, by rw [stageReply_findTag, findTag_congr hc, ho], hp, hs⟩, stageReply_butReplies _ _ _ _ _ _ _ _⟩
  · exact ⟨⟨o, by rw [findTag_congr hc, ho], hp, hs⟩, rfl⟩

end Sys2Proof.Machine
end

