-- ==== Sys2Proof/Laws/State.lean ====
section
/-! SUPPORT. What each update of the state leaves alone, one lemma for each field and update. -/

namespace Sys2Proof.Machine

open Sys2Proof

/-! ### modAxis -/
@[simp] theorem modAxis_pending (s : State) (n : Fin 6) (f : Axis → Axis) : (modAxis s n f).pending = s.pending := rfl
@[simp] theorem modAxis_ct (s : State) (n : Fin 6) (f : Axis → Axis) : (modAxis s n f).ct = s.ct := rfl
@[simp] theorem modAxis_freeCtr (s : State) (n : Fin 6) (f : Axis → Axis) : (modAxis s n f).freeCtr = s.freeCtr := rfl
@[simp] theorem modAxis_out (s : State) (n : Fin 6) (f : Axis → Axis) : (modAxis s n f).out = s.out := rfl
@[simp] theorem modAxis_glb (s : State) (n : Fin 6) (f : Axis → Axis) : (modAxis s n f).glb = s.glb := rfl
@[simp] theorem modAxis_fw (s : State) (n : Fin 6) (f : Axis → Axis) : (modAxis s n f).fw = s.fw := rfl
@[simp] theorem modAxis_bob (s : State) (n : Fin 6) (f : Axis → Axis) : (modAxis s n f).bob = s.bob := rfl
@[simp] theorem modAxis_cmd (s : State) (n : Fin 6) (f : Axis → Axis) : (modAxis s n f).cmd = s.cmd := rfl
@[simp] theorem modAxis_evt (s : State) (n : Fin 6) (f : Axis → Axis) : (modAxis s n f).evt = s.evt := rfl
@[simp] theorem modAxis_tim (s : State) (n : Fin 6) (f : Axis → Axis) : (modAxis s n f).tim = s.tim := rfl
@[simp] theorem modAxis_pdp (s : State) (n : Fin 6) (f : Axis → Axis) : (modAxis s n f).pdp = s.pdp := rfl
@[simp] theorem modAxis_ebc (s : State) (n : Fin 6) (f : Axis → Axis) : (modAxis s n f).ebc = s.ebc := rfl
@[simp] theorem modAxis_fir (s : State) (n : Fin 6) (f : Axis → Axis) : (modAxis s n f).fir = s.fir := rfl
@[simp] theorem modAxis_nhd (s : State) (n : Fin 6) (f : Axis → Axis) : (modAxis s n f).nhd = s.nhd := rfl
@[simp] theorem modAxis_hlk (s : State) (n : Fin 6) (f : Axis → Axis) : (modAxis s n f).hlk = s.hlk := rfl
@[simp] theorem modAxis_cam (s : State) (n : Fin 6) (f : Axis → Axis) : (modAxis s n f).cam = s.cam := rfl
@[simp] theorem modAxis_hkp (s : State) (n : Fin 6) (f : Axis → Axis) : (modAxis s n f).hkp = s.hkp := rfl
@[simp] theorem modAxis_lgt (s : State) (n : Fin 6) (f : Axis → Axis) : (modAxis s n f).lgt = s.lgt := rfl
@[simp] theorem modAxis_cal (s : State) (n : Fin 6) (f : Axis → Axis) : (modAxis s n f).cal = s.cal := rfl
@[simp] theorem modAxis_eth (s : State) (n : Fin 6) (f : Axis → Axis) : (modAxis s n f).eth = s.eth := rfl
@[simp] theorem modAxis_ethq (s : State) (n : Fin 6) (f : Axis → Axis) : (modAxis s n f).ethq = s.ethq := rfl
@[simp] theorem modAxis_seq (s : State) (n : Fin 6) (f : Axis → Axis) : (modAxis s n f).seq = s.seq := rfl
@[simp] theorem modAxis_ep (s : State) (n : Fin 6) (f : Axis → Axis) : (modAxis s n f).ep = s.ep := rfl
@[simp] theorem modAxis_drc (s : State) (n : Fin 6) (f : Axis → Axis) : (modAxis s n f).drc = s.drc := rfl
@[simp] theorem modAxis_drcx (s : State) (n : Fin 6) (f : Axis → Axis) : (modAxis s n f).drcx = s.drcx := rfl
@[simp] theorem modAxis_dram (s : State) (n : Fin 6) (f : Axis → Axis) : (modAxis s n f).dram = s.dram := rfl
@[simp] theorem modAxis_sram (s : State) (n : Fin 6) (f : Axis → Axis) : (modAxis s n f).sram = s.sram := rfl
@[simp] theorem modAxis_hostMem (s : State) (n : Fin 6) (f : Axis → Axis) : (modAxis s n f).hostMem = s.hostMem := rfl
@[simp] theorem modAxis_flash (s : State) (n : Fin 6) (f : Axis → Axis) : (modAxis s n f).flash = s.flash := rfl
@[simp] theorem modAxis_mot_axes (s : State) (n : Fin 6) (f : Axis → Axis) : (modAxis s n f).mot.axes = vmod s.mot.axes n f := rfl

/-! ### modCal -/
@[simp] theorem modCal_pending (s : State) (f : Cal → Cal) : (modCal s f).pending = s.pending := rfl
@[simp] theorem modCal_ct (s : State) (f : Cal → Cal) : (modCal s f).ct = s.ct := rfl
@[simp] theorem modCal_freeCtr (s : State) (f : Cal → Cal) : (modCal s f).freeCtr = s.freeCtr := rfl
@[simp] theorem modCal_out (s : State) (f : Cal → Cal) : (modCal s f).out = s.out := rfl
@[simp] theorem modCal_glb (s : State) (f : Cal → Cal) : (modCal s f).glb = s.glb := rfl
@[simp] theorem modCal_fw (s : State) (f : Cal → Cal) : (modCal s f).fw = s.fw := rfl
@[simp] theorem modCal_bob (s : State) (f : Cal → Cal) : (modCal s f).bob = s.bob := rfl
@[simp] theorem modCal_cmd (s : State) (f : Cal → Cal) : (modCal s f).cmd = s.cmd := rfl
@[simp] theorem modCal_evt (s : State) (f : Cal → Cal) : (modCal s f).evt = s.evt := rfl
@[simp] theorem modCal_tim (s : State) (f : Cal → Cal) : (modCal s f).tim = s.tim := rfl
@[simp] theorem modCal_pdp (s : State) (f : Cal → Cal) : (modCal s f).pdp = s.pdp := rfl
@[simp] theorem modCal_ebc (s : State) (f : Cal → Cal) : (modCal s f).ebc = s.ebc := rfl
@[simp] theorem modCal_fir (s : State) (f : Cal → Cal) : (modCal s f).fir = s.fir := rfl
@[simp] theorem modCal_nhd (s : State) (f : Cal → Cal) : (modCal s f).nhd = s.nhd := rfl
@[simp] theorem modCal_hlk (s : State) (f : Cal → Cal) : (modCal s f).hlk = s.hlk := rfl
@[simp] theorem modCal_cam (s : State) (f : Cal → Cal) : (modCal s f).cam = s.cam := rfl
@[simp] theorem modCal_mot (s : State) (f : Cal → Cal) : (modCal s f).mot = s.mot := rfl
@[simp] theorem modCal_hkp (s : State) (f : Cal → Cal) : (modCal s f).hkp = s.hkp := rfl
@[simp] theorem modCal_lgt (s : State) (f : Cal → Cal) : (modCal s f).lgt = s.lgt := rfl
@[simp] theorem modCal_eth (s : State) (f : Cal → Cal) : (modCal s f).eth = s.eth := rfl
@[simp] theorem modCal_ethq (s : State) (f : Cal → Cal) : (modCal s f).ethq = s.ethq := rfl
@[simp] theorem modCal_seq (s : State) (f : Cal → Cal) : (modCal s f).seq = s.seq := rfl
@[simp] theorem modCal_ep (s : State) (f : Cal → Cal) : (modCal s f).ep = s.ep := rfl
@[simp] theorem modCal_drc (s : State) (f : Cal → Cal) : (modCal s f).drc = s.drc := rfl
@[simp] theorem modCal_drcx (s : State) (f : Cal → Cal) : (modCal s f).drcx = s.drcx := rfl
@[simp] theorem modCal_dram (s : State) (f : Cal → Cal) : (modCal s f).dram = s.dram := rfl
@[simp] theorem modCal_sram (s : State) (f : Cal → Cal) : (modCal s f).sram = s.sram := rfl
@[simp] theorem modCal_hostMem (s : State) (f : Cal → Cal) : (modCal s f).hostMem = s.hostMem := rfl
@[simp] theorem modCal_flash (s : State) (f : Cal → Cal) : (modCal s f).flash = s.flash := rfl

/-! ### modIn -/
@[simp] theorem modIn_pending (s : State) (i : Fin 4) (f : CamIn → CamIn) : (modIn s i f).pending = s.pending := rfl
@[simp] theorem modIn_ct (s : State) (i : Fin 4) (f : CamIn → CamIn) : (modIn s i f).ct = s.ct := rfl
@[simp] theorem modIn_freeCtr (s : State) (i : Fin 4) (f : CamIn → CamIn) : (modIn s i f).freeCtr = s.freeCtr := rfl
@[simp] theorem modIn_out (s : State) (i : Fin 4) (f : CamIn → CamIn) : (modIn s i f).out = s.out := rfl
@[simp] theorem modIn_glb (s : State) (i : Fin 4) (f : CamIn → CamIn) : (modIn s i f).glb = s.glb := rfl
@[simp] theorem modIn_fw (s : State) (i : Fin 4) (f : CamIn → CamIn) : (modIn s i f).fw = s.fw := rfl
@[simp] theorem modIn_bob (s : State) (i : Fin 4) (f : CamIn → CamIn) : (modIn s i f).bob = s.bob := rfl
@[simp] theorem modIn_cmd (s : State) (i : Fin 4) (f : CamIn → CamIn) : (modIn s i f).cmd = s.cmd := rfl
@[simp] theorem modIn_evt (s : State) (i : Fin 4) (f : CamIn → CamIn) : (modIn s i f).evt = s.evt := rfl
@[simp] theorem modIn_tim (s : State) (i : Fin 4) (f : CamIn → CamIn) : (modIn s i f).tim = s.tim := rfl
@[simp] theorem modIn_pdp (s : State) (i : Fin 4) (f : CamIn → CamIn) : (modIn s i f).pdp = s.pdp := rfl
@[simp] theorem modIn_ebc (s : State) (i : Fin 4) (f : CamIn → CamIn) : (modIn s i f).ebc = s.ebc := rfl
@[simp] theorem modIn_fir (s : State) (i : Fin 4) (f : CamIn → CamIn) : (modIn s i f).fir = s.fir := rfl
@[simp] theorem modIn_nhd (s : State) (i : Fin 4) (f : CamIn → CamIn) : (modIn s i f).nhd = s.nhd := rfl
@[simp] theorem modIn_hlk (s : State) (i : Fin 4) (f : CamIn → CamIn) : (modIn s i f).hlk = s.hlk := rfl
@[simp] theorem modIn_mot (s : State) (i : Fin 4) (f : CamIn → CamIn) : (modIn s i f).mot = s.mot := rfl
@[simp] theorem modIn_hkp (s : State) (i : Fin 4) (f : CamIn → CamIn) : (modIn s i f).hkp = s.hkp := rfl
@[simp] theorem modIn_lgt (s : State) (i : Fin 4) (f : CamIn → CamIn) : (modIn s i f).lgt = s.lgt := rfl
@[simp] theorem modIn_cal (s : State) (i : Fin 4) (f : CamIn → CamIn) : (modIn s i f).cal = s.cal := rfl
@[simp] theorem modIn_eth (s : State) (i : Fin 4) (f : CamIn → CamIn) : (modIn s i f).eth = s.eth := rfl
@[simp] theorem modIn_ethq (s : State) (i : Fin 4) (f : CamIn → CamIn) : (modIn s i f).ethq = s.ethq := rfl
@[simp] theorem modIn_seq (s : State) (i : Fin 4) (f : CamIn → CamIn) : (modIn s i f).seq = s.seq := rfl
@[simp] theorem modIn_ep (s : State) (i : Fin 4) (f : CamIn → CamIn) : (modIn s i f).ep = s.ep := rfl
@[simp] theorem modIn_drc (s : State) (i : Fin 4) (f : CamIn → CamIn) : (modIn s i f).drc = s.drc := rfl
@[simp] theorem modIn_drcx (s : State) (i : Fin 4) (f : CamIn → CamIn) : (modIn s i f).drcx = s.drcx := rfl
@[simp] theorem modIn_dram (s : State) (i : Fin 4) (f : CamIn → CamIn) : (modIn s i f).dram = s.dram := rfl
@[simp] theorem modIn_sram (s : State) (i : Fin 4) (f : CamIn → CamIn) : (modIn s i f).sram = s.sram := rfl
@[simp] theorem modIn_hostMem (s : State) (i : Fin 4) (f : CamIn → CamIn) : (modIn s i f).hostMem = s.hostMem := rfl
@[simp] theorem modIn_flash (s : State) (i : Fin 4) (f : CamIn → CamIn) : (modIn s i f).flash = s.flash := rfl
@[simp] theorem modIn_cam_ins (s : State) (i : Fin 4) (f : CamIn → CamIn) : (modIn s i f).cam.ins = vmod s.cam.ins i f := rfl

/-! ### modCtx -/
@[simp] theorem modCtx_pending (s : State) (k : Fin 8) (f : CamCtx → CamCtx) : (modCtx s k f).pending = s.pending := rfl
@[simp] theorem modCtx_ct (s : State) (k : Fin 8) (f : CamCtx → CamCtx) : (modCtx s k f).ct = s.ct := rfl
@[simp] theorem modCtx_freeCtr (s : State) (k : Fin 8) (f : CamCtx → CamCtx) : (modCtx s k f).freeCtr = s.freeCtr := rfl
@[simp] theorem modCtx_out (s : State) (k : Fin 8) (f : CamCtx → CamCtx) : (modCtx s k f).out = s.out := rfl
@[simp] theorem modCtx_glb (s : State) (k : Fin 8) (f : CamCtx → CamCtx) : (modCtx s k f).glb = s.glb := rfl
@[simp] theorem modCtx_fw (s : State) (k : Fin 8) (f : CamCtx → CamCtx) : (modCtx s k f).fw = s.fw := rfl
@[simp] theorem modCtx_bob (s : State) (k : Fin 8) (f : CamCtx → CamCtx) : (modCtx s k f).bob = s.bob := rfl
@[simp] theorem modCtx_cmd (s : State) (k : Fin 8) (f : CamCtx → CamCtx) : (modCtx s k f).cmd = s.cmd := rfl
@[simp] theorem modCtx_evt (s : State) (k : Fin 8) (f : CamCtx → CamCtx) : (modCtx s k f).evt = s.evt := rfl
@[simp] theorem modCtx_tim (s : State) (k : Fin 8) (f : CamCtx → CamCtx) : (modCtx s k f).tim = s.tim := rfl
@[simp] theorem modCtx_pdp (s : State) (k : Fin 8) (f : CamCtx → CamCtx) : (modCtx s k f).pdp = s.pdp := rfl
@[simp] theorem modCtx_ebc (s : State) (k : Fin 8) (f : CamCtx → CamCtx) : (modCtx s k f).ebc = s.ebc := rfl
@[simp] theorem modCtx_fir (s : State) (k : Fin 8) (f : CamCtx → CamCtx) : (modCtx s k f).fir = s.fir := rfl
@[simp] theorem modCtx_nhd (s : State) (k : Fin 8) (f : CamCtx → CamCtx) : (modCtx s k f).nhd = s.nhd := rfl
@[simp] theorem modCtx_hlk (s : State) (k : Fin 8) (f : CamCtx → CamCtx) : (modCtx s k f).hlk = s.hlk := rfl
@[simp] theorem modCtx_mot (s : State) (k : Fin 8) (f : CamCtx → CamCtx) : (modCtx s k f).mot = s.mot := rfl
@[simp] theorem modCtx_hkp (s : State) (k : Fin 8) (f : CamCtx → CamCtx) : (modCtx s k f).hkp = s.hkp := rfl
@[simp] theorem modCtx_lgt (s : State) (k : Fin 8) (f : CamCtx → CamCtx) : (modCtx s k f).lgt = s.lgt := rfl
@[simp] theorem modCtx_cal (s : State) (k : Fin 8) (f : CamCtx → CamCtx) : (modCtx s k f).cal = s.cal := rfl
@[simp] theorem modCtx_eth (s : State) (k : Fin 8) (f : CamCtx → CamCtx) : (modCtx s k f).eth = s.eth := rfl
@[simp] theorem modCtx_ethq (s : State) (k : Fin 8) (f : CamCtx → CamCtx) : (modCtx s k f).ethq = s.ethq := rfl
@[simp] theorem modCtx_seq (s : State) (k : Fin 8) (f : CamCtx → CamCtx) : (modCtx s k f).seq = s.seq := rfl
@[simp] theorem modCtx_ep (s : State) (k : Fin 8) (f : CamCtx → CamCtx) : (modCtx s k f).ep = s.ep := rfl
@[simp] theorem modCtx_drc (s : State) (k : Fin 8) (f : CamCtx → CamCtx) : (modCtx s k f).drc = s.drc := rfl
@[simp] theorem modCtx_drcx (s : State) (k : Fin 8) (f : CamCtx → CamCtx) : (modCtx s k f).drcx = s.drcx := rfl
@[simp] theorem modCtx_dram (s : State) (k : Fin 8) (f : CamCtx → CamCtx) : (modCtx s k f).dram = s.dram := rfl
@[simp] theorem modCtx_sram (s : State) (k : Fin 8) (f : CamCtx → CamCtx) : (modCtx s k f).sram = s.sram := rfl
@[simp] theorem modCtx_hostMem (s : State) (k : Fin 8) (f : CamCtx → CamCtx) : (modCtx s k f).hostMem = s.hostMem := rfl
@[simp] theorem modCtx_flash (s : State) (k : Fin 8) (f : CamCtx → CamCtx) : (modCtx s k f).flash = s.flash := rfl
@[simp] theorem modCtx_cam_ctxs (s : State) (k : Fin 8) (f : CamCtx → CamCtx) : (modCtx s k f).cam.ctxs = vmod s.cam.ctxs k f := rfl

/-! ### modRun -/
@[simp] theorem modRun_pending (s : State) (f : SwatchRun → SwatchRun) : (modRun s f).pending = s.pending := rfl
@[simp] theorem modRun_ct (s : State) (f : SwatchRun → SwatchRun) : (modRun s f).ct = s.ct := rfl
@[simp] theorem modRun_freeCtr (s : State) (f : SwatchRun → SwatchRun) : (modRun s f).freeCtr = s.freeCtr := rfl
@[simp] theorem modRun_out (s : State) (f : SwatchRun → SwatchRun) : (modRun s f).out = s.out := rfl
@[simp] theorem modRun_glb (s : State) (f : SwatchRun → SwatchRun) : (modRun s f).glb = s.glb := rfl
@[simp] theorem modRun_fw (s : State) (f : SwatchRun → SwatchRun) : (modRun s f).fw = s.fw := rfl
@[simp] theorem modRun_bob (s : State) (f : SwatchRun → SwatchRun) : (modRun s f).bob = s.bob := rfl
@[simp] theorem modRun_cmd (s : State) (f : SwatchRun → SwatchRun) : (modRun s f).cmd = s.cmd := rfl
@[simp] theorem modRun_evt (s : State) (f : SwatchRun → SwatchRun) : (modRun s f).evt = s.evt := rfl
@[simp] theorem modRun_tim (s : State) (f : SwatchRun → SwatchRun) : (modRun s f).tim = s.tim := rfl
@[simp] theorem modRun_pdp (s : State) (f : SwatchRun → SwatchRun) : (modRun s f).pdp = s.pdp := rfl
@[simp] theorem modRun_ebc (s : State) (f : SwatchRun → SwatchRun) : (modRun s f).ebc = s.ebc := rfl
@[simp] theorem modRun_fir (s : State) (f : SwatchRun → SwatchRun) : (modRun s f).fir = s.fir := rfl
@[simp] theorem modRun_hlk (s : State) (f : SwatchRun → SwatchRun) : (modRun s f).hlk = s.hlk := rfl
@[simp] theorem modRun_cam (s : State) (f : SwatchRun → SwatchRun) : (modRun s f).cam = s.cam := rfl
@[simp] theorem modRun_mot (s : State) (f : SwatchRun → SwatchRun) : (modRun s f).mot = s.mot := rfl
@[simp] theorem modRun_hkp (s : State) (f : SwatchRun → SwatchRun) : (modRun s f).hkp = s.hkp := rfl
@[simp] theorem modRun_lgt (s : State) (f : SwatchRun → SwatchRun) : (modRun s f).lgt = s.lgt := rfl
@[simp] theorem modRun_cal (s : State) (f : SwatchRun → SwatchRun) : (modRun s f).cal = s.cal := rfl
@[simp] theorem modRun_eth (s : State) (f : SwatchRun → SwatchRun) : (modRun s f).eth = s.eth := rfl
@[simp] theorem modRun_ethq (s : State) (f : SwatchRun → SwatchRun) : (modRun s f).ethq = s.ethq := rfl
@[simp] theorem modRun_seq (s : State) (f : SwatchRun → SwatchRun) : (modRun s f).seq = s.seq := rfl
@[simp] theorem modRun_ep (s : State) (f : SwatchRun → SwatchRun) : (modRun s f).ep = s.ep := rfl
@[simp] theorem modRun_drc (s : State) (f : SwatchRun → SwatchRun) : (modRun s f).drc = s.drc := rfl
@[simp] theorem modRun_drcx (s : State) (f : SwatchRun → SwatchRun) : (modRun s f).drcx = s.drcx := rfl
@[simp] theorem modRun_dram (s : State) (f : SwatchRun → SwatchRun) : (modRun s f).dram = s.dram := rfl
@[simp] theorem modRun_sram (s : State) (f : SwatchRun → SwatchRun) : (modRun s f).sram = s.sram := rfl
@[simp] theorem modRun_hostMem (s : State) (f : SwatchRun → SwatchRun) : (modRun s f).hostMem = s.hostMem := rfl
@[simp] theorem modRun_flash (s : State) (f : SwatchRun → SwatchRun) : (modRun s f).flash = s.flash := rfl

/-! ### modEng -/
@[simp] theorem modEng_pending (s : State) (e : Fin 4) (f : EbcEngine → EbcEngine) : (modEng s e f).pending = s.pending := rfl
@[simp] theorem modEng_ct (s : State) (e : Fin 4) (f : EbcEngine → EbcEngine) : (modEng s e f).ct = s.ct := rfl
@[simp] theorem modEng_freeCtr (s : State) (e : Fin 4) (f : EbcEngine → EbcEngine) : (modEng s e f).freeCtr = s.freeCtr := rfl
@[simp] theorem modEng_out (s : State) (e : Fin 4) (f : EbcEngine → EbcEngine) : (modEng s e f).out = s.out := rfl
@[simp] theorem modEng_glb (s : State) (e : Fin 4) (f : EbcEngine → EbcEngine) : (modEng s e f).glb = s.glb := rfl
@[simp] theorem modEng_fw (s : State) (e : Fin 4) (f : EbcEngine → EbcEngine) : (modEng s e f).fw = s.fw := rfl
@[simp] theorem modEng_bob (s : State) (e : Fin 4) (f : EbcEngine → EbcEngine) : (modEng s e f).bob = s.bob := rfl
@[simp] theorem modEng_cmd (s : State) (e : Fin 4) (f : EbcEngine → EbcEngine) : (modEng s e f).cmd = s.cmd := rfl
@[simp] theorem modEng_evt (s : State) (e : Fin 4) (f : EbcEngine → EbcEngine) : (modEng s e f).evt = s.evt := rfl
@[simp] theorem modEng_tim (s : State) (e : Fin 4) (f : EbcEngine → EbcEngine) : (modEng s e f).tim = s.tim := rfl
@[simp] theorem modEng_pdp (s : State) (e : Fin 4) (f : EbcEngine → EbcEngine) : (modEng s e f).pdp = s.pdp := rfl
@[simp] theorem modEng_fir (s : State) (e : Fin 4) (f : EbcEngine → EbcEngine) : (modEng s e f).fir = s.fir := rfl
@[simp] theorem modEng_nhd (s : State) (e : Fin 4) (f : EbcEngine → EbcEngine) : (modEng s e f).nhd = s.nhd := rfl
@[simp] theorem modEng_hlk (s : State) (e : Fin 4) (f : EbcEngine → EbcEngine) : (modEng s e f).hlk = s.hlk := rfl
@[simp] theorem modEng_cam (s : State) (e : Fin 4) (f : EbcEngine → EbcEngine) : (modEng s e f).cam = s.cam := rfl
@[simp] theorem modEng_mot (s : State) (e : Fin 4) (f : EbcEngine → EbcEngine) : (modEng s e f).mot = s.mot := rfl
@[simp] theorem modEng_hkp (s : State) (e : Fin 4) (f : EbcEngine → EbcEngine) : (modEng s e f).hkp = s.hkp := rfl
@[simp] theorem modEng_lgt (s : State) (e : Fin 4) (f : EbcEngine → EbcEngine) : (modEng s e f).lgt = s.lgt := rfl
@[simp] theorem modEng_cal (s : State) (e : Fin 4) (f : EbcEngine → EbcEngine) : (modEng s e f).cal = s.cal := rfl
@[simp] theorem modEng_eth (s : State) (e : Fin 4) (f : EbcEngine → EbcEngine) : (modEng s e f).eth = s.eth := rfl
@[simp] theorem modEng_ethq (s : State) (e : Fin 4) (f : EbcEngine → EbcEngine) : (modEng s e f).ethq = s.ethq := rfl
@[simp] theorem modEng_seq (s : State) (e : Fin 4) (f : EbcEngine → EbcEngine) : (modEng s e f).seq = s.seq := rfl
@[simp] theorem modEng_ep (s : State) (e : Fin 4) (f : EbcEngine → EbcEngine) : (modEng s e f).ep = s.ep := rfl
@[simp] theorem modEng_drc (s : State) (e : Fin 4) (f : EbcEngine → EbcEngine) : (modEng s e f).drc = s.drc := rfl
@[simp] theorem modEng_drcx (s : State) (e : Fin 4) (f : EbcEngine → EbcEngine) : (modEng s e f).drcx = s.drcx := rfl
@[simp] theorem modEng_dram (s : State) (e : Fin 4) (f : EbcEngine → EbcEngine) : (modEng s e f).dram = s.dram := rfl
@[simp] theorem modEng_sram (s : State) (e : Fin 4) (f : EbcEngine → EbcEngine) : (modEng s e f).sram = s.sram := rfl
@[simp] theorem modEng_hostMem (s : State) (e : Fin 4) (f : EbcEngine → EbcEngine) : (modEng s e f).hostMem = s.hostMem := rfl
@[simp] theorem modEng_flash (s : State) (e : Fin 4) (f : EbcEngine → EbcEngine) : (modEng s e f).flash = s.flash := rfl

/-! ### modFir -/
@[simp] theorem modFir_pending (s : State) (f : Fir → Fir) : (modFir s f).pending = s.pending := rfl
@[simp] theorem modFir_ct (s : State) (f : Fir → Fir) : (modFir s f).ct = s.ct := rfl
@[simp] theorem modFir_freeCtr (s : State) (f : Fir → Fir) : (modFir s f).freeCtr = s.freeCtr := rfl
@[simp] theorem modFir_out (s : State) (f : Fir → Fir) : (modFir s f).out = s.out := rfl
@[simp] theorem modFir_glb (s : State) (f : Fir → Fir) : (modFir s f).glb = s.glb := rfl
@[simp] theorem modFir_fw (s : State) (f : Fir → Fir) : (modFir s f).fw = s.fw := rfl
@[simp] theorem modFir_bob (s : State) (f : Fir → Fir) : (modFir s f).bob = s.bob := rfl
@[simp] theorem modFir_cmd (s : State) (f : Fir → Fir) : (modFir s f).cmd = s.cmd := rfl
@[simp] theorem modFir_evt (s : State) (f : Fir → Fir) : (modFir s f).evt = s.evt := rfl
@[simp] theorem modFir_tim (s : State) (f : Fir → Fir) : (modFir s f).tim = s.tim := rfl
@[simp] theorem modFir_pdp (s : State) (f : Fir → Fir) : (modFir s f).pdp = s.pdp := rfl
@[simp] theorem modFir_ebc (s : State) (f : Fir → Fir) : (modFir s f).ebc = s.ebc := rfl
@[simp] theorem modFir_nhd (s : State) (f : Fir → Fir) : (modFir s f).nhd = s.nhd := rfl
@[simp] theorem modFir_hlk (s : State) (f : Fir → Fir) : (modFir s f).hlk = s.hlk := rfl
@[simp] theorem modFir_cam (s : State) (f : Fir → Fir) : (modFir s f).cam = s.cam := rfl
@[simp] theorem modFir_mot (s : State) (f : Fir → Fir) : (modFir s f).mot = s.mot := rfl
@[simp] theorem modFir_hkp (s : State) (f : Fir → Fir) : (modFir s f).hkp = s.hkp := rfl
@[simp] theorem modFir_lgt (s : State) (f : Fir → Fir) : (modFir s f).lgt = s.lgt := rfl
@[simp] theorem modFir_cal (s : State) (f : Fir → Fir) : (modFir s f).cal = s.cal := rfl
@[simp] theorem modFir_eth (s : State) (f : Fir → Fir) : (modFir s f).eth = s.eth := rfl
@[simp] theorem modFir_ethq (s : State) (f : Fir → Fir) : (modFir s f).ethq = s.ethq := rfl
@[simp] theorem modFir_seq (s : State) (f : Fir → Fir) : (modFir s f).seq = s.seq := rfl
@[simp] theorem modFir_ep (s : State) (f : Fir → Fir) : (modFir s f).ep = s.ep := rfl
@[simp] theorem modFir_drc (s : State) (f : Fir → Fir) : (modFir s f).drc = s.drc := rfl
@[simp] theorem modFir_drcx (s : State) (f : Fir → Fir) : (modFir s f).drcx = s.drcx := rfl
@[simp] theorem modFir_dram (s : State) (f : Fir → Fir) : (modFir s f).dram = s.dram := rfl
@[simp] theorem modFir_sram (s : State) (f : Fir → Fir) : (modFir s f).sram = s.sram := rfl
@[simp] theorem modFir_hostMem (s : State) (f : Fir → Fir) : (modFir s f).hostMem = s.hostMem := rfl
@[simp] theorem modFir_flash (s : State) (f : Fir → Fir) : (modFir s f).flash = s.flash := rfl

/-! ### modGate -/
@[simp] theorem modGate_pending (s : State) (g : Fin 2) (f : Gate → Gate) : (modGate s g f).pending = s.pending := rfl
@[simp] theorem modGate_ct (s : State) (g : Fin 2) (f : Gate → Gate) : (modGate s g f).ct = s.ct := rfl
@[simp] theorem modGate_freeCtr (s : State) (g : Fin 2) (f : Gate → Gate) : (modGate s g f).freeCtr = s.freeCtr := rfl
@[simp] theorem modGate_out (s : State) (g : Fin 2) (f : Gate → Gate) : (modGate s g f).out = s.out := rfl
@[simp] theorem modGate_glb (s : State) (g : Fin 2) (f : Gate → Gate) : (modGate s g f).glb = s.glb := rfl
@[simp] theorem modGate_fw (s : State) (g : Fin 2) (f : Gate → Gate) : (modGate s g f).fw = s.fw := rfl
@[simp] theorem modGate_bob (s : State) (g : Fin 2) (f : Gate → Gate) : (modGate s g f).bob = s.bob := rfl
@[simp] theorem modGate_cmd (s : State) (g : Fin 2) (f : Gate → Gate) : (modGate s g f).cmd = s.cmd := rfl
@[simp] theorem modGate_evt (s : State) (g : Fin 2) (f : Gate → Gate) : (modGate s g f).evt = s.evt := rfl
@[simp] theorem modGate_tim (s : State) (g : Fin 2) (f : Gate → Gate) : (modGate s g f).tim = s.tim := rfl
@[simp] theorem modGate_pdp (s : State) (g : Fin 2) (f : Gate → Gate) : (modGate s g f).pdp = s.pdp := rfl
@[simp] theorem modGate_ebc (s : State) (g : Fin 2) (f : Gate → Gate) : (modGate s g f).ebc = s.ebc := rfl
@[simp] theorem modGate_fir (s : State) (g : Fin 2) (f : Gate → Gate) : (modGate s g f).fir = s.fir := rfl
@[simp] theorem modGate_hlk (s : State) (g : Fin 2) (f : Gate → Gate) : (modGate s g f).hlk = s.hlk := rfl
@[simp] theorem modGate_cam (s : State) (g : Fin 2) (f : Gate → Gate) : (modGate s g f).cam = s.cam := rfl
@[simp] theorem modGate_mot (s : State) (g : Fin 2) (f : Gate → Gate) : (modGate s g f).mot = s.mot := rfl
@[simp] theorem modGate_hkp (s : State) (g : Fin 2) (f : Gate → Gate) : (modGate s g f).hkp = s.hkp := rfl
@[simp] theorem modGate_lgt (s : State) (g : Fin 2) (f : Gate → Gate) : (modGate s g f).lgt = s.lgt := rfl
@[simp] theorem modGate_cal (s : State) (g : Fin 2) (f : Gate → Gate) : (modGate s g f).cal = s.cal := rfl
@[simp] theorem modGate_eth (s : State) (g : Fin 2) (f : Gate → Gate) : (modGate s g f).eth = s.eth := rfl
@[simp] theorem modGate_ethq (s : State) (g : Fin 2) (f : Gate → Gate) : (modGate s g f).ethq = s.ethq := rfl
@[simp] theorem modGate_seq (s : State) (g : Fin 2) (f : Gate → Gate) : (modGate s g f).seq = s.seq := rfl
@[simp] theorem modGate_ep (s : State) (g : Fin 2) (f : Gate → Gate) : (modGate s g f).ep = s.ep := rfl
@[simp] theorem modGate_drc (s : State) (g : Fin 2) (f : Gate → Gate) : (modGate s g f).drc = s.drc := rfl
@[simp] theorem modGate_drcx (s : State) (g : Fin 2) (f : Gate → Gate) : (modGate s g f).drcx = s.drcx := rfl
@[simp] theorem modGate_dram (s : State) (g : Fin 2) (f : Gate → Gate) : (modGate s g f).dram = s.dram := rfl
@[simp] theorem modGate_sram (s : State) (g : Fin 2) (f : Gate → Gate) : (modGate s g f).sram = s.sram := rfl
@[simp] theorem modGate_hostMem (s : State) (g : Fin 2) (f : Gate → Gate) : (modGate s g f).hostMem = s.hostMem := rfl
@[simp] theorem modGate_flash (s : State) (g : Fin 2) (f : Gate → Gate) : (modGate s g f).flash = s.flash := rfl

/-! ### modHkp -/
@[simp] theorem modHkp_pending (s : State) (f : Hkp → Hkp) : (modHkp s f).pending = s.pending := rfl
@[simp] theorem modHkp_ct (s : State) (f : Hkp → Hkp) : (modHkp s f).ct = s.ct := rfl
@[simp] theorem modHkp_freeCtr (s : State) (f : Hkp → Hkp) : (modHkp s f).freeCtr = s.freeCtr := rfl
@[simp] theorem modHkp_out (s : State) (f : Hkp → Hkp) : (modHkp s f).out = s.out := rfl
@[simp] theorem modHkp_glb (s : State) (f : Hkp → Hkp) : (modHkp s f).glb = s.glb := rfl
@[simp] theorem modHkp_fw (s : State) (f : Hkp → Hkp) : (modHkp s f).fw = s.fw := rfl
@[simp] theorem modHkp_bob (s : State) (f : Hkp → Hkp) : (modHkp s f).bob = s.bob := rfl
@[simp] theorem modHkp_cmd (s : State) (f : Hkp → Hkp) : (modHkp s f).cmd = s.cmd := rfl
@[simp] theorem modHkp_evt (s : State) (f : Hkp → Hkp) : (modHkp s f).evt = s.evt := rfl
@[simp] theorem modHkp_tim (s : State) (f : Hkp → Hkp) : (modHkp s f).tim = s.tim := rfl
@[simp] theorem modHkp_pdp (s : State) (f : Hkp → Hkp) : (modHkp s f).pdp = s.pdp := rfl
@[simp] theorem modHkp_ebc (s : State) (f : Hkp → Hkp) : (modHkp s f).ebc = s.ebc := rfl
@[simp] theorem modHkp_fir (s : State) (f : Hkp → Hkp) : (modHkp s f).fir = s.fir := rfl
@[simp] theorem modHkp_nhd (s : State) (f : Hkp → Hkp) : (modHkp s f).nhd = s.nhd := rfl
@[simp] theorem modHkp_hlk (s : State) (f : Hkp → Hkp) : (modHkp s f).hlk = s.hlk := rfl
@[simp] theorem modHkp_cam (s : State) (f : Hkp → Hkp) : (modHkp s f).cam = s.cam := rfl
@[simp] theorem modHkp_mot (s : State) (f : Hkp → Hkp) : (modHkp s f).mot = s.mot := rfl
@[simp] theorem modHkp_lgt (s : State) (f : Hkp → Hkp) : (modHkp s f).lgt = s.lgt := rfl
@[simp] theorem modHkp_cal (s : State) (f : Hkp → Hkp) : (modHkp s f).cal = s.cal := rfl
@[simp] theorem modHkp_eth (s : State) (f : Hkp → Hkp) : (modHkp s f).eth = s.eth := rfl
@[simp] theorem modHkp_ethq (s : State) (f : Hkp → Hkp) : (modHkp s f).ethq = s.ethq := rfl
@[simp] theorem modHkp_seq (s : State) (f : Hkp → Hkp) : (modHkp s f).seq = s.seq := rfl
@[simp] theorem modHkp_ep (s : State) (f : Hkp → Hkp) : (modHkp s f).ep = s.ep := rfl
@[simp] theorem modHkp_drc (s : State) (f : Hkp → Hkp) : (modHkp s f).drc = s.drc := rfl
@[simp] theorem modHkp_drcx (s : State) (f : Hkp → Hkp) : (modHkp s f).drcx = s.drcx := rfl
@[simp] theorem modHkp_dram (s : State) (f : Hkp → Hkp) : (modHkp s f).dram = s.dram := rfl
@[simp] theorem modHkp_sram (s : State) (f : Hkp → Hkp) : (modHkp s f).sram = s.sram := rfl
@[simp] theorem modHkp_hostMem (s : State) (f : Hkp → Hkp) : (modHkp s f).hostMem = s.hostMem := rfl
@[simp] theorem modHkp_flash (s : State) (f : Hkp → Hkp) : (modHkp s f).flash = s.flash := rfl

/-! ### modRail -/
@[simp] theorem modRail_pending (s : State) (m : Fin 16) (f : Rail → Rail) : (modRail s m f).pending = s.pending := rfl
@[simp] theorem modRail_ct (s : State) (m : Fin 16) (f : Rail → Rail) : (modRail s m f).ct = s.ct := rfl
@[simp] theorem modRail_freeCtr (s : State) (m : Fin 16) (f : Rail → Rail) : (modRail s m f).freeCtr = s.freeCtr := rfl
@[simp] theorem modRail_out (s : State) (m : Fin 16) (f : Rail → Rail) : (modRail s m f).out = s.out := rfl
@[simp] theorem modRail_glb (s : State) (m : Fin 16) (f : Rail → Rail) : (modRail s m f).glb = s.glb := rfl
@[simp] theorem modRail_fw (s : State) (m : Fin 16) (f : Rail → Rail) : (modRail s m f).fw = s.fw := rfl
@[simp] theorem modRail_bob (s : State) (m : Fin 16) (f : Rail → Rail) : (modRail s m f).bob = s.bob := rfl
@[simp] theorem modRail_cmd (s : State) (m : Fin 16) (f : Rail → Rail) : (modRail s m f).cmd = s.cmd := rfl
@[simp] theorem modRail_evt (s : State) (m : Fin 16) (f : Rail → Rail) : (modRail s m f).evt = s.evt := rfl
@[simp] theorem modRail_tim (s : State) (m : Fin 16) (f : Rail → Rail) : (modRail s m f).tim = s.tim := rfl
@[simp] theorem modRail_pdp (s : State) (m : Fin 16) (f : Rail → Rail) : (modRail s m f).pdp = s.pdp := rfl
@[simp] theorem modRail_ebc (s : State) (m : Fin 16) (f : Rail → Rail) : (modRail s m f).ebc = s.ebc := rfl
@[simp] theorem modRail_fir (s : State) (m : Fin 16) (f : Rail → Rail) : (modRail s m f).fir = s.fir := rfl
@[simp] theorem modRail_nhd (s : State) (m : Fin 16) (f : Rail → Rail) : (modRail s m f).nhd = s.nhd := rfl
@[simp] theorem modRail_hlk (s : State) (m : Fin 16) (f : Rail → Rail) : (modRail s m f).hlk = s.hlk := rfl
@[simp] theorem modRail_cam (s : State) (m : Fin 16) (f : Rail → Rail) : (modRail s m f).cam = s.cam := rfl
@[simp] theorem modRail_mot (s : State) (m : Fin 16) (f : Rail → Rail) : (modRail s m f).mot = s.mot := rfl
@[simp] theorem modRail_lgt (s : State) (m : Fin 16) (f : Rail → Rail) : (modRail s m f).lgt = s.lgt := rfl
@[simp] theorem modRail_cal (s : State) (m : Fin 16) (f : Rail → Rail) : (modRail s m f).cal = s.cal := rfl
@[simp] theorem modRail_eth (s : State) (m : Fin 16) (f : Rail → Rail) : (modRail s m f).eth = s.eth := rfl
@[simp] theorem modRail_ethq (s : State) (m : Fin 16) (f : Rail → Rail) : (modRail s m f).ethq = s.ethq := rfl
@[simp] theorem modRail_seq (s : State) (m : Fin 16) (f : Rail → Rail) : (modRail s m f).seq = s.seq := rfl
@[simp] theorem modRail_ep (s : State) (m : Fin 16) (f : Rail → Rail) : (modRail s m f).ep = s.ep := rfl
@[simp] theorem modRail_drc (s : State) (m : Fin 16) (f : Rail → Rail) : (modRail s m f).drc = s.drc := rfl
@[simp] theorem modRail_drcx (s : State) (m : Fin 16) (f : Rail → Rail) : (modRail s m f).drcx = s.drcx := rfl
@[simp] theorem modRail_dram (s : State) (m : Fin 16) (f : Rail → Rail) : (modRail s m f).dram = s.dram := rfl
@[simp] theorem modRail_sram (s : State) (m : Fin 16) (f : Rail → Rail) : (modRail s m f).sram = s.sram := rfl
@[simp] theorem modRail_hostMem (s : State) (m : Fin 16) (f : Rail → Rail) : (modRail s m f).hostMem = s.hostMem := rfl
@[simp] theorem modRail_flash (s : State) (m : Fin 16) (f : Rail → Rail) : (modRail s m f).flash = s.flash := rfl

/-! ### modSink -/
@[simp] theorem modSink_pending (s : State) (k : Fin 8) (f : Sink → Sink) : (modSink s k f).pending = s.pending := rfl
@[simp] theorem modSink_ct (s : State) (k : Fin 8) (f : Sink → Sink) : (modSink s k f).ct = s.ct := rfl
@[simp] theorem modSink_freeCtr (s : State) (k : Fin 8) (f : Sink → Sink) : (modSink s k f).freeCtr = s.freeCtr := rfl
@[simp] theorem modSink_out (s : State) (k : Fin 8) (f : Sink → Sink) : (modSink s k f).out = s.out := rfl
@[simp] theorem modSink_glb (s : State) (k : Fin 8) (f : Sink → Sink) : (modSink s k f).glb = s.glb := rfl
@[simp] theorem modSink_fw (s : State) (k : Fin 8) (f : Sink → Sink) : (modSink s k f).fw = s.fw := rfl
@[simp] theorem modSink_bob (s : State) (k : Fin 8) (f : Sink → Sink) : (modSink s k f).bob = s.bob := rfl
@[simp] theorem modSink_cmd (s : State) (k : Fin 8) (f : Sink → Sink) : (modSink s k f).cmd = s.cmd := rfl
@[simp] theorem modSink_evt (s : State) (k : Fin 8) (f : Sink → Sink) : (modSink s k f).evt = s.evt := rfl
@[simp] theorem modSink_tim (s : State) (k : Fin 8) (f : Sink → Sink) : (modSink s k f).tim = s.tim := rfl
@[simp] theorem modSink_pdp (s : State) (k : Fin 8) (f : Sink → Sink) : (modSink s k f).pdp = s.pdp := rfl
@[simp] theorem modSink_ebc (s : State) (k : Fin 8) (f : Sink → Sink) : (modSink s k f).ebc = s.ebc := rfl
@[simp] theorem modSink_fir (s : State) (k : Fin 8) (f : Sink → Sink) : (modSink s k f).fir = s.fir := rfl
@[simp] theorem modSink_nhd (s : State) (k : Fin 8) (f : Sink → Sink) : (modSink s k f).nhd = s.nhd := rfl
@[simp] theorem modSink_hlk (s : State) (k : Fin 8) (f : Sink → Sink) : (modSink s k f).hlk = s.hlk := rfl
@[simp] theorem modSink_cam (s : State) (k : Fin 8) (f : Sink → Sink) : (modSink s k f).cam = s.cam := rfl
@[simp] theorem modSink_mot (s : State) (k : Fin 8) (f : Sink → Sink) : (modSink s k f).mot = s.mot := rfl
@[simp] theorem modSink_hkp (s : State) (k : Fin 8) (f : Sink → Sink) : (modSink s k f).hkp = s.hkp := rfl
@[simp] theorem modSink_cal (s : State) (k : Fin 8) (f : Sink → Sink) : (modSink s k f).cal = s.cal := rfl
@[simp] theorem modSink_eth (s : State) (k : Fin 8) (f : Sink → Sink) : (modSink s k f).eth = s.eth := rfl
@[simp] theorem modSink_ethq (s : State) (k : Fin 8) (f : Sink → Sink) : (modSink s k f).ethq = s.ethq := rfl
@[simp] theorem modSink_seq (s : State) (k : Fin 8) (f : Sink → Sink) : (modSink s k f).seq = s.seq := rfl
@[simp] theorem modSink_ep (s : State) (k : Fin 8) (f : Sink → Sink) : (modSink s k f).ep = s.ep := rfl
@[simp] theorem modSink_drc (s : State) (k : Fin 8) (f : Sink → Sink) : (modSink s k f).drc = s.drc := rfl
@[simp] theorem modSink_drcx (s : State) (k : Fin 8) (f : Sink → Sink) : (modSink s k f).drcx = s.drcx := rfl
@[simp] theorem modSink_dram (s : State) (k : Fin 8) (f : Sink → Sink) : (modSink s k f).dram = s.dram := rfl
@[simp] theorem modSink_sram (s : State) (k : Fin 8) (f : Sink → Sink) : (modSink s k f).sram = s.sram := rfl
@[simp] theorem modSink_hostMem (s : State) (k : Fin 8) (f : Sink → Sink) : (modSink s k f).hostMem = s.hostMem := rfl
@[simp] theorem modSink_flash (s : State) (k : Fin 8) (f : Sink → Sink) : (modSink s k f).flash = s.flash := rfl
@[simp] theorem modSink_lgt_sinks (s : State) (k : Fin 8) (f : Sink → Sink) : (modSink s k f).lgt.sinks = vmod s.lgt.sinks k f := rfl

/-! ### modChain -/
@[simp] theorem modChain_pending (s : State) (c : Fin 4) (f : Chain → Chain) : (modChain s c f).pending = s.pending := rfl
@[simp] theorem modChain_ct (s : State) (c : Fin 4) (f : Chain → Chain) : (modChain s c f).ct = s.ct := rfl
@[simp] theorem modChain_freeCtr (s : State) (c : Fin 4) (f : Chain → Chain) : (modChain s c f).freeCtr = s.freeCtr := rfl
@[simp] theorem modChain_out (s : State) (c : Fin 4) (f : Chain → Chain) : (modChain s c f).out = s.out := rfl
@[simp] theorem modChain_glb (s : State) (c : Fin 4) (f : Chain → Chain) : (modChain s c f).glb = s.glb := rfl
@[simp] theorem modChain_fw (s : State) (c : Fin 4) (f : Chain → Chain) : (modChain s c f).fw = s.fw := rfl
@[simp] theorem modChain_bob (s : State) (c : Fin 4) (f : Chain → Chain) : (modChain s c f).bob = s.bob := rfl
@[simp] theorem modChain_cmd (s : State) (c : Fin 4) (f : Chain → Chain) : (modChain s c f).cmd = s.cmd := rfl
@[simp] theorem modChain_evt (s : State) (c : Fin 4) (f : Chain → Chain) : (modChain s c f).evt = s.evt := rfl
@[simp] theorem modChain_tim (s : State) (c : Fin 4) (f : Chain → Chain) : (modChain s c f).tim = s.tim := rfl
@[simp] theorem modChain_pdp (s : State) (c : Fin 4) (f : Chain → Chain) : (modChain s c f).pdp = s.pdp := rfl
@[simp] theorem modChain_ebc (s : State) (c : Fin 4) (f : Chain → Chain) : (modChain s c f).ebc = s.ebc := rfl
@[simp] theorem modChain_fir (s : State) (c : Fin 4) (f : Chain → Chain) : (modChain s c f).fir = s.fir := rfl
@[simp] theorem modChain_nhd (s : State) (c : Fin 4) (f : Chain → Chain) : (modChain s c f).nhd = s.nhd := rfl
@[simp] theorem modChain_hlk (s : State) (c : Fin 4) (f : Chain → Chain) : (modChain s c f).hlk = s.hlk := rfl
@[simp] theorem modChain_cam (s : State) (c : Fin 4) (f : Chain → Chain) : (modChain s c f).cam = s.cam := rfl
@[simp] theorem modChain_mot (s : State) (c : Fin 4) (f : Chain → Chain) : (modChain s c f).mot = s.mot := rfl
@[simp] theorem modChain_hkp (s : State) (c : Fin 4) (f : Chain → Chain) : (modChain s c f).hkp = s.hkp := rfl
@[simp] theorem modChain_cal (s : State) (c : Fin 4) (f : Chain → Chain) : (modChain s c f).cal = s.cal := rfl
@[simp] theorem modChain_eth (s : State) (c : Fin 4) (f : Chain → Chain) : (modChain s c f).eth = s.eth := rfl
@[simp] theorem modChain_ethq (s : State) (c : Fin 4) (f : Chain → Chain) : (modChain s c f).ethq = s.ethq := rfl
@[simp] theorem modChain_seq (s : State) (c : Fin 4) (f : Chain → Chain) : (modChain s c f).seq = s.seq := rfl
@[simp] theorem modChain_ep (s : State) (c : Fin 4) (f : Chain → Chain) : (modChain s c f).ep = s.ep := rfl
@[simp] theorem modChain_drc (s : State) (c : Fin 4) (f : Chain → Chain) : (modChain s c f).drc = s.drc := rfl
@[simp] theorem modChain_drcx (s : State) (c : Fin 4) (f : Chain → Chain) : (modChain s c f).drcx = s.drcx := rfl
@[simp] theorem modChain_dram (s : State) (c : Fin 4) (f : Chain → Chain) : (modChain s c f).dram = s.dram := rfl
@[simp] theorem modChain_sram (s : State) (c : Fin 4) (f : Chain → Chain) : (modChain s c f).sram = s.sram := rfl
@[simp] theorem modChain_hostMem (s : State) (c : Fin 4) (f : Chain → Chain) : (modChain s c f).hostMem = s.hostMem := rfl
@[simp] theorem modChain_flash (s : State) (c : Fin 4) (f : Chain → Chain) : (modChain s c f).flash = s.flash := rfl
@[simp] theorem modChain_lgt_chains (s : State) (c : Fin 4) (f : Chain → Chain) : (modChain s c f).lgt.chains = vmod s.lgt.chains c f := rfl

/-! ### modNhd -/
@[simp] theorem modNhd_pending (s : State) (f : Nhd → Nhd) : (modNhd s f).pending = s.pending := rfl
@[simp] theorem modNhd_ct (s : State) (f : Nhd → Nhd) : (modNhd s f).ct = s.ct := rfl
@[simp] theorem modNhd_freeCtr (s : State) (f : Nhd → Nhd) : (modNhd s f).freeCtr = s.freeCtr := rfl
@[simp] theorem modNhd_out (s : State) (f : Nhd → Nhd) : (modNhd s f).out = s.out := rfl
@[simp] theorem modNhd_glb (s : State) (f : Nhd → Nhd) : (modNhd s f).glb = s.glb := rfl
@[simp] theorem modNhd_fw (s : State) (f : Nhd → Nhd) : (modNhd s f).fw = s.fw := rfl
@[simp] theorem modNhd_bob (s : State) (f : Nhd → Nhd) : (modNhd s f).bob = s.bob := rfl
@[simp] theorem modNhd_cmd (s : State) (f : Nhd → Nhd) : (modNhd s f).cmd = s.cmd := rfl
@[simp] theorem modNhd_evt (s : State) (f : Nhd → Nhd) : (modNhd s f).evt = s.evt := rfl
@[simp] theorem modNhd_tim (s : State) (f : Nhd → Nhd) : (modNhd s f).tim = s.tim := rfl
@[simp] theorem modNhd_pdp (s : State) (f : Nhd → Nhd) : (modNhd s f).pdp = s.pdp := rfl
@[simp] theorem modNhd_ebc (s : State) (f : Nhd → Nhd) : (modNhd s f).ebc = s.ebc := rfl
@[simp] theorem modNhd_fir (s : State) (f : Nhd → Nhd) : (modNhd s f).fir = s.fir := rfl
@[simp] theorem modNhd_hlk (s : State) (f : Nhd → Nhd) : (modNhd s f).hlk = s.hlk := rfl
@[simp] theorem modNhd_cam (s : State) (f : Nhd → Nhd) : (modNhd s f).cam = s.cam := rfl
@[simp] theorem modNhd_mot (s : State) (f : Nhd → Nhd) : (modNhd s f).mot = s.mot := rfl
@[simp] theorem modNhd_hkp (s : State) (f : Nhd → Nhd) : (modNhd s f).hkp = s.hkp := rfl
@[simp] theorem modNhd_lgt (s : State) (f : Nhd → Nhd) : (modNhd s f).lgt = s.lgt := rfl
@[simp] theorem modNhd_cal (s : State) (f : Nhd → Nhd) : (modNhd s f).cal = s.cal := rfl
@[simp] theorem modNhd_eth (s : State) (f : Nhd → Nhd) : (modNhd s f).eth = s.eth := rfl
@[simp] theorem modNhd_ethq (s : State) (f : Nhd → Nhd) : (modNhd s f).ethq = s.ethq := rfl
@[simp] theorem modNhd_seq (s : State) (f : Nhd → Nhd) : (modNhd s f).seq = s.seq := rfl
@[simp] theorem modNhd_ep (s : State) (f : Nhd → Nhd) : (modNhd s f).ep = s.ep := rfl
@[simp] theorem modNhd_drc (s : State) (f : Nhd → Nhd) : (modNhd s f).drc = s.drc := rfl
@[simp] theorem modNhd_drcx (s : State) (f : Nhd → Nhd) : (modNhd s f).drcx = s.drcx := rfl
@[simp] theorem modNhd_dram (s : State) (f : Nhd → Nhd) : (modNhd s f).dram = s.dram := rfl
@[simp] theorem modNhd_sram (s : State) (f : Nhd → Nhd) : (modNhd s f).sram = s.sram := rfl
@[simp] theorem modNhd_hostMem (s : State) (f : Nhd → Nhd) : (modNhd s f).hostMem = s.hostMem := rfl
@[simp] theorem modNhd_flash (s : State) (f : Nhd → Nhd) : (modNhd s f).flash = s.flash := rfl

/-! ### emit -/
@[simp] theorem emit_pending (s : State) (o : Out) : (emit s o).pending = s.pending := rfl
@[simp] theorem emit_ct (s : State) (o : Out) : (emit s o).ct = s.ct := rfl
@[simp] theorem emit_freeCtr (s : State) (o : Out) : (emit s o).freeCtr = s.freeCtr := rfl
@[simp] theorem emit_glb (s : State) (o : Out) : (emit s o).glb = s.glb := rfl
@[simp] theorem emit_fw (s : State) (o : Out) : (emit s o).fw = s.fw := rfl
@[simp] theorem emit_bob (s : State) (o : Out) : (emit s o).bob = s.bob := rfl
@[simp] theorem emit_cmd (s : State) (o : Out) : (emit s o).cmd = s.cmd := rfl
@[simp] theorem emit_evt (s : State) (o : Out) : (emit s o).evt = s.evt := rfl
@[simp] theorem emit_tim (s : State) (o : Out) : (emit s o).tim = s.tim := rfl
@[simp] theorem emit_pdp (s : State) (o : Out) : (emit s o).pdp = s.pdp := rfl
@[simp] theorem emit_ebc (s : State) (o : Out) : (emit s o).ebc = s.ebc := rfl
@[simp] theorem emit_fir (s : State) (o : Out) : (emit s o).fir = s.fir := rfl
@[simp] theorem emit_nhd (s : State) (o : Out) : (emit s o).nhd = s.nhd := rfl
@[simp] theorem emit_hlk (s : State) (o : Out) : (emit s o).hlk = s.hlk := rfl
@[simp] theorem emit_cam (s : State) (o : Out) : (emit s o).cam = s.cam := rfl
@[simp] theorem emit_mot (s : State) (o : Out) : (emit s o).mot = s.mot := rfl
@[simp] theorem emit_hkp (s : State) (o : Out) : (emit s o).hkp = s.hkp := rfl
@[simp] theorem emit_lgt (s : State) (o : Out) : (emit s o).lgt = s.lgt := rfl
@[simp] theorem emit_cal (s : State) (o : Out) : (emit s o).cal = s.cal := rfl
@[simp] theorem emit_eth (s : State) (o : Out) : (emit s o).eth = s.eth := rfl
@[simp] theorem emit_ethq (s : State) (o : Out) : (emit s o).ethq = s.ethq := rfl
@[simp] theorem emit_seq (s : State) (o : Out) : (emit s o).seq = s.seq := rfl
@[simp] theorem emit_ep (s : State) (o : Out) : (emit s o).ep = s.ep := rfl
@[simp] theorem emit_drc (s : State) (o : Out) : (emit s o).drc = s.drc := rfl
@[simp] theorem emit_drcx (s : State) (o : Out) : (emit s o).drcx = s.drcx := rfl
@[simp] theorem emit_dram (s : State) (o : Out) : (emit s o).dram = s.dram := rfl
@[simp] theorem emit_sram (s : State) (o : Out) : (emit s o).sram = s.sram := rfl
@[simp] theorem emit_hostMem (s : State) (o : Out) : (emit s o).hostMem = s.hostMem := rfl
@[simp] theorem emit_flash (s : State) (o : Out) : (emit s o).flash = s.flash := rfl

/-! ### raise -/
@[simp] theorem raise_pending (s : State) (num inst code : Nat) (d0 : Word) (d1 : Word) (d2 : Word) (d3 : Word) : (raise s num inst code d0 d1 d2 d3).pending = s.pending := rfl
@[simp] theorem raise_ct (s : State) (num inst code : Nat) (d0 : Word) (d1 : Word) (d2 : Word) (d3 : Word) : (raise s num inst code d0 d1 d2 d3).ct = s.ct := rfl
@[simp] theorem raise_freeCtr (s : State) (num inst code : Nat) (d0 : Word) (d1 : Word) (d2 : Word) (d3 : Word) : (raise s num inst code d0 d1 d2 d3).freeCtr = s.freeCtr := rfl
@[simp] theorem raise_out (s : State) (num inst code : Nat) (d0 : Word) (d1 : Word) (d2 : Word) (d3 : Word) : (raise s num inst code d0 d1 d2 d3).out = s.out := rfl
@[simp] theorem raise_glb (s : State) (num inst code : Nat) (d0 : Word) (d1 : Word) (d2 : Word) (d3 : Word) : (raise s num inst code d0 d1 d2 d3).glb = s.glb := rfl
@[simp] theorem raise_fw (s : State) (num inst code : Nat) (d0 : Word) (d1 : Word) (d2 : Word) (d3 : Word) : (raise s num inst code d0 d1 d2 d3).fw = s.fw := rfl
@[simp] theorem raise_bob (s : State) (num inst code : Nat) (d0 : Word) (d1 : Word) (d2 : Word) (d3 : Word) : (raise s num inst code d0 d1 d2 d3).bob = s.bob := rfl
@[simp] theorem raise_cmd (s : State) (num inst code : Nat) (d0 : Word) (d1 : Word) (d2 : Word) (d3 : Word) : (raise s num inst code d0 d1 d2 d3).cmd = s.cmd := rfl
@[simp] theorem raise_tim (s : State) (num inst code : Nat) (d0 : Word) (d1 : Word) (d2 : Word) (d3 : Word) : (raise s num inst code d0 d1 d2 d3).tim = s.tim := rfl
@[simp] theorem raise_pdp (s : State) (num inst code : Nat) (d0 : Word) (d1 : Word) (d2 : Word) (d3 : Word) : (raise s num inst code d0 d1 d2 d3).pdp = s.pdp := rfl
@[simp] theorem raise_ebc (s : State) (num inst code : Nat) (d0 : Word) (d1 : Word) (d2 : Word) (d3 : Word) : (raise s num inst code d0 d1 d2 d3).ebc = s.ebc := rfl
@[simp] theorem raise_fir (s : State) (num inst code : Nat) (d0 : Word) (d1 : Word) (d2 : Word) (d3 : Word) : (raise s num inst code d0 d1 d2 d3).fir = s.fir := rfl
@[simp] theorem raise_nhd (s : State) (num inst code : Nat) (d0 : Word) (d1 : Word) (d2 : Word) (d3 : Word) : (raise s num inst code d0 d1 d2 d3).nhd = s.nhd := rfl
@[simp] theorem raise_hlk (s : State) (num inst code : Nat) (d0 : Word) (d1 : Word) (d2 : Word) (d3 : Word) : (raise s num inst code d0 d1 d2 d3).hlk = s.hlk := rfl
@[simp] theorem raise_cam (s : State) (num inst code : Nat) (d0 : Word) (d1 : Word) (d2 : Word) (d3 : Word) : (raise s num inst code d0 d1 d2 d3).cam = s.cam := rfl
@[simp] theorem raise_mot (s : State) (num inst code : Nat) (d0 : Word) (d1 : Word) (d2 : Word) (d3 : Word) : (raise s num inst code d0 d1 d2 d3).mot = s.mot := rfl
@[simp] theorem raise_hkp (s : State) (num inst code : Nat) (d0 : Word) (d1 : Word) (d2 : Word) (d3 : Word) : (raise s num inst code d0 d1 d2 d3).hkp = s.hkp := rfl
@[simp] theorem raise_lgt (s : State) (num inst code : Nat) (d0 : Word) (d1 : Word) (d2 : Word) (d3 : Word) : (raise s num inst code d0 d1 d2 d3).lgt = s.lgt := rfl
@[simp] theorem raise_cal (s : State) (num inst code : Nat) (d0 : Word) (d1 : Word) (d2 : Word) (d3 : Word) : (raise s num inst code d0 d1 d2 d3).cal = s.cal := rfl
@[simp] theorem raise_eth (s : State) (num inst code : Nat) (d0 : Word) (d1 : Word) (d2 : Word) (d3 : Word) : (raise s num inst code d0 d1 d2 d3).eth = s.eth := rfl
@[simp] theorem raise_ethq (s : State) (num inst code : Nat) (d0 : Word) (d1 : Word) (d2 : Word) (d3 : Word) : (raise s num inst code d0 d1 d2 d3).ethq = s.ethq := rfl
@[simp] theorem raise_seq (s : State) (num inst code : Nat) (d0 : Word) (d1 : Word) (d2 : Word) (d3 : Word) : (raise s num inst code d0 d1 d2 d3).seq = s.seq := rfl
@[simp] theorem raise_ep (s : State) (num inst code : Nat) (d0 : Word) (d1 : Word) (d2 : Word) (d3 : Word) : (raise s num inst code d0 d1 d2 d3).ep = s.ep := rfl
@[simp] theorem raise_drc (s : State) (num inst code : Nat) (d0 : Word) (d1 : Word) (d2 : Word) (d3 : Word) : (raise s num inst code d0 d1 d2 d3).drc = s.drc := rfl
@[simp] theorem raise_drcx (s : State) (num inst code : Nat) (d0 : Word) (d1 : Word) (d2 : Word) (d3 : Word) : (raise s num inst code d0 d1 d2 d3).drcx = s.drcx := rfl
@[simp] theorem raise_dram (s : State) (num inst code : Nat) (d0 : Word) (d1 : Word) (d2 : Word) (d3 : Word) : (raise s num inst code d0 d1 d2 d3).dram = s.dram := rfl
@[simp] theorem raise_sram (s : State) (num inst code : Nat) (d0 : Word) (d1 : Word) (d2 : Word) (d3 : Word) : (raise s num inst code d0 d1 d2 d3).sram = s.sram := rfl
@[simp] theorem raise_hostMem (s : State) (num inst code : Nat) (d0 : Word) (d1 : Word) (d2 : Word) (d3 : Word) : (raise s num inst code d0 d1 d2 d3).hostMem = s.hostMem := rfl
@[simp] theorem raise_flash (s : State) (num inst code : Nat) (d0 : Word) (d1 : Word) (d2 : Word) (d3 : Word) : (raise s num inst code d0 d1 d2 d3).flash = s.flash := rfl

/-! ### touch -/
@[simp] theorem touch_pending (s : State) (b : WriteBlock) : (touch s b).pending = s.pending := rfl
@[simp] theorem touch_ct (s : State) (b : WriteBlock) : (touch s b).ct = s.ct := rfl
@[simp] theorem touch_freeCtr (s : State) (b : WriteBlock) : (touch s b).freeCtr = s.freeCtr := rfl
@[simp] theorem touch_out (s : State) (b : WriteBlock) : (touch s b).out = s.out := rfl
@[simp] theorem touch_glb (s : State) (b : WriteBlock) : (touch s b).glb = s.glb := rfl
@[simp] theorem touch_fw (s : State) (b : WriteBlock) : (touch s b).fw = s.fw := rfl
@[simp] theorem touch_bob (s : State) (b : WriteBlock) : (touch s b).bob = s.bob := rfl
@[simp] theorem touch_cmd (s : State) (b : WriteBlock) : (touch s b).cmd = s.cmd := rfl
@[simp] theorem touch_evt (s : State) (b : WriteBlock) : (touch s b).evt = s.evt := rfl
@[simp] theorem touch_tim (s : State) (b : WriteBlock) : (touch s b).tim = s.tim := rfl
@[simp] theorem touch_pdp (s : State) (b : WriteBlock) : (touch s b).pdp = s.pdp := rfl
@[simp] theorem touch_ebc (s : State) (b : WriteBlock) : (touch s b).ebc = s.ebc := rfl
@[simp] theorem touch_fir (s : State) (b : WriteBlock) : (touch s b).fir = s.fir := rfl
@[simp] theorem touch_nhd (s : State) (b : WriteBlock) : (touch s b).nhd = s.nhd := rfl
@[simp] theorem touch_hlk (s : State) (b : WriteBlock) : (touch s b).hlk = s.hlk := rfl
@[simp] theorem touch_cam (s : State) (b : WriteBlock) : (touch s b).cam = s.cam := rfl
@[simp] theorem touch_mot (s : State) (b : WriteBlock) : (touch s b).mot = s.mot := rfl
@[simp] theorem touch_hkp (s : State) (b : WriteBlock) : (touch s b).hkp = s.hkp := rfl
@[simp] theorem touch_lgt (s : State) (b : WriteBlock) : (touch s b).lgt = s.lgt := rfl
@[simp] theorem touch_cal (s : State) (b : WriteBlock) : (touch s b).cal = s.cal := rfl
@[simp] theorem touch_eth (s : State) (b : WriteBlock) : (touch s b).eth = s.eth := rfl
@[simp] theorem touch_ethq (s : State) (b : WriteBlock) : (touch s b).ethq = s.ethq := rfl
@[simp] theorem touch_seq (s : State) (b : WriteBlock) : (touch s b).seq = s.seq := rfl
@[simp] theorem touch_drc (s : State) (b : WriteBlock) : (touch s b).drc = s.drc := rfl
@[simp] theorem touch_drcx (s : State) (b : WriteBlock) : (touch s b).drcx = s.drcx := rfl
@[simp] theorem touch_dram (s : State) (b : WriteBlock) : (touch s b).dram = s.dram := rfl
@[simp] theorem touch_sram (s : State) (b : WriteBlock) : (touch s b).sram = s.sram := rfl
@[simp] theorem touch_hostMem (s : State) (b : WriteBlock) : (touch s b).hostMem = s.hostMem := rfl
@[simp] theorem touch_flash (s : State) (b : WriteBlock) : (touch s b).flash = s.flash := rfl

/-! ### modHport -/
@[simp] theorem modHport_pending (s : State) (p : Fin 16) (f : HlkPort → HlkPort) : (modHport s p f).pending = s.pending := rfl
@[simp] theorem modHport_ct (s : State) (p : Fin 16) (f : HlkPort → HlkPort) : (modHport s p f).ct = s.ct := rfl
@[simp] theorem modHport_freeCtr (s : State) (p : Fin 16) (f : HlkPort → HlkPort) : (modHport s p f).freeCtr = s.freeCtr := rfl
@[simp] theorem modHport_out (s : State) (p : Fin 16) (f : HlkPort → HlkPort) : (modHport s p f).out = s.out := rfl
@[simp] theorem modHport_glb (s : State) (p : Fin 16) (f : HlkPort → HlkPort) : (modHport s p f).glb = s.glb := rfl
@[simp] theorem modHport_fw (s : State) (p : Fin 16) (f : HlkPort → HlkPort) : (modHport s p f).fw = s.fw := rfl
@[simp] theorem modHport_bob (s : State) (p : Fin 16) (f : HlkPort → HlkPort) : (modHport s p f).bob = s.bob := rfl
@[simp] theorem modHport_cmd (s : State) (p : Fin 16) (f : HlkPort → HlkPort) : (modHport s p f).cmd = s.cmd := rfl
@[simp] theorem modHport_evt (s : State) (p : Fin 16) (f : HlkPort → HlkPort) : (modHport s p f).evt = s.evt := rfl
@[simp] theorem modHport_tim (s : State) (p : Fin 16) (f : HlkPort → HlkPort) : (modHport s p f).tim = s.tim := rfl
@[simp] theorem modHport_pdp (s : State) (p : Fin 16) (f : HlkPort → HlkPort) : (modHport s p f).pdp = s.pdp := rfl
@[simp] theorem modHport_ebc (s : State) (p : Fin 16) (f : HlkPort → HlkPort) : (modHport s p f).ebc = s.ebc := rfl
@[simp] theorem modHport_fir (s : State) (p : Fin 16) (f : HlkPort → HlkPort) : (modHport s p f).fir = s.fir := rfl
@[simp] theorem modHport_nhd (s : State) (p : Fin 16) (f : HlkPort → HlkPort) : (modHport s p f).nhd = s.nhd := rfl
@[simp] theorem modHport_cam (s : State) (p : Fin 16) (f : HlkPort → HlkPort) : (modHport s p f).cam = s.cam := rfl
@[simp] theorem modHport_mot (s : State) (p : Fin 16) (f : HlkPort → HlkPort) : (modHport s p f).mot = s.mot := rfl
@[simp] theorem modHport_hkp (s : State) (p : Fin 16) (f : HlkPort → HlkPort) : (modHport s p f).hkp = s.hkp := rfl
@[simp] theorem modHport_lgt (s : State) (p : Fin 16) (f : HlkPort → HlkPort) : (modHport s p f).lgt = s.lgt := rfl
@[simp] theorem modHport_cal (s : State) (p : Fin 16) (f : HlkPort → HlkPort) : (modHport s p f).cal = s.cal := rfl
@[simp] theorem modHport_eth (s : State) (p : Fin 16) (f : HlkPort → HlkPort) : (modHport s p f).eth = s.eth := rfl
@[simp] theorem modHport_ethq (s : State) (p : Fin 16) (f : HlkPort → HlkPort) : (modHport s p f).ethq = s.ethq := rfl
@[simp] theorem modHport_seq (s : State) (p : Fin 16) (f : HlkPort → HlkPort) : (modHport s p f).seq = s.seq := rfl
@[simp] theorem modHport_ep (s : State) (p : Fin 16) (f : HlkPort → HlkPort) : (modHport s p f).ep = s.ep := rfl
@[simp] theorem modHport_drc (s : State) (p : Fin 16) (f : HlkPort → HlkPort) : (modHport s p f).drc = s.drc := rfl
@[simp] theorem modHport_drcx (s : State) (p : Fin 16) (f : HlkPort → HlkPort) : (modHport s p f).drcx = s.drcx := rfl
@[simp] theorem modHport_dram (s : State) (p : Fin 16) (f : HlkPort → HlkPort) : (modHport s p f).dram = s.dram := rfl
@[simp] theorem modHport_sram (s : State) (p : Fin 16) (f : HlkPort → HlkPort) : (modHport s p f).sram = s.sram := rfl
@[simp] theorem modHport_hostMem (s : State) (p : Fin 16) (f : HlkPort → HlkPort) : (modHport s p f).hostMem = s.hostMem := rfl
@[simp] theorem modHport_flash (s : State) (p : Fin 16) (f : HlkPort → HlkPort) : (modHport s p f).flash = s.flash := rfl
@[simp] theorem modHport_hlk_ports (s : State) (p : Fin 16) (f : HlkPort → HlkPort) : (modHport s p f).hlk.ports = vmod s.hlk.ports p f := rfl

/-! ### modLane -/
@[simp] theorem modLane_pending (s : State) (p : Fin 16) (l : Fin 2) (f : Lane → Lane) : (modLane s p l f).pending = s.pending := rfl
@[simp] theorem modLane_ct (s : State) (p : Fin 16) (l : Fin 2) (f : Lane → Lane) : (modLane s p l f).ct = s.ct := rfl
@[simp] theorem modLane_freeCtr (s : State) (p : Fin 16) (l : Fin 2) (f : Lane → Lane) : (modLane s p l f).freeCtr = s.freeCtr := rfl
@[simp] theorem modLane_out (s : State) (p : Fin 16) (l : Fin 2) (f : Lane → Lane) : (modLane s p l f).out = s.out := rfl
@[simp] theorem modLane_glb (s : State) (p : Fin 16) (l : Fin 2) (f : Lane → Lane) : (modLane s p l f).glb = s.glb := rfl
@[simp] theorem modLane_fw (s : State) (p : Fin 16) (l : Fin 2) (f : Lane → Lane) : (modLane s p l f).fw = s.fw := rfl
@[simp] theorem modLane_bob (s : State) (p : Fin 16) (l : Fin 2) (f : Lane → Lane) : (modLane s p l f).bob = s.bob := rfl
@[simp] theorem modLane_cmd (s : State) (p : Fin 16) (l : Fin 2) (f : Lane → Lane) : (modLane s p l f).cmd = s.cmd := rfl
@[simp] theorem modLane_evt (s : State) (p : Fin 16) (l : Fin 2) (f : Lane → Lane) : (modLane s p l f).evt = s.evt := rfl
@[simp] theorem modLane_tim (s : State) (p : Fin 16) (l : Fin 2) (f : Lane → Lane) : (modLane s p l f).tim = s.tim := rfl
@[simp] theorem modLane_pdp (s : State) (p : Fin 16) (l : Fin 2) (f : Lane → Lane) : (modLane s p l f).pdp = s.pdp := rfl
@[simp] theorem modLane_ebc (s : State) (p : Fin 16) (l : Fin 2) (f : Lane → Lane) : (modLane s p l f).ebc = s.ebc := rfl
@[simp] theorem modLane_fir (s : State) (p : Fin 16) (l : Fin 2) (f : Lane → Lane) : (modLane s p l f).fir = s.fir := rfl
@[simp] theorem modLane_nhd (s : State) (p : Fin 16) (l : Fin 2) (f : Lane → Lane) : (modLane s p l f).nhd = s.nhd := rfl
@[simp] theorem modLane_cam (s : State) (p : Fin 16) (l : Fin 2) (f : Lane → Lane) : (modLane s p l f).cam = s.cam := rfl
@[simp] theorem modLane_mot (s : State) (p : Fin 16) (l : Fin 2) (f : Lane → Lane) : (modLane s p l f).mot = s.mot := rfl
@[simp] theorem modLane_hkp (s : State) (p : Fin 16) (l : Fin 2) (f : Lane → Lane) : (modLane s p l f).hkp = s.hkp := rfl
@[simp] theorem modLane_lgt (s : State) (p : Fin 16) (l : Fin 2) (f : Lane → Lane) : (modLane s p l f).lgt = s.lgt := rfl
@[simp] theorem modLane_cal (s : State) (p : Fin 16) (l : Fin 2) (f : Lane → Lane) : (modLane s p l f).cal = s.cal := rfl
@[simp] theorem modLane_eth (s : State) (p : Fin 16) (l : Fin 2) (f : Lane → Lane) : (modLane s p l f).eth = s.eth := rfl
@[simp] theorem modLane_ethq (s : State) (p : Fin 16) (l : Fin 2) (f : Lane → Lane) : (modLane s p l f).ethq = s.ethq := rfl
@[simp] theorem modLane_seq (s : State) (p : Fin 16) (l : Fin 2) (f : Lane → Lane) : (modLane s p l f).seq = s.seq := rfl
@[simp] theorem modLane_ep (s : State) (p : Fin 16) (l : Fin 2) (f : Lane → Lane) : (modLane s p l f).ep = s.ep := rfl
@[simp] theorem modLane_drc (s : State) (p : Fin 16) (l : Fin 2) (f : Lane → Lane) : (modLane s p l f).drc = s.drc := rfl
@[simp] theorem modLane_drcx (s : State) (p : Fin 16) (l : Fin 2) (f : Lane → Lane) : (modLane s p l f).drcx = s.drcx := rfl
@[simp] theorem modLane_dram (s : State) (p : Fin 16) (l : Fin 2) (f : Lane → Lane) : (modLane s p l f).dram = s.dram := rfl
@[simp] theorem modLane_sram (s : State) (p : Fin 16) (l : Fin 2) (f : Lane → Lane) : (modLane s p l f).sram = s.sram := rfl
@[simp] theorem modLane_hostMem (s : State) (p : Fin 16) (l : Fin 2) (f : Lane → Lane) : (modLane s p l f).hostMem = s.hostMem := rfl
@[simp] theorem modLane_flash (s : State) (p : Fin 16) (l : Fin 2) (f : Lane → Lane) : (modLane s p l f).flash = s.flash := rfl

/-! ### modPanel -/
@[simp] theorem modPanel_pending (s : State) (num : BitVec 16) (f : Panel → Panel) : (modPanel s num f).pending = s.pending := rfl
@[simp] theorem modPanel_ct (s : State) (num : BitVec 16) (f : Panel → Panel) : (modPanel s num f).ct = s.ct := rfl
@[simp] theorem modPanel_freeCtr (s : State) (num : BitVec 16) (f : Panel → Panel) : (modPanel s num f).freeCtr = s.freeCtr := rfl
@[simp] theorem modPanel_out (s : State) (num : BitVec 16) (f : Panel → Panel) : (modPanel s num f).out = s.out := rfl
@[simp] theorem modPanel_glb (s : State) (num : BitVec 16) (f : Panel → Panel) : (modPanel s num f).glb = s.glb := rfl
@[simp] theorem modPanel_fw (s : State) (num : BitVec 16) (f : Panel → Panel) : (modPanel s num f).fw = s.fw := rfl
@[simp] theorem modPanel_bob (s : State) (num : BitVec 16) (f : Panel → Panel) : (modPanel s num f).bob = s.bob := rfl
@[simp] theorem modPanel_cmd (s : State) (num : BitVec 16) (f : Panel → Panel) : (modPanel s num f).cmd = s.cmd := rfl
@[simp] theorem modPanel_evt (s : State) (num : BitVec 16) (f : Panel → Panel) : (modPanel s num f).evt = s.evt := rfl
@[simp] theorem modPanel_tim (s : State) (num : BitVec 16) (f : Panel → Panel) : (modPanel s num f).tim = s.tim := rfl
@[simp] theorem modPanel_ebc (s : State) (num : BitVec 16) (f : Panel → Panel) : (modPanel s num f).ebc = s.ebc := rfl
@[simp] theorem modPanel_fir (s : State) (num : BitVec 16) (f : Panel → Panel) : (modPanel s num f).fir = s.fir := rfl
@[simp] theorem modPanel_nhd (s : State) (num : BitVec 16) (f : Panel → Panel) : (modPanel s num f).nhd = s.nhd := rfl
@[simp] theorem modPanel_hlk (s : State) (num : BitVec 16) (f : Panel → Panel) : (modPanel s num f).hlk = s.hlk := rfl
@[simp] theorem modPanel_cam (s : State) (num : BitVec 16) (f : Panel → Panel) : (modPanel s num f).cam = s.cam := rfl
@[simp] theorem modPanel_mot (s : State) (num : BitVec 16) (f : Panel → Panel) : (modPanel s num f).mot = s.mot := rfl
@[simp] theorem modPanel_hkp (s : State) (num : BitVec 16) (f : Panel → Panel) : (modPanel s num f).hkp = s.hkp := rfl
@[simp] theorem modPanel_lgt (s : State) (num : BitVec 16) (f : Panel → Panel) : (modPanel s num f).lgt = s.lgt := rfl
@[simp] theorem modPanel_cal (s : State) (num : BitVec 16) (f : Panel → Panel) : (modPanel s num f).cal = s.cal := rfl
@[simp] theorem modPanel_eth (s : State) (num : BitVec 16) (f : Panel → Panel) : (modPanel s num f).eth = s.eth := rfl
@[simp] theorem modPanel_ethq (s : State) (num : BitVec 16) (f : Panel → Panel) : (modPanel s num f).ethq = s.ethq := rfl
@[simp] theorem modPanel_seq (s : State) (num : BitVec 16) (f : Panel → Panel) : (modPanel s num f).seq = s.seq := rfl
@[simp] theorem modPanel_ep (s : State) (num : BitVec 16) (f : Panel → Panel) : (modPanel s num f).ep = s.ep := rfl
@[simp] theorem modPanel_drc (s : State) (num : BitVec 16) (f : Panel → Panel) : (modPanel s num f).drc = s.drc := rfl
@[simp] theorem modPanel_drcx (s : State) (num : BitVec 16) (f : Panel → Panel) : (modPanel s num f).drcx = s.drcx := rfl
@[simp] theorem modPanel_dram (s : State) (num : BitVec 16) (f : Panel → Panel) : (modPanel s num f).dram = s.dram := rfl
@[simp] theorem modPanel_sram (s : State) (num : BitVec 16) (f : Panel → Panel) : (modPanel s num f).sram = s.sram := rfl
@[simp] theorem modPanel_hostMem (s : State) (num : BitVec 16) (f : Panel → Panel) : (modPanel s num f).hostMem = s.hostMem := rfl
@[simp] theorem modPanel_flash (s : State) (num : BitVec 16) (f : Panel → Panel) : (modPanel s num f).flash = s.flash := rfl

/-! ### modPport -/
@[simp] theorem modPport_pending (s : State) (p : Fin 16) (f : PdpPort → PdpPort) : (modPport s p f).pending = s.pending := rfl
@[simp] theorem modPport_ct (s : State) (p : Fin 16) (f : PdpPort → PdpPort) : (modPport s p f).ct = s.ct := rfl
@[simp] theorem modPport_freeCtr (s : State) (p : Fin 16) (f : PdpPort → PdpPort) : (modPport s p f).freeCtr = s.freeCtr := rfl
@[simp] theorem modPport_out (s : State) (p : Fin 16) (f : PdpPort → PdpPort) : (modPport s p f).out = s.out := rfl
@[simp] theorem modPport_glb (s : State) (p : Fin 16) (f : PdpPort → PdpPort) : (modPport s p f).glb = s.glb := rfl
@[simp] theorem modPport_fw (s : State) (p : Fin 16) (f : PdpPort → PdpPort) : (modPport s p f).fw = s.fw := rfl
@[simp] theorem modPport_bob (s : State) (p : Fin 16) (f : PdpPort → PdpPort) : (modPport s p f).bob = s.bob := rfl
@[simp] theorem modPport_cmd (s : State) (p : Fin 16) (f : PdpPort → PdpPort) : (modPport s p f).cmd = s.cmd := rfl
@[simp] theorem modPport_evt (s : State) (p : Fin 16) (f : PdpPort → PdpPort) : (modPport s p f).evt = s.evt := rfl
@[simp] theorem modPport_tim (s : State) (p : Fin 16) (f : PdpPort → PdpPort) : (modPport s p f).tim = s.tim := rfl
@[simp] theorem modPport_ebc (s : State) (p : Fin 16) (f : PdpPort → PdpPort) : (modPport s p f).ebc = s.ebc := rfl
@[simp] theorem modPport_fir (s : State) (p : Fin 16) (f : PdpPort → PdpPort) : (modPport s p f).fir = s.fir := rfl
@[simp] theorem modPport_nhd (s : State) (p : Fin 16) (f : PdpPort → PdpPort) : (modPport s p f).nhd = s.nhd := rfl
@[simp] theorem modPport_hlk (s : State) (p : Fin 16) (f : PdpPort → PdpPort) : (modPport s p f).hlk = s.hlk := rfl
@[simp] theorem modPport_cam (s : State) (p : Fin 16) (f : PdpPort → PdpPort) : (modPport s p f).cam = s.cam := rfl
@[simp] theorem modPport_mot (s : State) (p : Fin 16) (f : PdpPort → PdpPort) : (modPport s p f).mot = s.mot := rfl
@[simp] theorem modPport_hkp (s : State) (p : Fin 16) (f : PdpPort → PdpPort) : (modPport s p f).hkp = s.hkp := rfl
@[simp] theorem modPport_lgt (s : State) (p : Fin 16) (f : PdpPort → PdpPort) : (modPport s p f).lgt = s.lgt := rfl
@[simp] theorem modPport_cal (s : State) (p : Fin 16) (f : PdpPort → PdpPort) : (modPport s p f).cal = s.cal := rfl
@[simp] theorem modPport_eth (s : State) (p : Fin 16) (f : PdpPort → PdpPort) : (modPport s p f).eth = s.eth := rfl
@[simp] theorem modPport_ethq (s : State) (p : Fin 16) (f : PdpPort → PdpPort) : (modPport s p f).ethq = s.ethq := rfl
@[simp] theorem modPport_seq (s : State) (p : Fin 16) (f : PdpPort → PdpPort) : (modPport s p f).seq = s.seq := rfl
@[simp] theorem modPport_ep (s : State) (p : Fin 16) (f : PdpPort → PdpPort) : (modPport s p f).ep = s.ep := rfl
@[simp] theorem modPport_drc (s : State) (p : Fin 16) (f : PdpPort → PdpPort) : (modPport s p f).drc = s.drc := rfl
@[simp] theorem modPport_drcx (s : State) (p : Fin 16) (f : PdpPort → PdpPort) : (modPport s p f).drcx = s.drcx := rfl
@[simp] theorem modPport_dram (s : State) (p : Fin 16) (f : PdpPort → PdpPort) : (modPport s p f).dram = s.dram := rfl
@[simp] theorem modPport_sram (s : State) (p : Fin 16) (f : PdpPort → PdpPort) : (modPport s p f).sram = s.sram := rfl
@[simp] theorem modPport_hostMem (s : State) (p : Fin 16) (f : PdpPort → PdpPort) : (modPport s p f).hostMem = s.hostMem := rfl
@[simp] theorem modPport_flash (s : State) (p : Fin 16) (f : PdpPort → PdpPort) : (modPport s p f).flash = s.flash := rfl
@[simp] theorem modPport_pdp_ports (s : State) (p : Fin 16) (f : PdpPort → PdpPort) : (modPport s p f).pdp.ports = vmod s.pdp.ports p f := rfl

/-! ### dropTag -/
@[simp] theorem dropTag_pending (s : State) (p : Fin 4) (tag : BitVec 16) : (dropTag s p tag).pending = s.pending := rfl
@[simp] theorem dropTag_ct (s : State) (p : Fin 4) (tag : BitVec 16) : (dropTag s p tag).ct = s.ct := rfl
@[simp] theorem dropTag_freeCtr (s : State) (p : Fin 4) (tag : BitVec 16) : (dropTag s p tag).freeCtr = s.freeCtr := rfl
@[simp] theorem dropTag_out (s : State) (p : Fin 4) (tag : BitVec 16) : (dropTag s p tag).out = s.out := rfl
@[simp] theorem dropTag_glb (s : State) (p : Fin 4) (tag : BitVec 16) : (dropTag s p tag).glb = s.glb := rfl
@[simp] theorem dropTag_fw (s : State) (p : Fin 4) (tag : BitVec 16) : (dropTag s p tag).fw = s.fw := rfl
@[simp] theorem dropTag_bob (s : State) (p : Fin 4) (tag : BitVec 16) : (dropTag s p tag).bob = s.bob := rfl
@[simp] theorem dropTag_evt (s : State) (p : Fin 4) (tag : BitVec 16) : (dropTag s p tag).evt = s.evt := rfl
@[simp] theorem dropTag_tim (s : State) (p : Fin 4) (tag : BitVec 16) : (dropTag s p tag).tim = s.tim := rfl
@[simp] theorem dropTag_pdp (s : State) (p : Fin 4) (tag : BitVec 16) : (dropTag s p tag).pdp = s.pdp := rfl
@[simp] theorem dropTag_ebc (s : State) (p : Fin 4) (tag : BitVec 16) : (dropTag s p tag).ebc = s.ebc := rfl
@[simp] theorem dropTag_fir (s : State) (p : Fin 4) (tag : BitVec 16) : (dropTag s p tag).fir = s.fir := rfl
@[simp] theorem dropTag_nhd (s : State) (p : Fin 4) (tag : BitVec 16) : (dropTag s p tag).nhd = s.nhd := rfl
@[simp] theorem dropTag_hlk (s : State) (p : Fin 4) (tag : BitVec 16) : (dropTag s p tag).hlk = s.hlk := rfl
@[simp] theorem dropTag_cam (s : State) (p : Fin 4) (tag : BitVec 16) : (dropTag s p tag).cam = s.cam := rfl
@[simp] theorem dropTag_mot (s : State) (p : Fin 4) (tag : BitVec 16) : (dropTag s p tag).mot = s.mot := rfl
@[simp] theorem dropTag_hkp (s : State) (p : Fin 4) (tag : BitVec 16) : (dropTag s p tag).hkp = s.hkp := rfl
@[simp] theorem dropTag_lgt (s : State) (p : Fin 4) (tag : BitVec 16) : (dropTag s p tag).lgt = s.lgt := rfl
@[simp] theorem dropTag_cal (s : State) (p : Fin 4) (tag : BitVec 16) : (dropTag s p tag).cal = s.cal := rfl
@[simp] theorem dropTag_eth (s : State) (p : Fin 4) (tag : BitVec 16) : (dropTag s p tag).eth = s.eth := rfl
@[simp] theorem dropTag_ethq (s : State) (p : Fin 4) (tag : BitVec 16) : (dropTag s p tag).ethq = s.ethq := rfl
@[simp] theorem dropTag_seq (s : State) (p : Fin 4) (tag : BitVec 16) : (dropTag s p tag).seq = s.seq := rfl
@[simp] theorem dropTag_ep (s : State) (p : Fin 4) (tag : BitVec 16) : (dropTag s p tag).ep = s.ep := rfl
@[simp] theorem dropTag_drc (s : State) (p : Fin 4) (tag : BitVec 16) : (dropTag s p tag).drc = s.drc := rfl
@[simp] theorem dropTag_drcx (s : State) (p : Fin 4) (tag : BitVec 16) : (dropTag s p tag).drcx = s.drcx := rfl
@[simp] theorem dropTag_dram (s : State) (p : Fin 4) (tag : BitVec 16) : (dropTag s p tag).dram = s.dram := rfl
@[simp] theorem dropTag_sram (s : State) (p : Fin 4) (tag : BitVec 16) : (dropTag s p tag).sram = s.sram := rfl
@[simp] theorem dropTag_hostMem (s : State) (p : Fin 4) (tag : BitVec 16) : (dropTag s p tag).hostMem = s.hostMem := rfl
@[simp] theorem dropTag_flash (s : State) (p : Fin 4) (tag : BitVec 16) : (dropTag s p tag).flash = s.flash := rfl

/-! ### addOut -/
@[simp] theorem addOut_pending (s : State) (op : Nat) (c : Cmd) : (addOut s op c).pending = s.pending := rfl
@[simp] theorem addOut_ct (s : State) (op : Nat) (c : Cmd) : (addOut s op c).ct = s.ct := rfl
@[simp] theorem addOut_freeCtr (s : State) (op : Nat) (c : Cmd) : (addOut s op c).freeCtr = s.freeCtr := rfl
@[simp] theorem addOut_out (s : State) (op : Nat) (c : Cmd) : (addOut s op c).out = s.out := rfl
@[simp] theorem addOut_glb (s : State) (op : Nat) (c : Cmd) : (addOut s op c).glb = s.glb := rfl
@[simp] theorem addOut_fw (s : State) (op : Nat) (c : Cmd) : (addOut s op c).fw = s.fw := rfl
@[simp] theorem addOut_bob (s : State) (op : Nat) (c : Cmd) : (addOut s op c).bob = s.bob := rfl
@[simp] theorem addOut_evt (s : State) (op : Nat) (c : Cmd) : (addOut s op c).evt = s.evt := rfl
@[simp] theorem addOut_tim (s : State) (op : Nat) (c : Cmd) : (addOut s op c).tim = s.tim := rfl
@[simp] theorem addOut_pdp (s : State) (op : Nat) (c : Cmd) : (addOut s op c).pdp = s.pdp := rfl
@[simp] theorem addOut_ebc (s : State) (op : Nat) (c : Cmd) : (addOut s op c).ebc = s.ebc := rfl
@[simp] theorem addOut_fir (s : State) (op : Nat) (c : Cmd) : (addOut s op c).fir = s.fir := rfl
@[simp] theorem addOut_nhd (s : State) (op : Nat) (c : Cmd) : (addOut s op c).nhd = s.nhd := rfl
@[simp] theorem addOut_hlk (s : State) (op : Nat) (c : Cmd) : (addOut s op c).hlk = s.hlk := rfl
@[simp] theorem addOut_cam (s : State) (op : Nat) (c : Cmd) : (addOut s op c).cam = s.cam := rfl
@[simp] theorem addOut_mot (s : State) (op : Nat) (c : Cmd) : (addOut s op c).mot = s.mot := rfl
@[simp] theorem addOut_hkp (s : State) (op : Nat) (c : Cmd) : (addOut s op c).hkp = s.hkp := rfl
@[simp] theorem addOut_lgt (s : State) (op : Nat) (c : Cmd) : (addOut s op c).lgt = s.lgt := rfl
@[simp] theorem addOut_cal (s : State) (op : Nat) (c : Cmd) : (addOut s op c).cal = s.cal := rfl
@[simp] theorem addOut_eth (s : State) (op : Nat) (c : Cmd) : (addOut s op c).eth = s.eth := rfl
@[simp] theorem addOut_ethq (s : State) (op : Nat) (c : Cmd) : (addOut s op c).ethq = s.ethq := rfl
@[simp] theorem addOut_seq (s : State) (op : Nat) (c : Cmd) : (addOut s op c).seq = s.seq := rfl
@[simp] theorem addOut_ep (s : State) (op : Nat) (c : Cmd) : (addOut s op c).ep = s.ep := rfl
@[simp] theorem addOut_drc (s : State) (op : Nat) (c : Cmd) : (addOut s op c).drc = s.drc := rfl
@[simp] theorem addOut_drcx (s : State) (op : Nat) (c : Cmd) : (addOut s op c).drcx = s.drcx := rfl
@[simp] theorem addOut_dram (s : State) (op : Nat) (c : Cmd) : (addOut s op c).dram = s.dram := rfl
@[simp] theorem addOut_sram (s : State) (op : Nat) (c : Cmd) : (addOut s op c).sram = s.sram := rfl
@[simp] theorem addOut_hostMem (s : State) (op : Nat) (c : Cmd) : (addOut s op c).hostMem = s.hostMem := rfl
@[simp] theorem addOut_flash (s : State) (op : Nat) (c : Cmd) : (addOut s op c).flash = s.flash := rfl

/-! ### modEth -/
@[simp] theorem modEth_pending (s : State) (e : Fin 2) (f : EthPort → EthPort) : (modEth s e f).pending = s.pending := rfl
@[simp] theorem modEth_ct (s : State) (e : Fin 2) (f : EthPort → EthPort) : (modEth s e f).ct = s.ct := rfl
@[simp] theorem modEth_freeCtr (s : State) (e : Fin 2) (f : EthPort → EthPort) : (modEth s e f).freeCtr = s.freeCtr := rfl
@[simp] theorem modEth_out (s : State) (e : Fin 2) (f : EthPort → EthPort) : (modEth s e f).out = s.out := rfl
@[simp] theorem modEth_glb (s : State) (e : Fin 2) (f : EthPort → EthPort) : (modEth s e f).glb = s.glb := rfl
@[simp] theorem modEth_fw (s : State) (e : Fin 2) (f : EthPort → EthPort) : (modEth s e f).fw = s.fw := rfl
@[simp] theorem modEth_bob (s : State) (e : Fin 2) (f : EthPort → EthPort) : (modEth s e f).bob = s.bob := rfl
@[simp] theorem modEth_cmd (s : State) (e : Fin 2) (f : EthPort → EthPort) : (modEth s e f).cmd = s.cmd := rfl
@[simp] theorem modEth_evt (s : State) (e : Fin 2) (f : EthPort → EthPort) : (modEth s e f).evt = s.evt := rfl
@[simp] theorem modEth_tim (s : State) (e : Fin 2) (f : EthPort → EthPort) : (modEth s e f).tim = s.tim := rfl
@[simp] theorem modEth_pdp (s : State) (e : Fin 2) (f : EthPort → EthPort) : (modEth s e f).pdp = s.pdp := rfl
@[simp] theorem modEth_ebc (s : State) (e : Fin 2) (f : EthPort → EthPort) : (modEth s e f).ebc = s.ebc := rfl
@[simp] theorem modEth_fir (s : State) (e : Fin 2) (f : EthPort → EthPort) : (modEth s e f).fir = s.fir := rfl
@[simp] theorem modEth_nhd (s : State) (e : Fin 2) (f : EthPort → EthPort) : (modEth s e f).nhd = s.nhd := rfl
@[simp] theorem modEth_hlk (s : State) (e : Fin 2) (f : EthPort → EthPort) : (modEth s e f).hlk = s.hlk := rfl
@[simp] theorem modEth_cam (s : State) (e : Fin 2) (f : EthPort → EthPort) : (modEth s e f).cam = s.cam := rfl
@[simp] theorem modEth_mot (s : State) (e : Fin 2) (f : EthPort → EthPort) : (modEth s e f).mot = s.mot := rfl
@[simp] theorem modEth_hkp (s : State) (e : Fin 2) (f : EthPort → EthPort) : (modEth s e f).hkp = s.hkp := rfl
@[simp] theorem modEth_lgt (s : State) (e : Fin 2) (f : EthPort → EthPort) : (modEth s e f).lgt = s.lgt := rfl
@[simp] theorem modEth_cal (s : State) (e : Fin 2) (f : EthPort → EthPort) : (modEth s e f).cal = s.cal := rfl
@[simp] theorem modEth_ethq (s : State) (e : Fin 2) (f : EthPort → EthPort) : (modEth s e f).ethq = s.ethq := rfl
@[simp] theorem modEth_seq (s : State) (e : Fin 2) (f : EthPort → EthPort) : (modEth s e f).seq = s.seq := rfl
@[simp] theorem modEth_ep (s : State) (e : Fin 2) (f : EthPort → EthPort) : (modEth s e f).ep = s.ep := rfl
@[simp] theorem modEth_drc (s : State) (e : Fin 2) (f : EthPort → EthPort) : (modEth s e f).drc = s.drc := rfl
@[simp] theorem modEth_drcx (s : State) (e : Fin 2) (f : EthPort → EthPort) : (modEth s e f).drcx = s.drcx := rfl
@[simp] theorem modEth_dram (s : State) (e : Fin 2) (f : EthPort → EthPort) : (modEth s e f).dram = s.dram := rfl
@[simp] theorem modEth_sram (s : State) (e : Fin 2) (f : EthPort → EthPort) : (modEth s e f).sram = s.sram := rfl
@[simp] theorem modEth_hostMem (s : State) (e : Fin 2) (f : EthPort → EthPort) : (modEth s e f).hostMem = s.hostMem := rfl
@[simp] theorem modEth_flash (s : State) (e : Fin 2) (f : EthPort → EthPort) : (modEth s e f).flash = s.flash := rfl

/-! ### modEthQ -/
@[simp] theorem modEthQ_pending (s : State) (e : Fin 2) (f : EthQ → EthQ) : (modEthQ s e f).pending = s.pending := rfl
@[simp] theorem modEthQ_ct (s : State) (e : Fin 2) (f : EthQ → EthQ) : (modEthQ s e f).ct = s.ct := rfl
@[simp] theorem modEthQ_freeCtr (s : State) (e : Fin 2) (f : EthQ → EthQ) : (modEthQ s e f).freeCtr = s.freeCtr := rfl
@[simp] theorem modEthQ_out (s : State) (e : Fin 2) (f : EthQ → EthQ) : (modEthQ s e f).out = s.out := rfl
@[simp] theorem modEthQ_glb (s : State) (e : Fin 2) (f : EthQ → EthQ) : (modEthQ s e f).glb = s.glb := rfl
@[simp] theorem modEthQ_fw (s : State) (e : Fin 2) (f : EthQ → EthQ) : (modEthQ s e f).fw = s.fw := rfl
@[simp] theorem modEthQ_bob (s : State) (e : Fin 2) (f : EthQ → EthQ) : (modEthQ s e f).bob = s.bob := rfl
@[simp] theorem modEthQ_cmd (s : State) (e : Fin 2) (f : EthQ → EthQ) : (modEthQ s e f).cmd = s.cmd := rfl
@[simp] theorem modEthQ_evt (s : State) (e : Fin 2) (f : EthQ → EthQ) : (modEthQ s e f).evt = s.evt := rfl
@[simp] theorem modEthQ_tim (s : State) (e : Fin 2) (f : EthQ → EthQ) : (modEthQ s e f).tim = s.tim := rfl
@[simp] theorem modEthQ_pdp (s : State) (e : Fin 2) (f : EthQ → EthQ) : (modEthQ s e f).pdp = s.pdp := rfl
@[simp] theorem modEthQ_ebc (s : State) (e : Fin 2) (f : EthQ → EthQ) : (modEthQ s e f).ebc = s.ebc := rfl
@[simp] theorem modEthQ_fir (s : State) (e : Fin 2) (f : EthQ → EthQ) : (modEthQ s e f).fir = s.fir := rfl
@[simp] theorem modEthQ_nhd (s : State) (e : Fin 2) (f : EthQ → EthQ) : (modEthQ s e f).nhd = s.nhd := rfl
@[simp] theorem modEthQ_hlk (s : State) (e : Fin 2) (f : EthQ → EthQ) : (modEthQ s e f).hlk = s.hlk := rfl
@[simp] theorem modEthQ_cam (s : State) (e : Fin 2) (f : EthQ → EthQ) : (modEthQ s e f).cam = s.cam := rfl
@[simp] theorem modEthQ_mot (s : State) (e : Fin 2) (f : EthQ → EthQ) : (modEthQ s e f).mot = s.mot := rfl
@[simp] theorem modEthQ_hkp (s : State) (e : Fin 2) (f : EthQ → EthQ) : (modEthQ s e f).hkp = s.hkp := rfl
@[simp] theorem modEthQ_lgt (s : State) (e : Fin 2) (f : EthQ → EthQ) : (modEthQ s e f).lgt = s.lgt := rfl
@[simp] theorem modEthQ_cal (s : State) (e : Fin 2) (f : EthQ → EthQ) : (modEthQ s e f).cal = s.cal := rfl
@[simp] theorem modEthQ_eth (s : State) (e : Fin 2) (f : EthQ → EthQ) : (modEthQ s e f).eth = s.eth := rfl
@[simp] theorem modEthQ_seq (s : State) (e : Fin 2) (f : EthQ → EthQ) : (modEthQ s e f).seq = s.seq := rfl
@[simp] theorem modEthQ_ep (s : State) (e : Fin 2) (f : EthQ → EthQ) : (modEthQ s e f).ep = s.ep := rfl
@[simp] theorem modEthQ_drc (s : State) (e : Fin 2) (f : EthQ → EthQ) : (modEthQ s e f).drc = s.drc := rfl
@[simp] theorem modEthQ_drcx (s : State) (e : Fin 2) (f : EthQ → EthQ) : (modEthQ s e f).drcx = s.drcx := rfl
@[simp] theorem modEthQ_dram (s : State) (e : Fin 2) (f : EthQ → EthQ) : (modEthQ s e f).dram = s.dram := rfl
@[simp] theorem modEthQ_sram (s : State) (e : Fin 2) (f : EthQ → EthQ) : (modEthQ s e f).sram = s.sram := rfl
@[simp] theorem modEthQ_hostMem (s : State) (e : Fin 2) (f : EthQ → EthQ) : (modEthQ s e f).hostMem = s.hostMem := rfl
@[simp] theorem modEthQ_flash (s : State) (e : Fin 2) (f : EthQ → EthQ) : (modEthQ s e f).flash = s.flash := rfl

/-! ### modRing -/
@[simp] theorem modRing_pending (s : State) (n : Fin 32) (f : Bobbin → Bobbin) : (modRing s n f).pending = s.pending := rfl
@[simp] theorem modRing_ct (s : State) (n : Fin 32) (f : Bobbin → Bobbin) : (modRing s n f).ct = s.ct := rfl
@[simp] theorem modRing_freeCtr (s : State) (n : Fin 32) (f : Bobbin → Bobbin) : (modRing s n f).freeCtr = s.freeCtr := rfl
@[simp] theorem modRing_out (s : State) (n : Fin 32) (f : Bobbin → Bobbin) : (modRing s n f).out = s.out := rfl
@[simp] theorem modRing_glb (s : State) (n : Fin 32) (f : Bobbin → Bobbin) : (modRing s n f).glb = s.glb := rfl
@[simp] theorem modRing_fw (s : State) (n : Fin 32) (f : Bobbin → Bobbin) : (modRing s n f).fw = s.fw := rfl
@[simp] theorem modRing_cmd (s : State) (n : Fin 32) (f : Bobbin → Bobbin) : (modRing s n f).cmd = s.cmd := rfl
@[simp] theorem modRing_evt (s : State) (n : Fin 32) (f : Bobbin → Bobbin) : (modRing s n f).evt = s.evt := rfl
@[simp] theorem modRing_tim (s : State) (n : Fin 32) (f : Bobbin → Bobbin) : (modRing s n f).tim = s.tim := rfl
@[simp] theorem modRing_pdp (s : State) (n : Fin 32) (f : Bobbin → Bobbin) : (modRing s n f).pdp = s.pdp := rfl
@[simp] theorem modRing_ebc (s : State) (n : Fin 32) (f : Bobbin → Bobbin) : (modRing s n f).ebc = s.ebc := rfl
@[simp] theorem modRing_fir (s : State) (n : Fin 32) (f : Bobbin → Bobbin) : (modRing s n f).fir = s.fir := rfl
@[simp] theorem modRing_nhd (s : State) (n : Fin 32) (f : Bobbin → Bobbin) : (modRing s n f).nhd = s.nhd := rfl
@[simp] theorem modRing_hlk (s : State) (n : Fin 32) (f : Bobbin → Bobbin) : (modRing s n f).hlk = s.hlk := rfl
@[simp] theorem modRing_cam (s : State) (n : Fin 32) (f : Bobbin → Bobbin) : (modRing s n f).cam = s.cam := rfl
@[simp] theorem modRing_mot (s : State) (n : Fin 32) (f : Bobbin → Bobbin) : (modRing s n f).mot = s.mot := rfl
@[simp] theorem modRing_hkp (s : State) (n : Fin 32) (f : Bobbin → Bobbin) : (modRing s n f).hkp = s.hkp := rfl
@[simp] theorem modRing_lgt (s : State) (n : Fin 32) (f : Bobbin → Bobbin) : (modRing s n f).lgt = s.lgt := rfl
@[simp] theorem modRing_cal (s : State) (n : Fin 32) (f : Bobbin → Bobbin) : (modRing s n f).cal = s.cal := rfl
@[simp] theorem modRing_eth (s : State) (n : Fin 32) (f : Bobbin → Bobbin) : (modRing s n f).eth = s.eth := rfl
@[simp] theorem modRing_ethq (s : State) (n : Fin 32) (f : Bobbin → Bobbin) : (modRing s n f).ethq = s.ethq := rfl
@[simp] theorem modRing_seq (s : State) (n : Fin 32) (f : Bobbin → Bobbin) : (modRing s n f).seq = s.seq := rfl
@[simp] theorem modRing_ep (s : State) (n : Fin 32) (f : Bobbin → Bobbin) : (modRing s n f).ep = s.ep := rfl
@[simp] theorem modRing_drc (s : State) (n : Fin 32) (f : Bobbin → Bobbin) : (modRing s n f).drc = s.drc := rfl
@[simp] theorem modRing_drcx (s : State) (n : Fin 32) (f : Bobbin → Bobbin) : (modRing s n f).drcx = s.drcx := rfl
@[simp] theorem modRing_dram (s : State) (n : Fin 32) (f : Bobbin → Bobbin) : (modRing s n f).dram = s.dram := rfl
@[simp] theorem modRing_sram (s : State) (n : Fin 32) (f : Bobbin → Bobbin) : (modRing s n f).sram = s.sram := rfl
@[simp] theorem modRing_hostMem (s : State) (n : Fin 32) (f : Bobbin → Bobbin) : (modRing s n f).hostMem = s.hostMem := rfl
@[simp] theorem modRing_flash (s : State) (n : Fin 32) (f : Bobbin → Bobbin) : (modRing s n f).flash = s.flash := rfl
@[simp] theorem modRing_bob_rings (s : State) (n : Fin 32) (f : Bobbin → Bobbin) : (modRing s n f).bob.rings = vmod s.bob.rings n f := rfl

/-! ### modPair -/
@[simp] theorem modPair_pending (s : State) (p : Fin 4) (f : Pair → Pair) : (modPair s p f).pending = s.pending := rfl
@[simp] theorem modPair_ct (s : State) (p : Fin 4) (f : Pair → Pair) : (modPair s p f).ct = s.ct := rfl
@[simp] theorem modPair_freeCtr (s : State) (p : Fin 4) (f : Pair → Pair) : (modPair s p f).freeCtr = s.freeCtr := rfl
@[simp] theorem modPair_out (s : State) (p : Fin 4) (f : Pair → Pair) : (modPair s p f).out = s.out := rfl
@[simp] theorem modPair_glb (s : State) (p : Fin 4) (f : Pair → Pair) : (modPair s p f).glb = s.glb := rfl
@[simp] theorem modPair_fw (s : State) (p : Fin 4) (f : Pair → Pair) : (modPair s p f).fw = s.fw := rfl
@[simp] theorem modPair_bob (s : State) (p : Fin 4) (f : Pair → Pair) : (modPair s p f).bob = s.bob := rfl
@[simp] theorem modPair_evt (s : State) (p : Fin 4) (f : Pair → Pair) : (modPair s p f).evt = s.evt := rfl
@[simp] theorem modPair_tim (s : State) (p : Fin 4) (f : Pair → Pair) : (modPair s p f).tim = s.tim := rfl
@[simp] theorem modPair_pdp (s : State) (p : Fin 4) (f : Pair → Pair) : (modPair s p f).pdp = s.pdp := rfl
@[simp] theorem modPair_ebc (s : State) (p : Fin 4) (f : Pair → Pair) : (modPair s p f).ebc = s.ebc := rfl
@[simp] theorem modPair_fir (s : State) (p : Fin 4) (f : Pair → Pair) : (modPair s p f).fir = s.fir := rfl
@[simp] theorem modPair_nhd (s : State) (p : Fin 4) (f : Pair → Pair) : (modPair s p f).nhd = s.nhd := rfl
@[simp] theorem modPair_hlk (s : State) (p : Fin 4) (f : Pair → Pair) : (modPair s p f).hlk = s.hlk := rfl
@[simp] theorem modPair_cam (s : State) (p : Fin 4) (f : Pair → Pair) : (modPair s p f).cam = s.cam := rfl
@[simp] theorem modPair_mot (s : State) (p : Fin 4) (f : Pair → Pair) : (modPair s p f).mot = s.mot := rfl
@[simp] theorem modPair_hkp (s : State) (p : Fin 4) (f : Pair → Pair) : (modPair s p f).hkp = s.hkp := rfl
@[simp] theorem modPair_lgt (s : State) (p : Fin 4) (f : Pair → Pair) : (modPair s p f).lgt = s.lgt := rfl
@[simp] theorem modPair_cal (s : State) (p : Fin 4) (f : Pair → Pair) : (modPair s p f).cal = s.cal := rfl
@[simp] theorem modPair_eth (s : State) (p : Fin 4) (f : Pair → Pair) : (modPair s p f).eth = s.eth := rfl
@[simp] theorem modPair_ethq (s : State) (p : Fin 4) (f : Pair → Pair) : (modPair s p f).ethq = s.ethq := rfl
@[simp] theorem modPair_seq (s : State) (p : Fin 4) (f : Pair → Pair) : (modPair s p f).seq = s.seq := rfl
@[simp] theorem modPair_ep (s : State) (p : Fin 4) (f : Pair → Pair) : (modPair s p f).ep = s.ep := rfl
@[simp] theorem modPair_drc (s : State) (p : Fin 4) (f : Pair → Pair) : (modPair s p f).drc = s.drc := rfl
@[simp] theorem modPair_drcx (s : State) (p : Fin 4) (f : Pair → Pair) : (modPair s p f).drcx = s.drcx := rfl
@[simp] theorem modPair_dram (s : State) (p : Fin 4) (f : Pair → Pair) : (modPair s p f).dram = s.dram := rfl
@[simp] theorem modPair_sram (s : State) (p : Fin 4) (f : Pair → Pair) : (modPair s p f).sram = s.sram := rfl
@[simp] theorem modPair_hostMem (s : State) (p : Fin 4) (f : Pair → Pair) : (modPair s p f).hostMem = s.hostMem := rfl
@[simp] theorem modPair_flash (s : State) (p : Fin 4) (f : Pair → Pair) : (modPair s p f).flash = s.flash := rfl
@[simp] theorem modPair_cmd_pairs (s : State) (p : Fin 4) (f : Pair → Pair) : (modPair s p f).cmd.pairs = vmod s.cmd.pairs p f := rfl

/-! ### modEvBob -/
@[simp] theorem modEvBob_pending (s : State) (k : Fin 4) (f : EvBob → EvBob) : (modEvBob s k f).pending = s.pending := rfl
@[simp] theorem modEvBob_ct (s : State) (k : Fin 4) (f : EvBob → EvBob) : (modEvBob s k f).ct = s.ct := rfl
@[simp] theorem modEvBob_freeCtr (s : State) (k : Fin 4) (f : EvBob → EvBob) : (modEvBob s k f).freeCtr = s.freeCtr := rfl
@[simp] theorem modEvBob_out (s : State) (k : Fin 4) (f : EvBob → EvBob) : (modEvBob s k f).out = s.out := rfl
@[simp] theorem modEvBob_glb (s : State) (k : Fin 4) (f : EvBob → EvBob) : (modEvBob s k f).glb = s.glb := rfl
@[simp] theorem modEvBob_fw (s : State) (k : Fin 4) (f : EvBob → EvBob) : (modEvBob s k f).fw = s.fw := rfl
@[simp] theorem modEvBob_bob (s : State) (k : Fin 4) (f : EvBob → EvBob) : (modEvBob s k f).bob = s.bob := rfl
@[simp] theorem modEvBob_cmd (s : State) (k : Fin 4) (f : EvBob → EvBob) : (modEvBob s k f).cmd = s.cmd := rfl
@[simp] theorem modEvBob_tim (s : State) (k : Fin 4) (f : EvBob → EvBob) : (modEvBob s k f).tim = s.tim := rfl
@[simp] theorem modEvBob_pdp (s : State) (k : Fin 4) (f : EvBob → EvBob) : (modEvBob s k f).pdp = s.pdp := rfl
@[simp] theorem modEvBob_ebc (s : State) (k : Fin 4) (f : EvBob → EvBob) : (modEvBob s k f).ebc = s.ebc := rfl
@[simp] theorem modEvBob_fir (s : State) (k : Fin 4) (f : EvBob → EvBob) : (modEvBob s k f).fir = s.fir := rfl
@[simp] theorem modEvBob_nhd (s : State) (k : Fin 4) (f : EvBob → EvBob) : (modEvBob s k f).nhd = s.nhd := rfl
@[simp] theorem modEvBob_hlk (s : State) (k : Fin 4) (f : EvBob → EvBob) : (modEvBob s k f).hlk = s.hlk := rfl
@[simp] theorem modEvBob_cam (s : State) (k : Fin 4) (f : EvBob → EvBob) : (modEvBob s k f).cam = s.cam := rfl
@[simp] theorem modEvBob_mot (s : State) (k : Fin 4) (f : EvBob → EvBob) : (modEvBob s k f).mot = s.mot := rfl
@[simp] theorem modEvBob_hkp (s : State) (k : Fin 4) (f : EvBob → EvBob) : (modEvBob s k f).hkp = s.hkp := rfl
@[simp] theorem modEvBob_lgt (s : State) (k : Fin 4) (f : EvBob → EvBob) : (modEvBob s k f).lgt = s.lgt := rfl
@[simp] theorem modEvBob_cal (s : State) (k : Fin 4) (f : EvBob → EvBob) : (modEvBob s k f).cal = s.cal := rfl
@[simp] theorem modEvBob_eth (s : State) (k : Fin 4) (f : EvBob → EvBob) : (modEvBob s k f).eth = s.eth := rfl
@[simp] theorem modEvBob_ethq (s : State) (k : Fin 4) (f : EvBob → EvBob) : (modEvBob s k f).ethq = s.ethq := rfl
@[simp] theorem modEvBob_seq (s : State) (k : Fin 4) (f : EvBob → EvBob) : (modEvBob s k f).seq = s.seq := rfl
@[simp] theorem modEvBob_ep (s : State) (k : Fin 4) (f : EvBob → EvBob) : (modEvBob s k f).ep = s.ep := rfl
@[simp] theorem modEvBob_drc (s : State) (k : Fin 4) (f : EvBob → EvBob) : (modEvBob s k f).drc = s.drc := rfl
@[simp] theorem modEvBob_drcx (s : State) (k : Fin 4) (f : EvBob → EvBob) : (modEvBob s k f).drcx = s.drcx := rfl
@[simp] theorem modEvBob_dram (s : State) (k : Fin 4) (f : EvBob → EvBob) : (modEvBob s k f).dram = s.dram := rfl
@[simp] theorem modEvBob_sram (s : State) (k : Fin 4) (f : EvBob → EvBob) : (modEvBob s k f).sram = s.sram := rfl
@[simp] theorem modEvBob_hostMem (s : State) (k : Fin 4) (f : EvBob → EvBob) : (modEvBob s k f).hostMem = s.hostMem := rfl
@[simp] theorem modEvBob_flash (s : State) (k : Fin 4) (f : EvBob → EvBob) : (modEvBob s k f).flash = s.flash := rfl
@[simp] theorem modEvBob_evt_bobs (s : State) (k : Fin 4) (f : EvBob → EvBob) : (modEvBob s k f).evt.bobs = vmod s.evt.bobs k f := rfl

/-! ### modChan -/
@[simp] theorem modChan_pending (s : State) (n : Fin 46) (f : HkpCh → HkpCh) : (modChan s n f).pending = s.pending := rfl
@[simp] theorem modChan_ct (s : State) (n : Fin 46) (f : HkpCh → HkpCh) : (modChan s n f).ct = s.ct := rfl
@[simp] theorem modChan_freeCtr (s : State) (n : Fin 46) (f : HkpCh → HkpCh) : (modChan s n f).freeCtr = s.freeCtr := rfl
@[simp] theorem modChan_out (s : State) (n : Fin 46) (f : HkpCh → HkpCh) : (modChan s n f).out = s.out := rfl
@[simp] theorem modChan_glb (s : State) (n : Fin 46) (f : HkpCh → HkpCh) : (modChan s n f).glb = s.glb := rfl
@[simp] theorem modChan_fw (s : State) (n : Fin 46) (f : HkpCh → HkpCh) : (modChan s n f).fw = s.fw := rfl
@[simp] theorem modChan_bob (s : State) (n : Fin 46) (f : HkpCh → HkpCh) : (modChan s n f).bob = s.bob := rfl
@[simp] theorem modChan_cmd (s : State) (n : Fin 46) (f : HkpCh → HkpCh) : (modChan s n f).cmd = s.cmd := rfl
@[simp] theorem modChan_evt (s : State) (n : Fin 46) (f : HkpCh → HkpCh) : (modChan s n f).evt = s.evt := rfl
@[simp] theorem modChan_tim (s : State) (n : Fin 46) (f : HkpCh → HkpCh) : (modChan s n f).tim = s.tim := rfl
@[simp] theorem modChan_pdp (s : State) (n : Fin 46) (f : HkpCh → HkpCh) : (modChan s n f).pdp = s.pdp := rfl
@[simp] theorem modChan_ebc (s : State) (n : Fin 46) (f : HkpCh → HkpCh) : (modChan s n f).ebc = s.ebc := rfl
@[simp] theorem modChan_fir (s : State) (n : Fin 46) (f : HkpCh → HkpCh) : (modChan s n f).fir = s.fir := rfl
@[simp] theorem modChan_nhd (s : State) (n : Fin 46) (f : HkpCh → HkpCh) : (modChan s n f).nhd = s.nhd := rfl
@[simp] theorem modChan_hlk (s : State) (n : Fin 46) (f : HkpCh → HkpCh) : (modChan s n f).hlk = s.hlk := rfl
@[simp] theorem modChan_cam (s : State) (n : Fin 46) (f : HkpCh → HkpCh) : (modChan s n f).cam = s.cam := rfl
@[simp] theorem modChan_mot (s : State) (n : Fin 46) (f : HkpCh → HkpCh) : (modChan s n f).mot = s.mot := rfl
@[simp] theorem modChan_lgt (s : State) (n : Fin 46) (f : HkpCh → HkpCh) : (modChan s n f).lgt = s.lgt := rfl
@[simp] theorem modChan_cal (s : State) (n : Fin 46) (f : HkpCh → HkpCh) : (modChan s n f).cal = s.cal := rfl
@[simp] theorem modChan_eth (s : State) (n : Fin 46) (f : HkpCh → HkpCh) : (modChan s n f).eth = s.eth := rfl
@[simp] theorem modChan_ethq (s : State) (n : Fin 46) (f : HkpCh → HkpCh) : (modChan s n f).ethq = s.ethq := rfl
@[simp] theorem modChan_seq (s : State) (n : Fin 46) (f : HkpCh → HkpCh) : (modChan s n f).seq = s.seq := rfl
@[simp] theorem modChan_ep (s : State) (n : Fin 46) (f : HkpCh → HkpCh) : (modChan s n f).ep = s.ep := rfl
@[simp] theorem modChan_drc (s : State) (n : Fin 46) (f : HkpCh → HkpCh) : (modChan s n f).drc = s.drc := rfl
@[simp] theorem modChan_drcx (s : State) (n : Fin 46) (f : HkpCh → HkpCh) : (modChan s n f).drcx = s.drcx := rfl
@[simp] theorem modChan_dram (s : State) (n : Fin 46) (f : HkpCh → HkpCh) : (modChan s n f).dram = s.dram := rfl
@[simp] theorem modChan_sram (s : State) (n : Fin 46) (f : HkpCh → HkpCh) : (modChan s n f).sram = s.sram := rfl
@[simp] theorem modChan_hostMem (s : State) (n : Fin 46) (f : HkpCh → HkpCh) : (modChan s n f).hostMem = s.hostMem := rfl
@[simp] theorem modChan_flash (s : State) (n : Fin 46) (f : HkpCh → HkpCh) : (modChan s n f).flash = s.flash := rfl
@[simp] theorem modChan_hkp_chans (s : State) (n : Fin 46) (f : HkpCh → HkpCh) : (modChan s n f).hkp.chans = vmod s.hkp.chans n f := rfl

/-! ### modGroup -/
@[simp] theorem modGroup_pending (s : State) (g : Fin 9) (f : HkpGroup → HkpGroup) : (modGroup s g f).pending = s.pending := rfl
@[simp] theorem modGroup_ct (s : State) (g : Fin 9) (f : HkpGroup → HkpGroup) : (modGroup s g f).ct = s.ct := rfl
@[simp] theorem modGroup_freeCtr (s : State) (g : Fin 9) (f : HkpGroup → HkpGroup) : (modGroup s g f).freeCtr = s.freeCtr := rfl
@[simp] theorem modGroup_out (s : State) (g : Fin 9) (f : HkpGroup → HkpGroup) : (modGroup s g f).out = s.out := rfl
@[simp] theorem modGroup_glb (s : State) (g : Fin 9) (f : HkpGroup → HkpGroup) : (modGroup s g f).glb = s.glb := rfl
@[simp] theorem modGroup_fw (s : State) (g : Fin 9) (f : HkpGroup → HkpGroup) : (modGroup s g f).fw = s.fw := rfl
@[simp] theorem modGroup_bob (s : State) (g : Fin 9) (f : HkpGroup → HkpGroup) : (modGroup s g f).bob = s.bob := rfl
@[simp] theorem modGroup_cmd (s : State) (g : Fin 9) (f : HkpGroup → HkpGroup) : (modGroup s g f).cmd = s.cmd := rfl
@[simp] theorem modGroup_evt (s : State) (g : Fin 9) (f : HkpGroup → HkpGroup) : (modGroup s g f).evt = s.evt := rfl
@[simp] theorem modGroup_tim (s : State) (g : Fin 9) (f : HkpGroup → HkpGroup) : (modGroup s g f).tim = s.tim := rfl
@[simp] theorem modGroup_pdp (s : State) (g : Fin 9) (f : HkpGroup → HkpGroup) : (modGroup s g f).pdp = s.pdp := rfl
@[simp] theorem modGroup_ebc (s : State) (g : Fin 9) (f : HkpGroup → HkpGroup) : (modGroup s g f).ebc = s.ebc := rfl
@[simp] theorem modGroup_fir (s : State) (g : Fin 9) (f : HkpGroup → HkpGroup) : (modGroup s g f).fir = s.fir := rfl
@[simp] theorem modGroup_nhd (s : State) (g : Fin 9) (f : HkpGroup → HkpGroup) : (modGroup s g f).nhd = s.nhd := rfl
@[simp] theorem modGroup_hlk (s : State) (g : Fin 9) (f : HkpGroup → HkpGroup) : (modGroup s g f).hlk = s.hlk := rfl
@[simp] theorem modGroup_cam (s : State) (g : Fin 9) (f : HkpGroup → HkpGroup) : (modGroup s g f).cam = s.cam := rfl
@[simp] theorem modGroup_mot (s : State) (g : Fin 9) (f : HkpGroup → HkpGroup) : (modGroup s g f).mot = s.mot := rfl
@[simp] theorem modGroup_lgt (s : State) (g : Fin 9) (f : HkpGroup → HkpGroup) : (modGroup s g f).lgt = s.lgt := rfl
@[simp] theorem modGroup_cal (s : State) (g : Fin 9) (f : HkpGroup → HkpGroup) : (modGroup s g f).cal = s.cal := rfl
@[simp] theorem modGroup_eth (s : State) (g : Fin 9) (f : HkpGroup → HkpGroup) : (modGroup s g f).eth = s.eth := rfl
@[simp] theorem modGroup_ethq (s : State) (g : Fin 9) (f : HkpGroup → HkpGroup) : (modGroup s g f).ethq = s.ethq := rfl
@[simp] theorem modGroup_seq (s : State) (g : Fin 9) (f : HkpGroup → HkpGroup) : (modGroup s g f).seq = s.seq := rfl
@[simp] theorem modGroup_ep (s : State) (g : Fin 9) (f : HkpGroup → HkpGroup) : (modGroup s g f).ep = s.ep := rfl
@[simp] theorem modGroup_drc (s : State) (g : Fin 9) (f : HkpGroup → HkpGroup) : (modGroup s g f).drc = s.drc := rfl
@[simp] theorem modGroup_drcx (s : State) (g : Fin 9) (f : HkpGroup → HkpGroup) : (modGroup s g f).drcx = s.drcx := rfl
@[simp] theorem modGroup_dram (s : State) (g : Fin 9) (f : HkpGroup → HkpGroup) : (modGroup s g f).dram = s.dram := rfl
@[simp] theorem modGroup_sram (s : State) (g : Fin 9) (f : HkpGroup → HkpGroup) : (modGroup s g f).sram = s.sram := rfl
@[simp] theorem modGroup_hostMem (s : State) (g : Fin 9) (f : HkpGroup → HkpGroup) : (modGroup s g f).hostMem = s.hostMem := rfl
@[simp] theorem modGroup_flash (s : State) (g : Fin 9) (f : HkpGroup → HkpGroup) : (modGroup s g f).flash = s.flash := rfl
@[simp] theorem modGroup_hkp_groups (s : State) (g : Fin 9) (f : HkpGroup → HkpGroup) : (modGroup s g f).hkp.groups = vmod s.hkp.groups g f := rfl

/-! ### modHead -/
@[simp] theorem modHead_pending (s : State) (p : Fin 16) (f : HkpHead → HkpHead) : (modHead s p f).pending = s.pending := rfl
@[simp] theorem modHead_ct (s : State) (p : Fin 16) (f : HkpHead → HkpHead) : (modHead s p f).ct = s.ct := rfl
@[simp] theorem modHead_freeCtr (s : State) (p : Fin 16) (f : HkpHead → HkpHead) : (modHead s p f).freeCtr = s.freeCtr := rfl
@[simp] theorem modHead_out (s : State) (p : Fin 16) (f : HkpHead → HkpHead) : (modHead s p f).out = s.out := rfl
@[simp] theorem modHead_glb (s : State) (p : Fin 16) (f : HkpHead → HkpHead) : (modHead s p f).glb = s.glb := rfl
@[simp] theorem modHead_fw (s : State) (p : Fin 16) (f : HkpHead → HkpHead) : (modHead s p f).fw = s.fw := rfl
@[simp] theorem modHead_bob (s : State) (p : Fin 16) (f : HkpHead → HkpHead) : (modHead s p f).bob = s.bob := rfl
@[simp] theorem modHead_cmd (s : State) (p : Fin 16) (f : HkpHead → HkpHead) : (modHead s p f).cmd = s.cmd := rfl
@[simp] theorem modHead_evt (s : State) (p : Fin 16) (f : HkpHead → HkpHead) : (modHead s p f).evt = s.evt := rfl
@[simp] theorem modHead_tim (s : State) (p : Fin 16) (f : HkpHead → HkpHead) : (modHead s p f).tim = s.tim := rfl
@[simp] theorem modHead_pdp (s : State) (p : Fin 16) (f : HkpHead → HkpHead) : (modHead s p f).pdp = s.pdp := rfl
@[simp] theorem modHead_ebc (s : State) (p : Fin 16) (f : HkpHead → HkpHead) : (modHead s p f).ebc = s.ebc := rfl
@[simp] theorem modHead_fir (s : State) (p : Fin 16) (f : HkpHead → HkpHead) : (modHead s p f).fir = s.fir := rfl
@[simp] theorem modHead_nhd (s : State) (p : Fin 16) (f : HkpHead → HkpHead) : (modHead s p f).nhd = s.nhd := rfl
@[simp] theorem modHead_hlk (s : State) (p : Fin 16) (f : HkpHead → HkpHead) : (modHead s p f).hlk = s.hlk := rfl
@[simp] theorem modHead_cam (s : State) (p : Fin 16) (f : HkpHead → HkpHead) : (modHead s p f).cam = s.cam := rfl
@[simp] theorem modHead_mot (s : State) (p : Fin 16) (f : HkpHead → HkpHead) : (modHead s p f).mot = s.mot := rfl
@[simp] theorem modHead_lgt (s : State) (p : Fin 16) (f : HkpHead → HkpHead) : (modHead s p f).lgt = s.lgt := rfl
@[simp] theorem modHead_cal (s : State) (p : Fin 16) (f : HkpHead → HkpHead) : (modHead s p f).cal = s.cal := rfl
@[simp] theorem modHead_eth (s : State) (p : Fin 16) (f : HkpHead → HkpHead) : (modHead s p f).eth = s.eth := rfl
@[simp] theorem modHead_ethq (s : State) (p : Fin 16) (f : HkpHead → HkpHead) : (modHead s p f).ethq = s.ethq := rfl
@[simp] theorem modHead_seq (s : State) (p : Fin 16) (f : HkpHead → HkpHead) : (modHead s p f).seq = s.seq := rfl
@[simp] theorem modHead_ep (s : State) (p : Fin 16) (f : HkpHead → HkpHead) : (modHead s p f).ep = s.ep := rfl
@[simp] theorem modHead_drc (s : State) (p : Fin 16) (f : HkpHead → HkpHead) : (modHead s p f).drc = s.drc := rfl
@[simp] theorem modHead_drcx (s : State) (p : Fin 16) (f : HkpHead → HkpHead) : (modHead s p f).drcx = s.drcx := rfl
@[simp] theorem modHead_dram (s : State) (p : Fin 16) (f : HkpHead → HkpHead) : (modHead s p f).dram = s.dram := rfl
@[simp] theorem modHead_sram (s : State) (p : Fin 16) (f : HkpHead → HkpHead) : (modHead s p f).sram = s.sram := rfl
@[simp] theorem modHead_hostMem (s : State) (p : Fin 16) (f : HkpHead → HkpHead) : (modHead s p f).hostMem = s.hostMem := rfl
@[simp] theorem modHead_flash (s : State) (p : Fin 16) (f : HkpHead → HkpHead) : (modHead s p f).flash = s.flash := rfl
@[simp] theorem modHead_hkp_heads (s : State) (p : Fin 16) (f : HkpHead → HkpHead) : (modHead s p f).hkp.heads = vmod s.hkp.heads p f := rfl

/-! ### modSq -/
@[simp] theorem modSq_pending (s : State) (q : Fin 2) (f : Sq → Sq) : (modSq s q f).pending = s.pending := rfl
@[simp] theorem modSq_ct (s : State) (q : Fin 2) (f : Sq → Sq) : (modSq s q f).ct = s.ct := rfl
@[simp] theorem modSq_freeCtr (s : State) (q : Fin 2) (f : Sq → Sq) : (modSq s q f).freeCtr = s.freeCtr := rfl
@[simp] theorem modSq_out (s : State) (q : Fin 2) (f : Sq → Sq) : (modSq s q f).out = s.out := rfl
@[simp] theorem modSq_glb (s : State) (q : Fin 2) (f : Sq → Sq) : (modSq s q f).glb = s.glb := rfl
@[simp] theorem modSq_fw (s : State) (q : Fin 2) (f : Sq → Sq) : (modSq s q f).fw = s.fw := rfl
@[simp] theorem modSq_bob (s : State) (q : Fin 2) (f : Sq → Sq) : (modSq s q f).bob = s.bob := rfl
@[simp] theorem modSq_cmd (s : State) (q : Fin 2) (f : Sq → Sq) : (modSq s q f).cmd = s.cmd := rfl
@[simp] theorem modSq_evt (s : State) (q : Fin 2) (f : Sq → Sq) : (modSq s q f).evt = s.evt := rfl
@[simp] theorem modSq_tim (s : State) (q : Fin 2) (f : Sq → Sq) : (modSq s q f).tim = s.tim := rfl
@[simp] theorem modSq_pdp (s : State) (q : Fin 2) (f : Sq → Sq) : (modSq s q f).pdp = s.pdp := rfl
@[simp] theorem modSq_ebc (s : State) (q : Fin 2) (f : Sq → Sq) : (modSq s q f).ebc = s.ebc := rfl
@[simp] theorem modSq_fir (s : State) (q : Fin 2) (f : Sq → Sq) : (modSq s q f).fir = s.fir := rfl
@[simp] theorem modSq_nhd (s : State) (q : Fin 2) (f : Sq → Sq) : (modSq s q f).nhd = s.nhd := rfl
@[simp] theorem modSq_hlk (s : State) (q : Fin 2) (f : Sq → Sq) : (modSq s q f).hlk = s.hlk := rfl
@[simp] theorem modSq_cam (s : State) (q : Fin 2) (f : Sq → Sq) : (modSq s q f).cam = s.cam := rfl
@[simp] theorem modSq_mot (s : State) (q : Fin 2) (f : Sq → Sq) : (modSq s q f).mot = s.mot := rfl
@[simp] theorem modSq_hkp (s : State) (q : Fin 2) (f : Sq → Sq) : (modSq s q f).hkp = s.hkp := rfl
@[simp] theorem modSq_lgt (s : State) (q : Fin 2) (f : Sq → Sq) : (modSq s q f).lgt = s.lgt := rfl
@[simp] theorem modSq_cal (s : State) (q : Fin 2) (f : Sq → Sq) : (modSq s q f).cal = s.cal := rfl
@[simp] theorem modSq_eth (s : State) (q : Fin 2) (f : Sq → Sq) : (modSq s q f).eth = s.eth := rfl
@[simp] theorem modSq_ethq (s : State) (q : Fin 2) (f : Sq → Sq) : (modSq s q f).ethq = s.ethq := rfl
@[simp] theorem modSq_ep (s : State) (q : Fin 2) (f : Sq → Sq) : (modSq s q f).ep = s.ep := rfl
@[simp] theorem modSq_drc (s : State) (q : Fin 2) (f : Sq → Sq) : (modSq s q f).drc = s.drc := rfl
@[simp] theorem modSq_drcx (s : State) (q : Fin 2) (f : Sq → Sq) : (modSq s q f).drcx = s.drcx := rfl
@[simp] theorem modSq_dram (s : State) (q : Fin 2) (f : Sq → Sq) : (modSq s q f).dram = s.dram := rfl
@[simp] theorem modSq_sram (s : State) (q : Fin 2) (f : Sq → Sq) : (modSq s q f).sram = s.sram := rfl
@[simp] theorem modSq_hostMem (s : State) (q : Fin 2) (f : Sq → Sq) : (modSq s q f).hostMem = s.hostMem := rfl
@[simp] theorem modSq_flash (s : State) (q : Fin 2) (f : Sq → Sq) : (modSq s q f).flash = s.flash := rfl
@[simp] theorem modSq_seq_sqs (s : State) (q : Fin 2) (f : Sq → Sq) : (modSq s q f).seq.sqs = vmod s.seq.sqs q f := rfl

/-! ### modTack -/
@[simp] theorem modTack_pending (s : State) (n : Fin 32) (f : Tack → Tack) : (modTack s n f).pending = s.pending := rfl
@[simp] theorem modTack_ct (s : State) (n : Fin 32) (f : Tack → Tack) : (modTack s n f).ct = s.ct := rfl
@[simp] theorem modTack_freeCtr (s : State) (n : Fin 32) (f : Tack → Tack) : (modTack s n f).freeCtr = s.freeCtr := rfl
@[simp] theorem modTack_out (s : State) (n : Fin 32) (f : Tack → Tack) : (modTack s n f).out = s.out := rfl
@[simp] theorem modTack_glb (s : State) (n : Fin 32) (f : Tack → Tack) : (modTack s n f).glb = s.glb := rfl
@[simp] theorem modTack_fw (s : State) (n : Fin 32) (f : Tack → Tack) : (modTack s n f).fw = s.fw := rfl
@[simp] theorem modTack_bob (s : State) (n : Fin 32) (f : Tack → Tack) : (modTack s n f).bob = s.bob := rfl
@[simp] theorem modTack_cmd (s : State) (n : Fin 32) (f : Tack → Tack) : (modTack s n f).cmd = s.cmd := rfl
@[simp] theorem modTack_evt (s : State) (n : Fin 32) (f : Tack → Tack) : (modTack s n f).evt = s.evt := rfl
@[simp] theorem modTack_pdp (s : State) (n : Fin 32) (f : Tack → Tack) : (modTack s n f).pdp = s.pdp := rfl
@[simp] theorem modTack_ebc (s : State) (n : Fin 32) (f : Tack → Tack) : (modTack s n f).ebc = s.ebc := rfl
@[simp] theorem modTack_fir (s : State) (n : Fin 32) (f : Tack → Tack) : (modTack s n f).fir = s.fir := rfl
@[simp] theorem modTack_nhd (s : State) (n : Fin 32) (f : Tack → Tack) : (modTack s n f).nhd = s.nhd := rfl
@[simp] theorem modTack_hlk (s : State) (n : Fin 32) (f : Tack → Tack) : (modTack s n f).hlk = s.hlk := rfl
@[simp] theorem modTack_cam (s : State) (n : Fin 32) (f : Tack → Tack) : (modTack s n f).cam = s.cam := rfl
@[simp] theorem modTack_mot (s : State) (n : Fin 32) (f : Tack → Tack) : (modTack s n f).mot = s.mot := rfl
@[simp] theorem modTack_hkp (s : State) (n : Fin 32) (f : Tack → Tack) : (modTack s n f).hkp = s.hkp := rfl
@[simp] theorem modTack_lgt (s : State) (n : Fin 32) (f : Tack → Tack) : (modTack s n f).lgt = s.lgt := rfl
@[simp] theorem modTack_cal (s : State) (n : Fin 32) (f : Tack → Tack) : (modTack s n f).cal = s.cal := rfl
@[simp] theorem modTack_eth (s : State) (n : Fin 32) (f : Tack → Tack) : (modTack s n f).eth = s.eth := rfl
@[simp] theorem modTack_ethq (s : State) (n : Fin 32) (f : Tack → Tack) : (modTack s n f).ethq = s.ethq := rfl
@[simp] theorem modTack_seq (s : State) (n : Fin 32) (f : Tack → Tack) : (modTack s n f).seq = s.seq := rfl
@[simp] theorem modTack_ep (s : State) (n : Fin 32) (f : Tack → Tack) : (modTack s n f).ep = s.ep := rfl
@[simp] theorem modTack_drc (s : State) (n : Fin 32) (f : Tack → Tack) : (modTack s n f).drc = s.drc := rfl
@[simp] theorem modTack_drcx (s : State) (n : Fin 32) (f : Tack → Tack) : (modTack s n f).drcx = s.drcx := rfl
@[simp] theorem modTack_dram (s : State) (n : Fin 32) (f : Tack → Tack) : (modTack s n f).dram = s.dram := rfl
@[simp] theorem modTack_sram (s : State) (n : Fin 32) (f : Tack → Tack) : (modTack s n f).sram = s.sram := rfl
@[simp] theorem modTack_hostMem (s : State) (n : Fin 32) (f : Tack → Tack) : (modTack s n f).hostMem = s.hostMem := rfl
@[simp] theorem modTack_flash (s : State) (n : Fin 32) (f : Tack → Tack) : (modTack s n f).flash = s.flash := rfl
@[simp] theorem modTack_tim_tacks (s : State) (n : Fin 32) (f : Tack → Tack) : (modTack s n f).tim.tacks = vmod s.tim.tacks n f := rfl

/-! ### modTb -/
@[simp] theorem modTb_pending (s : State) (b : Fin 4) (f : TimeBase → TimeBase) : (modTb s b f).pending = s.pending := rfl
@[simp] theorem modTb_ct (s : State) (b : Fin 4) (f : TimeBase → TimeBase) : (modTb s b f).ct = s.ct := rfl
@[simp] theorem modTb_freeCtr (s : State) (b : Fin 4) (f : TimeBase → TimeBase) : (modTb s b f).freeCtr = s.freeCtr := rfl
@[simp] theorem modTb_out (s : State) (b : Fin 4) (f : TimeBase → TimeBase) : (modTb s b f).out = s.out := rfl
@[simp] theorem modTb_glb (s : State) (b : Fin 4) (f : TimeBase → TimeBase) : (modTb s b f).glb = s.glb := rfl
@[simp] theorem modTb_fw (s : State) (b : Fin 4) (f : TimeBase → TimeBase) : (modTb s b f).fw = s.fw := rfl
@[simp] theorem modTb_bob (s : State) (b : Fin 4) (f : TimeBase → TimeBase) : (modTb s b f).bob = s.bob := rfl
@[simp] theorem modTb_cmd (s : State) (b : Fin 4) (f : TimeBase → TimeBase) : (modTb s b f).cmd = s.cmd := rfl
@[simp] theorem modTb_evt (s : State) (b : Fin 4) (f : TimeBase → TimeBase) : (modTb s b f).evt = s.evt := rfl
@[simp] theorem modTb_pdp (s : State) (b : Fin 4) (f : TimeBase → TimeBase) : (modTb s b f).pdp = s.pdp := rfl
@[simp] theorem modTb_ebc (s : State) (b : Fin 4) (f : TimeBase → TimeBase) : (modTb s b f).ebc = s.ebc := rfl
@[simp] theorem modTb_fir (s : State) (b : Fin 4) (f : TimeBase → TimeBase) : (modTb s b f).fir = s.fir := rfl
@[simp] theorem modTb_nhd (s : State) (b : Fin 4) (f : TimeBase → TimeBase) : (modTb s b f).nhd = s.nhd := rfl
@[simp] theorem modTb_hlk (s : State) (b : Fin 4) (f : TimeBase → TimeBase) : (modTb s b f).hlk = s.hlk := rfl
@[simp] theorem modTb_cam (s : State) (b : Fin 4) (f : TimeBase → TimeBase) : (modTb s b f).cam = s.cam := rfl
@[simp] theorem modTb_mot (s : State) (b : Fin 4) (f : TimeBase → TimeBase) : (modTb s b f).mot = s.mot := rfl
@[simp] theorem modTb_hkp (s : State) (b : Fin 4) (f : TimeBase → TimeBase) : (modTb s b f).hkp = s.hkp := rfl
@[simp] theorem modTb_lgt (s : State) (b : Fin 4) (f : TimeBase → TimeBase) : (modTb s b f).lgt = s.lgt := rfl
@[simp] theorem modTb_cal (s : State) (b : Fin 4) (f : TimeBase → TimeBase) : (modTb s b f).cal = s.cal := rfl
@[simp] theorem modTb_eth (s : State) (b : Fin 4) (f : TimeBase → TimeBase) : (modTb s b f).eth = s.eth := rfl
@[simp] theorem modTb_ethq (s : State) (b : Fin 4) (f : TimeBase → TimeBase) : (modTb s b f).ethq = s.ethq := rfl
@[simp] theorem modTb_seq (s : State) (b : Fin 4) (f : TimeBase → TimeBase) : (modTb s b f).seq = s.seq := rfl
@[simp] theorem modTb_ep (s : State) (b : Fin 4) (f : TimeBase → TimeBase) : (modTb s b f).ep = s.ep := rfl
@[simp] theorem modTb_drc (s : State) (b : Fin 4) (f : TimeBase → TimeBase) : (modTb s b f).drc = s.drc := rfl
@[simp] theorem modTb_drcx (s : State) (b : Fin 4) (f : TimeBase → TimeBase) : (modTb s b f).drcx = s.drcx := rfl
@[simp] theorem modTb_dram (s : State) (b : Fin 4) (f : TimeBase → TimeBase) : (modTb s b f).dram = s.dram := rfl
@[simp] theorem modTb_sram (s : State) (b : Fin 4) (f : TimeBase → TimeBase) : (modTb s b f).sram = s.sram := rfl
@[simp] theorem modTb_hostMem (s : State) (b : Fin 4) (f : TimeBase → TimeBase) : (modTb s b f).hostMem = s.hostMem := rfl
@[simp] theorem modTb_flash (s : State) (b : Fin 4) (f : TimeBase → TimeBase) : (modTb s b f).flash = s.flash := rfl
@[simp] theorem modTb_tim_tbs (s : State) (b : Fin 4) (f : TimeBase → TimeBase) : (modTb s b f).tim.tbs = vmod s.tim.tbs b f := rfl

/-! ### stageReply -/
@[simp] theorem stageReply_pending (s : State) (p : Fin 4) (tag op : BitVec 16) (status detail : Nat) (results : List Word) (interim : Bool) : (stageReply s p tag op status detail results interim).pending = s.pending := rfl
@[simp] theorem stageReply_ct (s : State) (p : Fin 4) (tag op : BitVec 16) (status detail : Nat) (results : List Word) (interim : Bool) : (stageReply s p tag op status detail results interim).ct = s.ct := rfl
@[simp] theorem stageReply_freeCtr (s : State) (p : Fin 4) (tag op : BitVec 16) (status detail : Nat) (results : List Word) (interim : Bool) : (stageReply s p tag op status detail results interim).freeCtr = s.freeCtr := rfl
@[simp] theorem stageReply_out (s : State) (p : Fin 4) (tag op : BitVec 16) (status detail : Nat) (results : List Word) (interim : Bool) : (stageReply s p tag op status detail results interim).out = s.out := rfl
@[simp] theorem stageReply_glb (s : State) (p : Fin 4) (tag op : BitVec 16) (status detail : Nat) (results : List Word) (interim : Bool) : (stageReply s p tag op status detail results interim).glb = s.glb := rfl
@[simp] theorem stageReply_fw (s : State) (p : Fin 4) (tag op : BitVec 16) (status detail : Nat) (results : List Word) (interim : Bool) : (stageReply s p tag op status detail results interim).fw = s.fw := rfl
@[simp] theorem stageReply_evt (s : State) (p : Fin 4) (tag op : BitVec 16) (status detail : Nat) (results : List Word) (interim : Bool) : (stageReply s p tag op status detail results interim).evt = s.evt := rfl
@[simp] theorem stageReply_tim (s : State) (p : Fin 4) (tag op : BitVec 16) (status detail : Nat) (results : List Word) (interim : Bool) : (stageReply s p tag op status detail results interim).tim = s.tim := rfl
@[simp] theorem stageReply_pdp (s : State) (p : Fin 4) (tag op : BitVec 16) (status detail : Nat) (results : List Word) (interim : Bool) : (stageReply s p tag op status detail results interim).pdp = s.pdp := rfl
@[simp] theorem stageReply_ebc (s : State) (p : Fin 4) (tag op : BitVec 16) (status detail : Nat) (results : List Word) (interim : Bool) : (stageReply s p tag op status detail results interim).ebc = s.ebc := rfl
@[simp] theorem stageReply_fir (s : State) (p : Fin 4) (tag op : BitVec 16) (status detail : Nat) (results : List Word) (interim : Bool) : (stageReply s p tag op status detail results interim).fir = s.fir := rfl
@[simp] theorem stageReply_nhd (s : State) (p : Fin 4) (tag op : BitVec 16) (status detail : Nat) (results : List Word) (interim : Bool) : (stageReply s p tag op status detail results interim).nhd = s.nhd := rfl
@[simp] theorem stageReply_hlk (s : State) (p : Fin 4) (tag op : BitVec 16) (status detail : Nat) (results : List Word) (interim : Bool) : (stageReply s p tag op status detail results interim).hlk = s.hlk := rfl
@[simp] theorem stageReply_cam (s : State) (p : Fin 4) (tag op : BitVec 16) (status detail : Nat) (results : List Word) (interim : Bool) : (stageReply s p tag op status detail results interim).cam = s.cam := rfl
@[simp] theorem stageReply_mot (s : State) (p : Fin 4) (tag op : BitVec 16) (status detail : Nat) (results : List Word) (interim : Bool) : (stageReply s p tag op status detail results interim).mot = s.mot := rfl
@[simp] theorem stageReply_hkp (s : State) (p : Fin 4) (tag op : BitVec 16) (status detail : Nat) (results : List Word) (interim : Bool) : (stageReply s p tag op status detail results interim).hkp = s.hkp := rfl
@[simp] theorem stageReply_lgt (s : State) (p : Fin 4) (tag op : BitVec 16) (status detail : Nat) (results : List Word) (interim : Bool) : (stageReply s p tag op status detail results interim).lgt = s.lgt := rfl
@[simp] theorem stageReply_cal (s : State) (p : Fin 4) (tag op : BitVec 16) (status detail : Nat) (results : List Word) (interim : Bool) : (stageReply s p tag op status detail results interim).cal = s.cal := rfl
@[simp] theorem stageReply_eth (s : State) (p : Fin 4) (tag op : BitVec 16) (status detail : Nat) (results : List Word) (interim : Bool) : (stageReply s p tag op status detail results interim).eth = s.eth := rfl
@[simp] theorem stageReply_ethq (s : State) (p : Fin 4) (tag op : BitVec 16) (status detail : Nat) (results : List Word) (interim : Bool) : (stageReply s p tag op status detail results interim).ethq = s.ethq := rfl
@[simp] theorem stageReply_seq (s : State) (p : Fin 4) (tag op : BitVec 16) (status detail : Nat) (results : List Word) (interim : Bool) : (stageReply s p tag op status detail results interim).seq = s.seq := rfl
@[simp] theorem stageReply_ep (s : State) (p : Fin 4) (tag op : BitVec 16) (status detail : Nat) (results : List Word) (interim : Bool) : (stageReply s p tag op status detail results interim).ep = s.ep := rfl
@[simp] theorem stageReply_drc (s : State) (p : Fin 4) (tag op : BitVec 16) (status detail : Nat) (results : List Word) (interim : Bool) : (stageReply s p tag op status detail results interim).drc = s.drc := rfl
@[simp] theorem stageReply_drcx (s : State) (p : Fin 4) (tag op : BitVec 16) (status detail : Nat) (results : List Word) (interim : Bool) : (stageReply s p tag op status detail results interim).drcx = s.drcx := rfl
@[simp] theorem stageReply_dram (s : State) (p : Fin 4) (tag op : BitVec 16) (status detail : Nat) (results : List Word) (interim : Bool) : (stageReply s p tag op status detail results interim).dram = s.dram := rfl
@[simp] theorem stageReply_sram (s : State) (p : Fin 4) (tag op : BitVec 16) (status detail : Nat) (results : List Word) (interim : Bool) : (stageReply s p tag op status detail results interim).sram = s.sram := rfl
@[simp] theorem stageReply_hostMem (s : State) (p : Fin 4) (tag op : BitVec 16) (status detail : Nat) (results : List Word) (interim : Bool) : (stageReply s p tag op status detail results interim).hostMem = s.hostMem := rfl
@[simp] theorem stageReply_flash (s : State) (p : Fin 4) (tag op : BitVec 16) (status detail : Nat) (results : List Word) (interim : Bool) : (stageReply s p tag op status detail results interim).flash = s.flash := rfl

end Sys2Proof.Machine
end

