-- ==== Sys2Proof/Laws/Shared.lean ====
section
/-! SUPPORT. What the operations all blocks share change, and what they leave alone: the passing of time, causes of FAULT_N, readiness, messages, halts, memory writes, write-backs. -/

namespace Sys2Proof.Machine

open Sys2Proof

/-! ### advance -/
theorem advance_only (s : State) (n : Nat) : ∃ ct' tim', advance s n = { s with ct := ct', tim := tim' } := by unfold advance; split <;> exact ⟨_, _, rfl⟩
@[simp] theorem advance_pending (s : State) (n : Nat) : (advance s n).pending = s.pending := match advance_only s n with | ⟨_, _, h⟩ => (congrArg State.pending h :)
@[simp] theorem advance_freeCtr (s : State) (n : Nat) : (advance s n).freeCtr = s.freeCtr := match advance_only s n with | ⟨_, _, h⟩ => (congrArg State.freeCtr h :)
@[simp] theorem advance_out (s : State) (n : Nat) : (advance s n).out = s.out := match advance_only s n with | ⟨_, _, h⟩ => (congrArg State.out h :)
@[simp] theorem advance_glb (s : State) (n : Nat) : (advance s n).glb = s.glb := match advance_only s n with | ⟨_, _, h⟩ => (congrArg State.glb h :)
@[simp] theorem advance_fw (s : State) (n : Nat) : (advance s n).fw = s.fw := match advance_only s n with | ⟨_, _, h⟩ => (congrArg State.fw h :)
@[simp] theorem advance_bob (s : State) (n : Nat) : (advance s n).bob = s.bob := match advance_only s n with | ⟨_, _, h⟩ => (congrArg State.bob h :)
@[simp] theorem advance_cmd (s : State) (n : Nat) : (advance s n).cmd = s.cmd := match advance_only s n with | ⟨_, _, h⟩ => (congrArg State.cmd h :)
@[simp] theorem advance_evt (s : State) (n : Nat) : (advance s n).evt = s.evt := match advance_only s n with | ⟨_, _, h⟩ => (congrArg State.evt h :)
@[simp] theorem advance_pdp (s : State) (n : Nat) : (advance s n).pdp = s.pdp := match advance_only s n with | ⟨_, _, h⟩ => (congrArg State.pdp h :)
@[simp] theorem advance_ebc (s : State) (n : Nat) : (advance s n).ebc = s.ebc := match advance_only s n with | ⟨_, _, h⟩ => (congrArg State.ebc h :)
@[simp] theorem advance_fir (s : State) (n : Nat) : (advance s n).fir = s.fir := match advance_only s n with | ⟨_, _, h⟩ => (congrArg State.fir h :)
@[simp] theorem advance_nhd (s : State) (n : Nat) : (advance s n).nhd = s.nhd := match advance_only s n with | ⟨_, _, h⟩ => (congrArg State.nhd h :)
@[simp] theorem advance_hlk (s : State) (n : Nat) : (advance s n).hlk = s.hlk := match advance_only s n with | ⟨_, _, h⟩ => (congrArg State.hlk h :)
@[simp] theorem advance_cam (s : State) (n : Nat) : (advance s n).cam = s.cam := match advance_only s n with | ⟨_, _, h⟩ => (congrArg State.cam h :)
@[simp] theorem advance_mot (s : State) (n : Nat) : (advance s n).mot = s.mot := match advance_only s n with | ⟨_, _, h⟩ => (congrArg State.mot h :)
@[simp] theorem advance_hkp (s : State) (n : Nat) : (advance s n).hkp = s.hkp := match advance_only s n with | ⟨_, _, h⟩ => (congrArg State.hkp h :)
@[simp] theorem advance_lgt (s : State) (n : Nat) : (advance s n).lgt = s.lgt := match advance_only s n with | ⟨_, _, h⟩ => (congrArg State.lgt h :)
@[simp] theorem advance_cal (s : State) (n : Nat) : (advance s n).cal = s.cal := match advance_only s n with | ⟨_, _, h⟩ => (congrArg State.cal h :)
@[simp] theorem advance_eth (s : State) (n : Nat) : (advance s n).eth = s.eth := match advance_only s n with | ⟨_, _, h⟩ => (congrArg State.eth h :)
@[simp] theorem advance_ethq (s : State) (n : Nat) : (advance s n).ethq = s.ethq := match advance_only s n with | ⟨_, _, h⟩ => (congrArg State.ethq h :)
@[simp] theorem advance_seq (s : State) (n : Nat) : (advance s n).seq = s.seq := match advance_only s n with | ⟨_, _, h⟩ => (congrArg State.seq h :)
@[simp] theorem advance_ep (s : State) (n : Nat) : (advance s n).ep = s.ep := match advance_only s n with | ⟨_, _, h⟩ => (congrArg State.ep h :)
@[simp] theorem advance_drc (s : State) (n : Nat) : (advance s n).drc = s.drc := match advance_only s n with | ⟨_, _, h⟩ => (congrArg State.drc h :)
@[simp] theorem advance_drcx (s : State) (n : Nat) : (advance s n).drcx = s.drcx := match advance_only s n with | ⟨_, _, h⟩ => (congrArg State.drcx h :)
@[simp] theorem advance_dram (s : State) (n : Nat) : (advance s n).dram = s.dram := match advance_only s n with | ⟨_, _, h⟩ => (congrArg State.dram h :)
@[simp] theorem advance_sram (s : State) (n : Nat) : (advance s n).sram = s.sram := match advance_only s n with | ⟨_, _, h⟩ => (congrArg State.sram h :)
@[simp] theorem advance_hostMem (s : State) (n : Nat) : (advance s n).hostMem = s.hostMem := match advance_only s n with | ⟨_, _, h⟩ => (congrArg State.hostMem h :)
@[simp] theorem advance_flash (s : State) (n : Nat) : (advance s n).flash = s.flash := match advance_only s n with | ⟨_, _, h⟩ => (congrArg State.flash h :)

/-! ### advanceTo -/
theorem advanceTo_only (s : State) (t : Nat) : ∃ ct' tim', advanceTo s t = { s with ct := ct', tim := tim' } := by exact advance_only s _
@[simp] theorem advanceTo_pending (s : State) (t : Nat) : (advanceTo s t).pending = s.pending := match advanceTo_only s t with | ⟨_, _, h⟩ => (congrArg State.pending h :)
@[simp] theorem advanceTo_freeCtr (s : State) (t : Nat) : (advanceTo s t).freeCtr = s.freeCtr := match advanceTo_only s t with | ⟨_, _, h⟩ => (congrArg State.freeCtr h :)
@[simp] theorem advanceTo_out (s : State) (t : Nat) : (advanceTo s t).out = s.out := match advanceTo_only s t with | ⟨_, _, h⟩ => (congrArg State.out h :)
@[simp] theorem advanceTo_glb (s : State) (t : Nat) : (advanceTo s t).glb = s.glb := match advanceTo_only s t with | ⟨_, _, h⟩ => (congrArg State.glb h :)
@[simp] theorem advanceTo_fw (s : State) (t : Nat) : (advanceTo s t).fw = s.fw := match advanceTo_only s t with | ⟨_, _, h⟩ => (congrArg State.fw h :)
@[simp] theorem advanceTo_bob (s : State) (t : Nat) : (advanceTo s t).bob = s.bob := match advanceTo_only s t with | ⟨_, _, h⟩ => (congrArg State.bob h :)
@[simp] theorem advanceTo_cmd (s : State) (t : Nat) : (advanceTo s t).cmd = s.cmd := match advanceTo_only s t with | ⟨_, _, h⟩ => (congrArg State.cmd h :)
@[simp] theorem advanceTo_evt (s : State) (t : Nat) : (advanceTo s t).evt = s.evt := match advanceTo_only s t with | ⟨_, _, h⟩ => (congrArg State.evt h :)
@[simp] theorem advanceTo_pdp (s : State) (t : Nat) : (advanceTo s t).pdp = s.pdp := match advanceTo_only s t with | ⟨_, _, h⟩ => (congrArg State.pdp h :)
@[simp] theorem advanceTo_ebc (s : State) (t : Nat) : (advanceTo s t).ebc = s.ebc := match advanceTo_only s t with | ⟨_, _, h⟩ => (congrArg State.ebc h :)
@[simp] theorem advanceTo_fir (s : State) (t : Nat) : (advanceTo s t).fir = s.fir := match advanceTo_only s t with | ⟨_, _, h⟩ => (congrArg State.fir h :)
@[simp] theorem advanceTo_nhd (s : State) (t : Nat) : (advanceTo s t).nhd = s.nhd := match advanceTo_only s t with | ⟨_, _, h⟩ => (congrArg State.nhd h :)
@[simp] theorem advanceTo_hlk (s : State) (t : Nat) : (advanceTo s t).hlk = s.hlk := match advanceTo_only s t with | ⟨_, _, h⟩ => (congrArg State.hlk h :)
@[simp] theorem advanceTo_cam (s : State) (t : Nat) : (advanceTo s t).cam = s.cam := match advanceTo_only s t with | ⟨_, _, h⟩ => (congrArg State.cam h :)
@[simp] theorem advanceTo_mot (s : State) (t : Nat) : (advanceTo s t).mot = s.mot := match advanceTo_only s t with | ⟨_, _, h⟩ => (congrArg State.mot h :)
@[simp] theorem advanceTo_hkp (s : State) (t : Nat) : (advanceTo s t).hkp = s.hkp := match advanceTo_only s t with | ⟨_, _, h⟩ => (congrArg State.hkp h :)
@[simp] theorem advanceTo_lgt (s : State) (t : Nat) : (advanceTo s t).lgt = s.lgt := match advanceTo_only s t with | ⟨_, _, h⟩ => (congrArg State.lgt h :)
@[simp] theorem advanceTo_cal (s : State) (t : Nat) : (advanceTo s t).cal = s.cal := match advanceTo_only s t with | ⟨_, _, h⟩ => (congrArg State.cal h :)
@[simp] theorem advanceTo_eth (s : State) (t : Nat) : (advanceTo s t).eth = s.eth := match advanceTo_only s t with | ⟨_, _, h⟩ => (congrArg State.eth h :)
@[simp] theorem advanceTo_ethq (s : State) (t : Nat) : (advanceTo s t).ethq = s.ethq := match advanceTo_only s t with | ⟨_, _, h⟩ => (congrArg State.ethq h :)
@[simp] theorem advanceTo_seq (s : State) (t : Nat) : (advanceTo s t).seq = s.seq := match advanceTo_only s t with | ⟨_, _, h⟩ => (congrArg State.seq h :)
@[simp] theorem advanceTo_ep (s : State) (t : Nat) : (advanceTo s t).ep = s.ep := match advanceTo_only s t with | ⟨_, _, h⟩ => (congrArg State.ep h :)
@[simp] theorem advanceTo_drc (s : State) (t : Nat) : (advanceTo s t).drc = s.drc := match advanceTo_only s t with | ⟨_, _, h⟩ => (congrArg State.drc h :)
@[simp] theorem advanceTo_drcx (s : State) (t : Nat) : (advanceTo s t).drcx = s.drcx := match advanceTo_only s t with | ⟨_, _, h⟩ => (congrArg State.drcx h :)
@[simp] theorem advanceTo_dram (s : State) (t : Nat) : (advanceTo s t).dram = s.dram := match advanceTo_only s t with | ⟨_, _, h⟩ => (congrArg State.dram h :)
@[simp] theorem advanceTo_sram (s : State) (t : Nat) : (advanceTo s t).sram = s.sram := match advanceTo_only s t with | ⟨_, _, h⟩ => (congrArg State.sram h :)
@[simp] theorem advanceTo_hostMem (s : State) (t : Nat) : (advanceTo s t).hostMem = s.hostMem := match advanceTo_only s t with | ⟨_, _, h⟩ => (congrArg State.hostMem h :)
@[simp] theorem advanceTo_flash (s : State) (t : Nat) : (advanceTo s t).flash = s.flash := match advanceTo_only s t with | ⟨_, _, h⟩ => (congrArg State.flash h :)

/-! ### setFault -/
theorem setFault_only (s : State) (b : Nat) (v : Bool) : ∃ glb' evt', setFault s b v = { s with glb := glb', evt := evt' } := by unfold setFault; simp only []; (repeat' split) <;> exact ⟨_, _, rfl⟩
@[simp] theorem setFault_pending (s : State) (b : Nat) (v : Bool) : (setFault s b v).pending = s.pending := match setFault_only s b v with | ⟨_, _, h⟩ => (congrArg State.pending h :)
@[simp] theorem setFault_ct (s : State) (b : Nat) (v : Bool) : (setFault s b v).ct = s.ct := match setFault_only s b v with | ⟨_, _, h⟩ => (congrArg State.ct h :)
@[simp] theorem setFault_freeCtr (s : State) (b : Nat) (v : Bool) : (setFault s b v).freeCtr = s.freeCtr := match setFault_only s b v with | ⟨_, _, h⟩ => (congrArg State.freeCtr h :)
@[simp] theorem setFault_out (s : State) (b : Nat) (v : Bool) : (setFault s b v).out = s.out := match setFault_only s b v with | ⟨_, _, h⟩ => (congrArg State.out h :)
@[simp] theorem setFault_fw (s : State) (b : Nat) (v : Bool) : (setFault s b v).fw = s.fw := match setFault_only s b v with | ⟨_, _, h⟩ => (congrArg State.fw h :)
@[simp] theorem setFault_bob (s : State) (b : Nat) (v : Bool) : (setFault s b v).bob = s.bob := match setFault_only s b v with | ⟨_, _, h⟩ => (congrArg State.bob h :)
@[simp] theorem setFault_cmd (s : State) (b : Nat) (v : Bool) : (setFault s b v).cmd = s.cmd := match setFault_only s b v with | ⟨_, _, h⟩ => (congrArg State.cmd h :)
@[simp] theorem setFault_tim (s : State) (b : Nat) (v : Bool) : (setFault s b v).tim = s.tim := match setFault_only s b v with | ⟨_, _, h⟩ => (congrArg State.tim h :)
@[simp] theorem setFault_pdp (s : State) (b : Nat) (v : Bool) : (setFault s b v).pdp = s.pdp := match setFault_only s b v with | ⟨_, _, h⟩ => (congrArg State.pdp h :)
@[simp] theorem setFault_ebc (s : State) (b : Nat) (v : Bool) : (setFault s b v).ebc = s.ebc := match setFault_only s b v with | ⟨_, _, h⟩ => (congrArg State.ebc h :)
@[simp] theorem setFault_fir (s : State) (b : Nat) (v : Bool) : (setFault s b v).fir = s.fir := match setFault_only s b v with | ⟨_, _, h⟩ => (congrArg State.fir h :)
@[simp] theorem setFault_nhd (s : State) (b : Nat) (v : Bool) : (setFault s b v).nhd = s.nhd := match setFault_only s b v with | ⟨_, _, h⟩ => (congrArg State.nhd h :)
@[simp] theorem setFault_hlk (s : State) (b : Nat) (v : Bool) : (setFault s b v).hlk = s.hlk := match setFault_only s b v with | ⟨_, _, h⟩ => (congrArg State.hlk h :)
@[simp] theorem setFault_cam (s : State) (b : Nat) (v : Bool) : (setFault s b v).cam = s.cam := match setFault_only s b v with | ⟨_, _, h⟩ => (congrArg State.cam h :)
@[simp] theorem setFault_mot (s : State) (b : Nat) (v : Bool) : (setFault s b v).mot = s.mot := match setFault_only s b v with | ⟨_, _, h⟩ => (congrArg State.mot h :)
@[simp] theorem setFault_hkp (s : State) (b : Nat) (v : Bool) : (setFault s b v).hkp = s.hkp := match setFault_only s b v with | ⟨_, _, h⟩ => (congrArg State.hkp h :)
@[simp] theorem setFault_lgt (s : State) (b : Nat) (v : Bool) : (setFault s b v).lgt = s.lgt := match setFault_only s b v with | ⟨_, _, h⟩ => (congrArg State.lgt h :)
@[simp] theorem setFault_cal (s : State) (b : Nat) (v : Bool) : (setFault s b v).cal = s.cal := match setFault_only s b v with | ⟨_, _, h⟩ => (congrArg State.cal h :)
@[simp] theorem setFault_eth (s : State) (b : Nat) (v : Bool) : (setFault s b v).eth = s.eth := match setFault_only s b v with | ⟨_, _, h⟩ => (congrArg State.eth h :)
@[simp] theorem setFault_ethq (s : State) (b : Nat) (v : Bool) : (setFault s b v).ethq = s.ethq := match setFault_only s b v with | ⟨_, _, h⟩ => (congrArg State.ethq h :)
@[simp] theorem setFault_seq (s : State) (b : Nat) (v : Bool) : (setFault s b v).seq = s.seq := match setFault_only s b v with | ⟨_, _, h⟩ => (congrArg State.seq h :)
@[simp] theorem setFault_ep (s : State) (b : Nat) (v : Bool) : (setFault s b v).ep = s.ep := match setFault_only s b v with | ⟨_, _, h⟩ => (congrArg State.ep h :)
@[simp] theorem setFault_drc (s : State) (b : Nat) (v : Bool) : (setFault s b v).drc = s.drc := match setFault_only s b v with | ⟨_, _, h⟩ => (congrArg State.drc h :)
@[simp] theorem setFault_drcx (s : State) (b : Nat) (v : Bool) : (setFault s b v).drcx = s.drcx := match setFault_only s b v with | ⟨_, _, h⟩ => (congrArg State.drcx h :)
@[simp] theorem setFault_dram (s : State) (b : Nat) (v : Bool) : (setFault s b v).dram = s.dram := match setFault_only s b v with | ⟨_, _, h⟩ => (congrArg State.dram h :)
@[simp] theorem setFault_sram (s : State) (b : Nat) (v : Bool) : (setFault s b v).sram = s.sram := match setFault_only s b v with | ⟨_, _, h⟩ => (congrArg State.sram h :)
@[simp] theorem setFault_hostMem (s : State) (b : Nat) (v : Bool) : (setFault s b v).hostMem = s.hostMem := match setFault_only s b v with | ⟨_, _, h⟩ => (congrArg State.hostMem h :)
@[simp] theorem setFault_flash (s : State) (b : Nat) (v : Bool) : (setFault s b v).flash = s.flash := match setFault_only s b v with | ⟨_, _, h⟩ => (congrArg State.flash h :)

/-! ### setReady -/
theorem setReady_only (s : State) (b : Fin 5) : ∃ glb' evt', setReady s b = { s with glb := glb', evt := evt' } := by unfold setReady; split <;> exact ⟨_, _, rfl⟩
@[simp] theorem setReady_pending (s : State) (b : Fin 5) : (setReady s b).pending = s.pending := match setReady_only s b with | ⟨_, _, h⟩ => (congrArg State.pending h :)
@[simp] theorem setReady_ct (s : State) (b : Fin 5) : (setReady s b).ct = s.ct := match setReady_only s b with | ⟨_, _, h⟩ => (congrArg State.ct h :)
@[simp] theorem setReady_freeCtr (s : State) (b : Fin 5) : (setReady s b).freeCtr = s.freeCtr := match setReady_only s b with | ⟨_, _, h⟩ => (congrArg State.freeCtr h :)
@[simp] theorem setReady_out (s : State) (b : Fin 5) : (setReady s b).out = s.out := match setReady_only s b with | ⟨_, _, h⟩ => (congrArg State.out h :)
@[simp] theorem setReady_fw (s : State) (b : Fin 5) : (setReady s b).fw = s.fw := match setReady_only s b with | ⟨_, _, h⟩ => (congrArg State.fw h :)
@[simp] theorem setReady_bob (s : State) (b : Fin 5) : (setReady s b).bob = s.bob := match setReady_only s b with | ⟨_, _, h⟩ => (congrArg State.bob h :)
@[simp] theorem setReady_cmd (s : State) (b : Fin 5) : (setReady s b).cmd = s.cmd := match setReady_only s b with | ⟨_, _, h⟩ => (congrArg State.cmd h :)
@[simp] theorem setReady_tim (s : State) (b : Fin 5) : (setReady s b).tim = s.tim := match setReady_only s b with | ⟨_, _, h⟩ => (congrArg State.tim h :)
@[simp] theorem setReady_pdp (s : State) (b : Fin 5) : (setReady s b).pdp = s.pdp := match setReady_only s b with | ⟨_, _, h⟩ => (congrArg State.pdp h :)
@[simp] theorem setReady_ebc (s : State) (b : Fin 5) : (setReady s b).ebc = s.ebc := match setReady_only s b with | ⟨_, _, h⟩ => (congrArg State.ebc h :)
@[simp] theorem setReady_fir (s : State) (b : Fin 5) : (setReady s b).fir = s.fir := match setReady_only s b with | ⟨_, _, h⟩ => (congrArg State.fir h :)
@[simp] theorem setReady_nhd (s : State) (b : Fin 5) : (setReady s b).nhd = s.nhd := match setReady_only s b with | ⟨_, _, h⟩ => (congrArg State.nhd h :)
@[simp] theorem setReady_hlk (s : State) (b : Fin 5) : (setReady s b).hlk = s.hlk := match setReady_only s b with | ⟨_, _, h⟩ => (congrArg State.hlk h :)
@[simp] theorem setReady_cam (s : State) (b : Fin 5) : (setReady s b).cam = s.cam := match setReady_only s b with | ⟨_, _, h⟩ => (congrArg State.cam h :)
@[simp] theorem setReady_mot (s : State) (b : Fin 5) : (setReady s b).mot = s.mot := match setReady_only s b with | ⟨_, _, h⟩ => (congrArg State.mot h :)
@[simp] theorem setReady_hkp (s : State) (b : Fin 5) : (setReady s b).hkp = s.hkp := match setReady_only s b with | ⟨_, _, h⟩ => (congrArg State.hkp h :)
@[simp] theorem setReady_lgt (s : State) (b : Fin 5) : (setReady s b).lgt = s.lgt := match setReady_only s b with | ⟨_, _, h⟩ => (congrArg State.lgt h :)
@[simp] theorem setReady_cal (s : State) (b : Fin 5) : (setReady s b).cal = s.cal := match setReady_only s b with | ⟨_, _, h⟩ => (congrArg State.cal h :)
@[simp] theorem setReady_eth (s : State) (b : Fin 5) : (setReady s b).eth = s.eth := match setReady_only s b with | ⟨_, _, h⟩ => (congrArg State.eth h :)
@[simp] theorem setReady_ethq (s : State) (b : Fin 5) : (setReady s b).ethq = s.ethq := match setReady_only s b with | ⟨_, _, h⟩ => (congrArg State.ethq h :)
@[simp] theorem setReady_seq (s : State) (b : Fin 5) : (setReady s b).seq = s.seq := match setReady_only s b with | ⟨_, _, h⟩ => (congrArg State.seq h :)
@[simp] theorem setReady_ep (s : State) (b : Fin 5) : (setReady s b).ep = s.ep := match setReady_only s b with | ⟨_, _, h⟩ => (congrArg State.ep h :)
@[simp] theorem setReady_drc (s : State) (b : Fin 5) : (setReady s b).drc = s.drc := match setReady_only s b with | ⟨_, _, h⟩ => (congrArg State.drc h :)
@[simp] theorem setReady_drcx (s : State) (b : Fin 5) : (setReady s b).drcx = s.drcx := match setReady_only s b with | ⟨_, _, h⟩ => (congrArg State.drcx h :)
@[simp] theorem setReady_dram (s : State) (b : Fin 5) : (setReady s b).dram = s.dram := match setReady_only s b with | ⟨_, _, h⟩ => (congrArg State.dram h :)
@[simp] theorem setReady_sram (s : State) (b : Fin 5) : (setReady s b).sram = s.sram := match setReady_only s b with | ⟨_, _, h⟩ => (congrArg State.sram h :)
@[simp] theorem setReady_hostMem (s : State) (b : Fin 5) : (setReady s b).hostMem = s.hostMem := match setReady_only s b with | ⟨_, _, h⟩ => (congrArg State.hostMem h :)
@[simp] theorem setReady_flash (s : State) (b : Fin 5) : (setReady s b).flash = s.flash := match setReady_only s b with | ⟨_, _, h⟩ => (congrArg State.flash h :)

/-! ### sendMsix -/
theorem sendMsix_only (s : State) (v : Nat) : ∃ bob' out', sendMsix s v = { s with bob := bob', out := out' } := by unfold sendMsix; split; exact ⟨_, _, rfl⟩; split <;> exact ⟨_, _, rfl⟩
@[simp] theorem sendMsix_pending (s : State) (v : Nat) : (sendMsix s v).pending = s.pending := match sendMsix_only s v with | ⟨_, _, h⟩ => (congrArg State.pending h :)
@[simp] theorem sendMsix_ct (s : State) (v : Nat) : (sendMsix s v).ct = s.ct := match sendMsix_only s v with | ⟨_, _, h⟩ => (congrArg State.ct h :)
@[simp] theorem sendMsix_freeCtr (s : State) (v : Nat) : (sendMsix s v).freeCtr = s.freeCtr := match sendMsix_only s v with | ⟨_, _, h⟩ => (congrArg State.freeCtr h :)
@[simp] theorem sendMsix_glb (s : State) (v : Nat) : (sendMsix s v).glb = s.glb := match sendMsix_only s v with | ⟨_, _, h⟩ => (congrArg State.glb h :)
@[simp] theorem sendMsix_fw (s : State) (v : Nat) : (sendMsix s v).fw = s.fw := match sendMsix_only s v with | ⟨_, _, h⟩ => (congrArg State.fw h :)
@[simp] theorem sendMsix_cmd (s : State) (v : Nat) : (sendMsix s v).cmd = s.cmd := match sendMsix_only s v with | ⟨_, _, h⟩ => (congrArg State.cmd h :)
@[simp] theorem sendMsix_evt (s : State) (v : Nat) : (sendMsix s v).evt = s.evt := match sendMsix_only s v with | ⟨_, _, h⟩ => (congrArg State.evt h :)
@[simp] theorem sendMsix_tim (s : State) (v : Nat) : (sendMsix s v).tim = s.tim := match sendMsix_only s v with | ⟨_, _, h⟩ => (congrArg State.tim h :)
@[simp] theorem sendMsix_pdp (s : State) (v : Nat) : (sendMsix s v).pdp = s.pdp := match sendMsix_only s v with | ⟨_, _, h⟩ => (congrArg State.pdp h :)
@[simp] theorem sendMsix_ebc (s : State) (v : Nat) : (sendMsix s v).ebc = s.ebc := match sendMsix_only s v with | ⟨_, _, h⟩ => (congrArg State.ebc h :)
@[simp] theorem sendMsix_fir (s : State) (v : Nat) : (sendMsix s v).fir = s.fir := match sendMsix_only s v with | ⟨_, _, h⟩ => (congrArg State.fir h :)
@[simp] theorem sendMsix_nhd (s : State) (v : Nat) : (sendMsix s v).nhd = s.nhd := match sendMsix_only s v with | ⟨_, _, h⟩ => (congrArg State.nhd h :)
@[simp] theorem sendMsix_hlk (s : State) (v : Nat) : (sendMsix s v).hlk = s.hlk := match sendMsix_only s v with | ⟨_, _, h⟩ => (congrArg State.hlk h :)
@[simp] theorem sendMsix_cam (s : State) (v : Nat) : (sendMsix s v).cam = s.cam := match sendMsix_only s v with | ⟨_, _, h⟩ => (congrArg State.cam h :)
@[simp] theorem sendMsix_mot (s : State) (v : Nat) : (sendMsix s v).mot = s.mot := match sendMsix_only s v with | ⟨_, _, h⟩ => (congrArg State.mot h :)
@[simp] theorem sendMsix_hkp (s : State) (v : Nat) : (sendMsix s v).hkp = s.hkp := match sendMsix_only s v with | ⟨_, _, h⟩ => (congrArg State.hkp h :)
@[simp] theorem sendMsix_lgt (s : State) (v : Nat) : (sendMsix s v).lgt = s.lgt := match sendMsix_only s v with | ⟨_, _, h⟩ => (congrArg State.lgt h :)
@[simp] theorem sendMsix_cal (s : State) (v : Nat) : (sendMsix s v).cal = s.cal := match sendMsix_only s v with | ⟨_, _, h⟩ => (congrArg State.cal h :)
@[simp] theorem sendMsix_eth (s : State) (v : Nat) : (sendMsix s v).eth = s.eth := match sendMsix_only s v with | ⟨_, _, h⟩ => (congrArg State.eth h :)
@[simp] theorem sendMsix_ethq (s : State) (v : Nat) : (sendMsix s v).ethq = s.ethq := match sendMsix_only s v with | ⟨_, _, h⟩ => (congrArg State.ethq h :)
@[simp] theorem sendMsix_seq (s : State) (v : Nat) : (sendMsix s v).seq = s.seq := match sendMsix_only s v with | ⟨_, _, h⟩ => (congrArg State.seq h :)
@[simp] theorem sendMsix_ep (s : State) (v : Nat) : (sendMsix s v).ep = s.ep := match sendMsix_only s v with | ⟨_, _, h⟩ => (congrArg State.ep h :)
@[simp] theorem sendMsix_drc (s : State) (v : Nat) : (sendMsix s v).drc = s.drc := match sendMsix_only s v with | ⟨_, _, h⟩ => (congrArg State.drc h :)
@[simp] theorem sendMsix_drcx (s : State) (v : Nat) : (sendMsix s v).drcx = s.drcx := match sendMsix_only s v with | ⟨_, _, h⟩ => (congrArg State.drcx h :)
@[simp] theorem sendMsix_dram (s : State) (v : Nat) : (sendMsix s v).dram = s.dram := match sendMsix_only s v with | ⟨_, _, h⟩ => (congrArg State.dram h :)
@[simp] theorem sendMsix_sram (s : State) (v : Nat) : (sendMsix s v).sram = s.sram := match sendMsix_only s v with | ⟨_, _, h⟩ => (congrArg State.sram h :)
@[simp] theorem sendMsix_hostMem (s : State) (v : Nat) : (sendMsix s v).hostMem = s.hostMem := match sendMsix_only s v with | ⟨_, _, h⟩ => (congrArg State.hostMem h :)
@[simp] theorem sendMsix_flash (s : State) (v : Nat) : (sendMsix s v).flash = s.flash := match sendMsix_only s v with | ⟨_, _, h⟩ => (congrArg State.flash h :)

/-! ### raiseLimited -/
theorem raiseLimited_only (s : State) (num inst period : Nat) (n : Nat) (mk : Nat → Nat × Word × Word × Word) : ∃ evt', raiseLimited s num inst period n mk = { s with evt := evt' } := by unfold raiseLimited; simp only []; split; split <;> exact ⟨_, rfl⟩; exact ⟨_, rfl⟩
@[simp] theorem raiseLimited_pending (s : State) (num inst period : Nat) (n : Nat) (mk : Nat → Nat × Word × Word × Word) : (raiseLimited s num inst period n mk).pending = s.pending := match raiseLimited_only s num inst period n mk with | ⟨_, h⟩ => (congrArg State.pending h :)
@[simp] theorem raiseLimited_ct (s : State) (num inst period : Nat) (n : Nat) (mk : Nat → Nat × Word × Word × Word) : (raiseLimited s num inst period n mk).ct = s.ct := match raiseLimited_only s num inst period n mk with | ⟨_, h⟩ => (congrArg State.ct h :)
@[simp] theorem raiseLimited_freeCtr (s : State) (num inst period : Nat) (n : Nat) (mk : Nat → Nat × Word × Word × Word) : (raiseLimited s num inst period n mk).freeCtr = s.freeCtr := match raiseLimited_only s num inst period n mk with | ⟨_, h⟩ => (congrArg State.freeCtr h :)
@[simp] theorem raiseLimited_out (s : State) (num inst period : Nat) (n : Nat) (mk : Nat → Nat × Word × Word × Word) : (raiseLimited s num inst period n mk).out = s.out := match raiseLimited_only s num inst period n mk with | ⟨_, h⟩ => (congrArg State.out h :)
@[simp] theorem raiseLimited_glb (s : State) (num inst period : Nat) (n : Nat) (mk : Nat → Nat × Word × Word × Word) : (raiseLimited s num inst period n mk).glb = s.glb := match raiseLimited_only s num inst period n mk with | ⟨_, h⟩ => (congrArg State.glb h :)
@[simp] theorem raiseLimited_fw (s : State) (num inst period : Nat) (n : Nat) (mk : Nat → Nat × Word × Word × Word) : (raiseLimited s num inst period n mk).fw = s.fw := match raiseLimited_only s num inst period n mk with | ⟨_, h⟩ => (congrArg State.fw h :)
@[simp] theorem raiseLimited_bob (s : State) (num inst period : Nat) (n : Nat) (mk : Nat → Nat × Word × Word × Word) : (raiseLimited s num inst period n mk).bob = s.bob := match raiseLimited_only s num inst period n mk with | ⟨_, h⟩ => (congrArg State.bob h :)
@[simp] theorem raiseLimited_cmd (s : State) (num inst period : Nat) (n : Nat) (mk : Nat → Nat × Word × Word × Word) : (raiseLimited s num inst period n mk).cmd = s.cmd := match raiseLimited_only s num inst period n mk with | ⟨_, h⟩ => (congrArg State.cmd h :)
@[simp] theorem raiseLimited_tim (s : State) (num inst period : Nat) (n : Nat) (mk : Nat → Nat × Word × Word × Word) : (raiseLimited s num inst period n mk).tim = s.tim := match raiseLimited_only s num inst period n mk with | ⟨_, h⟩ => (congrArg State.tim h :)
@[simp] theorem raiseLimited_pdp (s : State) (num inst period : Nat) (n : Nat) (mk : Nat → Nat × Word × Word × Word) : (raiseLimited s num inst period n mk).pdp = s.pdp := match raiseLimited_only s num inst period n mk with | ⟨_, h⟩ => (congrArg State.pdp h :)
@[simp] theorem raiseLimited_ebc (s : State) (num inst period : Nat) (n : Nat) (mk : Nat → Nat × Word × Word × Word) : (raiseLimited s num inst period n mk).ebc = s.ebc := match raiseLimited_only s num inst period n mk with | ⟨_, h⟩ => (congrArg State.ebc h :)
@[simp] theorem raiseLimited_fir (s : State) (num inst period : Nat) (n : Nat) (mk : Nat → Nat × Word × Word × Word) : (raiseLimited s num inst period n mk).fir = s.fir := match raiseLimited_only s num inst period n mk with | ⟨_, h⟩ => (congrArg State.fir h :)
@[simp] theorem raiseLimited_nhd (s : State) (num inst period : Nat) (n : Nat) (mk : Nat → Nat × Word × Word × Word) : (raiseLimited s num inst period n mk).nhd = s.nhd := match raiseLimited_only s num inst period n mk with | ⟨_, h⟩ => (congrArg State.nhd h :)
@[simp] theorem raiseLimited_hlk (s : State) (num inst period : Nat) (n : Nat) (mk : Nat → Nat × Word × Word × Word) : (raiseLimited s num inst period n mk).hlk = s.hlk := match raiseLimited_only s num inst period n mk with | ⟨_, h⟩ => (congrArg State.hlk h :)
@[simp] theorem raiseLimited_cam (s : State) (num inst period : Nat) (n : Nat) (mk : Nat → Nat × Word × Word × Word) : (raiseLimited s num inst period n mk).cam = s.cam := match raiseLimited_only s num inst period n mk with | ⟨_, h⟩ => (congrArg State.cam h :)
@[simp] theorem raiseLimited_mot (s : State) (num inst period : Nat) (n : Nat) (mk : Nat → Nat × Word × Word × Word) : (raiseLimited s num inst period n mk).mot = s.mot := match raiseLimited_only s num inst period n mk with | ⟨_, h⟩ => (congrArg State.mot h :)
@[simp] theorem raiseLimited_hkp (s : State) (num inst period : Nat) (n : Nat) (mk : Nat → Nat × Word × Word × Word) : (raiseLimited s num inst period n mk).hkp = s.hkp := match raiseLimited_only s num inst period n mk with | ⟨_, h⟩ => (congrArg State.hkp h :)
@[simp] theorem raiseLimited_lgt (s : State) (num inst period : Nat) (n : Nat) (mk : Nat → Nat × Word × Word × Word) : (raiseLimited s num inst period n mk).lgt = s.lgt := match raiseLimited_only s num inst period n mk with | ⟨_, h⟩ => (congrArg State.lgt h :)
@[simp] theorem raiseLimited_cal (s : State) (num inst period : Nat) (n : Nat) (mk : Nat → Nat × Word × Word × Word) : (raiseLimited s num inst period n mk).cal = s.cal := match raiseLimited_only s num inst period n mk with | ⟨_, h⟩ => (congrArg State.cal h :)
@[simp] theorem raiseLimited_eth (s : State) (num inst period : Nat) (n : Nat) (mk : Nat → Nat × Word × Word × Word) : (raiseLimited s num inst period n mk).eth = s.eth := match raiseLimited_only s num inst period n mk with | ⟨_, h⟩ => (congrArg State.eth h :)
@[simp] theorem raiseLimited_ethq (s : State) (num inst period : Nat) (n : Nat) (mk : Nat → Nat × Word × Word × Word) : (raiseLimited s num inst period n mk).ethq = s.ethq := match raiseLimited_only s num inst period n mk with | ⟨_, h⟩ => (congrArg State.ethq h :)
@[simp] theorem raiseLimited_seq (s : State) (num inst period : Nat) (n : Nat) (mk : Nat → Nat × Word × Word × Word) : (raiseLimited s num inst period n mk).seq = s.seq := match raiseLimited_only s num inst period n mk with | ⟨_, h⟩ => (congrArg State.seq h :)
@[simp] theorem raiseLimited_ep (s : State) (num inst period : Nat) (n : Nat) (mk : Nat → Nat × Word × Word × Word) : (raiseLimited s num inst period n mk).ep = s.ep := match raiseLimited_only s num inst period n mk with | ⟨_, h⟩ => (congrArg State.ep h :)
@[simp] theorem raiseLimited_drc (s : State) (num inst period : Nat) (n : Nat) (mk : Nat → Nat × Word × Word × Word) : (raiseLimited s num inst period n mk).drc = s.drc := match raiseLimited_only s num inst period n mk with | ⟨_, h⟩ => (congrArg State.drc h :)
@[simp] theorem raiseLimited_drcx (s : State) (num inst period : Nat) (n : Nat) (mk : Nat → Nat × Word × Word × Word) : (raiseLimited s num inst period n mk).drcx = s.drcx := match raiseLimited_only s num inst period n mk with | ⟨_, h⟩ => (congrArg State.drcx h :)
@[simp] theorem raiseLimited_dram (s : State) (num inst period : Nat) (n : Nat) (mk : Nat → Nat × Word × Word × Word) : (raiseLimited s num inst period n mk).dram = s.dram := match raiseLimited_only s num inst period n mk with | ⟨_, h⟩ => (congrArg State.dram h :)
@[simp] theorem raiseLimited_sram (s : State) (num inst period : Nat) (n : Nat) (mk : Nat → Nat × Word × Word × Word) : (raiseLimited s num inst period n mk).sram = s.sram := match raiseLimited_only s num inst period n mk with | ⟨_, h⟩ => (congrArg State.sram h :)
@[simp] theorem raiseLimited_hostMem (s : State) (num inst period : Nat) (n : Nat) (mk : Nat → Nat × Word × Word × Word) : (raiseLimited s num inst period n mk).hostMem = s.hostMem := match raiseLimited_only s num inst period n mk with | ⟨_, h⟩ => (congrArg State.hostMem h :)
@[simp] theorem raiseLimited_flash (s : State) (num inst period : Nat) (n : Nat) (mk : Nat → Nat × Word × Word × Word) : (raiseLimited s num inst period n mk).flash = s.flash := match raiseLimited_only s num inst period n mk with | ⟨_, h⟩ => (congrArg State.flash h :)

/-! ### haltBob -/
theorem haltBob_only (s : State) (n : Fin 32) (kind : Nat) (isWrite : Bool) (space addr : Nat) (ring : Bool) : ∃ bob' evt' out', haltBob s n kind isWrite space addr ring = { s with bob := bob', evt := evt', out := out' } := by
  unfold haltBob
  simp only []
  split <;> split
  all_goals first
    | exact ⟨_, _, _, rfl⟩
    | (obtain ⟨_, _, h⟩ := sendMsix_only _ _; exact ⟨_, _, _, h⟩)
@[simp] theorem haltBob_pending (s : State) (n : Fin 32) (kind : Nat) (isWrite : Bool) (space addr : Nat) (ring : Bool) : (haltBob s n kind isWrite space addr ring).pending = s.pending := match haltBob_only s n kind isWrite space addr ring with | ⟨_, _, _, h⟩ => (congrArg State.pending h :)
@[simp] theorem haltBob_ct (s : State) (n : Fin 32) (kind : Nat) (isWrite : Bool) (space addr : Nat) (ring : Bool) : (haltBob s n kind isWrite space addr ring).ct = s.ct := match haltBob_only s n kind isWrite space addr ring with | ⟨_, _, _, h⟩ => (congrArg State.ct h :)
@[simp] theorem haltBob_freeCtr (s : State) (n : Fin 32) (kind : Nat) (isWrite : Bool) (space addr : Nat) (ring : Bool) : (haltBob s n kind isWrite space addr ring).freeCtr = s.freeCtr := match haltBob_only s n kind isWrite space addr ring with | ⟨_, _, _, h⟩ => (congrArg State.freeCtr h :)
@[simp] theorem haltBob_glb (s : State) (n : Fin 32) (kind : Nat) (isWrite : Bool) (space addr : Nat) (ring : Bool) : (haltBob s n kind isWrite space addr ring).glb = s.glb := match haltBob_only s n kind isWrite space addr ring with | ⟨_, _, _, h⟩ => (congrArg State.glb h :)
@[simp] theorem haltBob_fw (s : State) (n : Fin 32) (kind : Nat) (isWrite : Bool) (space addr : Nat) (ring : Bool) : (haltBob s n kind isWrite space addr ring).fw = s.fw := match haltBob_only s n kind isWrite space addr ring with | ⟨_, _, _, h⟩ => (congrArg State.fw h :)
@[simp] theorem haltBob_cmd (s : State) (n : Fin 32) (kind : Nat) (isWrite : Bool) (space addr : Nat) (ring : Bool) : (haltBob s n kind isWrite space addr ring).cmd = s.cmd := match haltBob_only s n kind isWrite space addr ring with | ⟨_, _, _, h⟩ => (congrArg State.cmd h :)
@[simp] theorem haltBob_tim (s : State) (n : Fin 32) (kind : Nat) (isWrite : Bool) (space addr : Nat) (ring : Bool) : (haltBob s n kind isWrite space addr ring).tim = s.tim := match haltBob_only s n kind isWrite space addr ring with | ⟨_, _, _, h⟩ => (congrArg State.tim h :)
@[simp] theorem haltBob_pdp (s : State) (n : Fin 32) (kind : Nat) (isWrite : Bool) (space addr : Nat) (ring : Bool) : (haltBob s n kind isWrite space addr ring).pdp = s.pdp := match haltBob_only s n kind isWrite space addr ring with | ⟨_, _, _, h⟩ => (congrArg State.pdp h :)
@[simp] theorem haltBob_ebc (s : State) (n : Fin 32) (kind : Nat) (isWrite : Bool) (space addr : Nat) (ring : Bool) : (haltBob s n kind isWrite space addr ring).ebc = s.ebc := match haltBob_only s n kind isWrite space addr ring with | ⟨_, _, _, h⟩ => (congrArg State.ebc h :)
@[simp] theorem haltBob_fir (s : State) (n : Fin 32) (kind : Nat) (isWrite : Bool) (space addr : Nat) (ring : Bool) : (haltBob s n kind isWrite space addr ring).fir = s.fir := match haltBob_only s n kind isWrite space addr ring with | ⟨_, _, _, h⟩ => (congrArg State.fir h :)
@[simp] theorem haltBob_nhd (s : State) (n : Fin 32) (kind : Nat) (isWrite : Bool) (space addr : Nat) (ring : Bool) : (haltBob s n kind isWrite space addr ring).nhd = s.nhd := match haltBob_only s n kind isWrite space addr ring with | ⟨_, _, _, h⟩ => (congrArg State.nhd h :)
@[simp] theorem haltBob_hlk (s : State) (n : Fin 32) (kind : Nat) (isWrite : Bool) (space addr : Nat) (ring : Bool) : (haltBob s n kind isWrite space addr ring).hlk = s.hlk := match haltBob_only s n kind isWrite space addr ring with | ⟨_, _, _, h⟩ => (congrArg State.hlk h :)
@[simp] theorem haltBob_cam (s : State) (n : Fin 32) (kind : Nat) (isWrite : Bool) (space addr : Nat) (ring : Bool) : (haltBob s n kind isWrite space addr ring).cam = s.cam := match haltBob_only s n kind isWrite space addr ring with | ⟨_, _, _, h⟩ => (congrArg State.cam h :)
@[simp] theorem haltBob_mot (s : State) (n : Fin 32) (kind : Nat) (isWrite : Bool) (space addr : Nat) (ring : Bool) : (haltBob s n kind isWrite space addr ring).mot = s.mot := match haltBob_only s n kind isWrite space addr ring with | ⟨_, _, _, h⟩ => (congrArg State.mot h :)
@[simp] theorem haltBob_hkp (s : State) (n : Fin 32) (kind : Nat) (isWrite : Bool) (space addr : Nat) (ring : Bool) : (haltBob s n kind isWrite space addr ring).hkp = s.hkp := match haltBob_only s n kind isWrite space addr ring with | ⟨_, _, _, h⟩ => (congrArg State.hkp h :)
@[simp] theorem haltBob_lgt (s : State) (n : Fin 32) (kind : Nat) (isWrite : Bool) (space addr : Nat) (ring : Bool) : (haltBob s n kind isWrite space addr ring).lgt = s.lgt := match haltBob_only s n kind isWrite space addr ring with | ⟨_, _, _, h⟩ => (congrArg State.lgt h :)
@[simp] theorem haltBob_cal (s : State) (n : Fin 32) (kind : Nat) (isWrite : Bool) (space addr : Nat) (ring : Bool) : (haltBob s n kind isWrite space addr ring).cal = s.cal := match haltBob_only s n kind isWrite space addr ring with | ⟨_, _, _, h⟩ => (congrArg State.cal h :)
@[simp] theorem haltBob_eth (s : State) (n : Fin 32) (kind : Nat) (isWrite : Bool) (space addr : Nat) (ring : Bool) : (haltBob s n kind isWrite space addr ring).eth = s.eth := match haltBob_only s n kind isWrite space addr ring with | ⟨_, _, _, h⟩ => (congrArg State.eth h :)
@[simp] theorem haltBob_ethq (s : State) (n : Fin 32) (kind : Nat) (isWrite : Bool) (space addr : Nat) (ring : Bool) : (haltBob s n kind isWrite space addr ring).ethq = s.ethq := match haltBob_only s n kind isWrite space addr ring with | ⟨_, _, _, h⟩ => (congrArg State.ethq h :)
@[simp] theorem haltBob_seq (s : State) (n : Fin 32) (kind : Nat) (isWrite : Bool) (space addr : Nat) (ring : Bool) : (haltBob s n kind isWrite space addr ring).seq = s.seq := match haltBob_only s n kind isWrite space addr ring with | ⟨_, _, _, h⟩ => (congrArg State.seq h :)
@[simp] theorem haltBob_ep (s : State) (n : Fin 32) (kind : Nat) (isWrite : Bool) (space addr : Nat) (ring : Bool) : (haltBob s n kind isWrite space addr ring).ep = s.ep := match haltBob_only s n kind isWrite space addr ring with | ⟨_, _, _, h⟩ => (congrArg State.ep h :)
@[simp] theorem haltBob_drc (s : State) (n : Fin 32) (kind : Nat) (isWrite : Bool) (space addr : Nat) (ring : Bool) : (haltBob s n kind isWrite space addr ring).drc = s.drc := match haltBob_only s n kind isWrite space addr ring with | ⟨_, _, _, h⟩ => (congrArg State.drc h :)
@[simp] theorem haltBob_drcx (s : State) (n : Fin 32) (kind : Nat) (isWrite : Bool) (space addr : Nat) (ring : Bool) : (haltBob s n kind isWrite space addr ring).drcx = s.drcx := match haltBob_only s n kind isWrite space addr ring with | ⟨_, _, _, h⟩ => (congrArg State.drcx h :)
@[simp] theorem haltBob_dram (s : State) (n : Fin 32) (kind : Nat) (isWrite : Bool) (space addr : Nat) (ring : Bool) : (haltBob s n kind isWrite space addr ring).dram = s.dram := match haltBob_only s n kind isWrite space addr ring with | ⟨_, _, _, h⟩ => (congrArg State.dram h :)
@[simp] theorem haltBob_sram (s : State) (n : Fin 32) (kind : Nat) (isWrite : Bool) (space addr : Nat) (ring : Bool) : (haltBob s n kind isWrite space addr ring).sram = s.sram := match haltBob_only s n kind isWrite space addr ring with | ⟨_, _, _, h⟩ => (congrArg State.sram h :)
@[simp] theorem haltBob_hostMem (s : State) (n : Fin 32) (kind : Nat) (isWrite : Bool) (space addr : Nat) (ring : Bool) : (haltBob s n kind isWrite space addr ring).hostMem = s.hostMem := match haltBob_only s n kind isWrite space addr ring with | ⟨_, _, _, h⟩ => (congrArg State.hostMem h :)
@[simp] theorem haltBob_flash (s : State) (n : Fin 32) (kind : Nat) (isWrite : Bool) (space addr : Nat) (ring : Bool) : (haltBob s n kind isWrite space addr ring).flash = s.flash := match haltBob_only s n kind isWrite space addr ring with | ⟨_, _, _, h⟩ => (congrArg State.flash h :)

/-! ### dramWrite -/
@[simp] theorem dramWrite_pending (s : State) (a : Nat) (bs : List Byte) : (dramWrite s a bs).pending = s.pending := rfl
@[simp] theorem dramWrite_ct (s : State) (a : Nat) (bs : List Byte) : (dramWrite s a bs).ct = s.ct := rfl
@[simp] theorem dramWrite_freeCtr (s : State) (a : Nat) (bs : List Byte) : (dramWrite s a bs).freeCtr = s.freeCtr := rfl
@[simp] theorem dramWrite_out (s : State) (a : Nat) (bs : List Byte) : (dramWrite s a bs).out = s.out := rfl
@[simp] theorem dramWrite_glb (s : State) (a : Nat) (bs : List Byte) : (dramWrite s a bs).glb = s.glb := rfl
@[simp] theorem dramWrite_fw (s : State) (a : Nat) (bs : List Byte) : (dramWrite s a bs).fw = s.fw := rfl
@[simp] theorem dramWrite_bob (s : State) (a : Nat) (bs : List Byte) : (dramWrite s a bs).bob = s.bob := rfl
@[simp] theorem dramWrite_cmd (s : State) (a : Nat) (bs : List Byte) : (dramWrite s a bs).cmd = s.cmd := rfl
@[simp] theorem dramWrite_evt (s : State) (a : Nat) (bs : List Byte) : (dramWrite s a bs).evt = s.evt := rfl
@[simp] theorem dramWrite_tim (s : State) (a : Nat) (bs : List Byte) : (dramWrite s a bs).tim = s.tim := rfl
@[simp] theorem dramWrite_pdp (s : State) (a : Nat) (bs : List Byte) : (dramWrite s a bs).pdp = s.pdp := rfl
@[simp] theorem dramWrite_ebc (s : State) (a : Nat) (bs : List Byte) : (dramWrite s a bs).ebc = s.ebc := rfl
@[simp] theorem dramWrite_fir (s : State) (a : Nat) (bs : List Byte) : (dramWrite s a bs).fir = s.fir := rfl
@[simp] theorem dramWrite_nhd (s : State) (a : Nat) (bs : List Byte) : (dramWrite s a bs).nhd = s.nhd := rfl
@[simp] theorem dramWrite_hlk (s : State) (a : Nat) (bs : List Byte) : (dramWrite s a bs).hlk = s.hlk := rfl
@[simp] theorem dramWrite_cam (s : State) (a : Nat) (bs : List Byte) : (dramWrite s a bs).cam = s.cam := rfl
@[simp] theorem dramWrite_mot (s : State) (a : Nat) (bs : List Byte) : (dramWrite s a bs).mot = s.mot := rfl
@[simp] theorem dramWrite_hkp (s : State) (a : Nat) (bs : List Byte) : (dramWrite s a bs).hkp = s.hkp := rfl
@[simp] theorem dramWrite_lgt (s : State) (a : Nat) (bs : List Byte) : (dramWrite s a bs).lgt = s.lgt := rfl
@[simp] theorem dramWrite_cal (s : State) (a : Nat) (bs : List Byte) : (dramWrite s a bs).cal = s.cal := rfl
@[simp] theorem dramWrite_eth (s : State) (a : Nat) (bs : List Byte) : (dramWrite s a bs).eth = s.eth := rfl
@[simp] theorem dramWrite_ethq (s : State) (a : Nat) (bs : List Byte) : (dramWrite s a bs).ethq = s.ethq := rfl
@[simp] theorem dramWrite_seq (s : State) (a : Nat) (bs : List Byte) : (dramWrite s a bs).seq = s.seq := rfl
@[simp] theorem dramWrite_ep (s : State) (a : Nat) (bs : List Byte) : (dramWrite s a bs).ep = s.ep := rfl
@[simp] theorem dramWrite_drcx (s : State) (a : Nat) (bs : List Byte) : (dramWrite s a bs).drcx = s.drcx := rfl
@[simp] theorem dramWrite_sram (s : State) (a : Nat) (bs : List Byte) : (dramWrite s a bs).sram = s.sram := rfl
@[simp] theorem dramWrite_hostMem (s : State) (a : Nat) (bs : List Byte) : (dramWrite s a bs).hostMem = s.hostMem := rfl
@[simp] theorem dramWrite_flash (s : State) (a : Nat) (bs : List Byte) : (dramWrite s a bs).flash = s.flash := rfl

/-! ### sramWrite -/
@[simp] theorem sramWrite_pending (s : State) (a : Nat) (bs : List Byte) : (sramWrite s a bs).pending = s.pending := rfl
@[simp] theorem sramWrite_ct (s : State) (a : Nat) (bs : List Byte) : (sramWrite s a bs).ct = s.ct := rfl
@[simp] theorem sramWrite_freeCtr (s : State) (a : Nat) (bs : List Byte) : (sramWrite s a bs).freeCtr = s.freeCtr := rfl
@[simp] theorem sramWrite_out (s : State) (a : Nat) (bs : List Byte) : (sramWrite s a bs).out = s.out := rfl
@[simp] theorem sramWrite_glb (s : State) (a : Nat) (bs : List Byte) : (sramWrite s a bs).glb = s.glb := rfl
@[simp] theorem sramWrite_fw (s : State) (a : Nat) (bs : List Byte) : (sramWrite s a bs).fw = s.fw := rfl
@[simp] theorem sramWrite_bob (s : State) (a : Nat) (bs : List Byte) : (sramWrite s a bs).bob = s.bob := rfl
@[simp] theorem sramWrite_cmd (s : State) (a : Nat) (bs : List Byte) : (sramWrite s a bs).cmd = s.cmd := rfl
@[simp] theorem sramWrite_evt (s : State) (a : Nat) (bs : List Byte) : (sramWrite s a bs).evt = s.evt := rfl
@[simp] theorem sramWrite_tim (s : State) (a : Nat) (bs : List Byte) : (sramWrite s a bs).tim = s.tim := rfl
@[simp] theorem sramWrite_pdp (s : State) (a : Nat) (bs : List Byte) : (sramWrite s a bs).pdp = s.pdp := rfl
@[simp] theorem sramWrite_ebc (s : State) (a : Nat) (bs : List Byte) : (sramWrite s a bs).ebc = s.ebc := rfl
@[simp] theorem sramWrite_fir (s : State) (a : Nat) (bs : List Byte) : (sramWrite s a bs).fir = s.fir := rfl
@[simp] theorem sramWrite_nhd (s : State) (a : Nat) (bs : List Byte) : (sramWrite s a bs).nhd = s.nhd := rfl
@[simp] theorem sramWrite_hlk (s : State) (a : Nat) (bs : List Byte) : (sramWrite s a bs).hlk = s.hlk := rfl
@[simp] theorem sramWrite_cam (s : State) (a : Nat) (bs : List Byte) : (sramWrite s a bs).cam = s.cam := rfl
@[simp] theorem sramWrite_mot (s : State) (a : Nat) (bs : List Byte) : (sramWrite s a bs).mot = s.mot := rfl
@[simp] theorem sramWrite_hkp (s : State) (a : Nat) (bs : List Byte) : (sramWrite s a bs).hkp = s.hkp := rfl
@[simp] theorem sramWrite_lgt (s : State) (a : Nat) (bs : List Byte) : (sramWrite s a bs).lgt = s.lgt := rfl
@[simp] theorem sramWrite_cal (s : State) (a : Nat) (bs : List Byte) : (sramWrite s a bs).cal = s.cal := rfl
@[simp] theorem sramWrite_eth (s : State) (a : Nat) (bs : List Byte) : (sramWrite s a bs).eth = s.eth := rfl
@[simp] theorem sramWrite_ethq (s : State) (a : Nat) (bs : List Byte) : (sramWrite s a bs).ethq = s.ethq := rfl
@[simp] theorem sramWrite_seq (s : State) (a : Nat) (bs : List Byte) : (sramWrite s a bs).seq = s.seq := rfl
@[simp] theorem sramWrite_ep (s : State) (a : Nat) (bs : List Byte) : (sramWrite s a bs).ep = s.ep := rfl
@[simp] theorem sramWrite_drc (s : State) (a : Nat) (bs : List Byte) : (sramWrite s a bs).drc = s.drc := rfl
@[simp] theorem sramWrite_dram (s : State) (a : Nat) (bs : List Byte) : (sramWrite s a bs).dram = s.dram := rfl
@[simp] theorem sramWrite_hostMem (s : State) (a : Nat) (bs : List Byte) : (sramWrite s a bs).hostMem = s.hostMem := rfl
@[simp] theorem sramWrite_flash (s : State) (a : Nat) (bs : List Byte) : (sramWrite s a bs).flash = s.flash := rfl

/-! ### spaceWrite -/
theorem spaceWrite_only (s : State) (space a : Nat) (bs : List Byte) (payload : Bool) : ∃ out' dram' sram' hostMem' drc' drcx', spaceWrite s space a bs payload = { s with out := out', dram := dram', sram := sram', hostMem := hostMem', drc := drc', drcx := drcx' } := by unfold spaceWrite; split <;> exact ⟨_, _, _, _, _, _, rfl⟩
@[simp] theorem spaceWrite_pending (s : State) (space a : Nat) (bs : List Byte) (payload : Bool) : (spaceWrite s space a bs payload).pending = s.pending := match spaceWrite_only s space a bs payload with | ⟨_, _, _, _, _, _, h⟩ => (congrArg State.pending h :)
@[simp] theorem spaceWrite_ct (s : State) (space a : Nat) (bs : List Byte) (payload : Bool) : (spaceWrite s space a bs payload).ct = s.ct := match spaceWrite_only s space a bs payload with | ⟨_, _, _, _, _, _, h⟩ => (congrArg State.ct h :)
@[simp] theorem spaceWrite_freeCtr (s : State) (space a : Nat) (bs : List Byte) (payload : Bool) : (spaceWrite s space a bs payload).freeCtr = s.freeCtr := match spaceWrite_only s space a bs payload with | ⟨_, _, _, _, _, _, h⟩ => (congrArg State.freeCtr h :)
@[simp] theorem spaceWrite_glb (s : State) (space a : Nat) (bs : List Byte) (payload : Bool) : (spaceWrite s space a bs payload).glb = s.glb := match spaceWrite_only s space a bs payload with | ⟨_, _, _, _, _, _, h⟩ => (congrArg State.glb h :)
@[simp] theorem spaceWrite_fw (s : State) (space a : Nat) (bs : List Byte) (payload : Bool) : (spaceWrite s space a bs payload).fw = s.fw := match spaceWrite_only s space a bs payload with | ⟨_, _, _, _, _, _, h⟩ => (congrArg State.fw h :)
@[simp] theorem spaceWrite_bob (s : State) (space a : Nat) (bs : List Byte) (payload : Bool) : (spaceWrite s space a bs payload).bob = s.bob := match spaceWrite_only s space a bs payload with | ⟨_, _, _, _, _, _, h⟩ => (congrArg State.bob h :)
@[simp] theorem spaceWrite_cmd (s : State) (space a : Nat) (bs : List Byte) (payload : Bool) : (spaceWrite s space a bs payload).cmd = s.cmd := match spaceWrite_only s space a bs payload with | ⟨_, _, _, _, _, _, h⟩ => (congrArg State.cmd h :)
@[simp] theorem spaceWrite_evt (s : State) (space a : Nat) (bs : List Byte) (payload : Bool) : (spaceWrite s space a bs payload).evt = s.evt := match spaceWrite_only s space a bs payload with | ⟨_, _, _, _, _, _, h⟩ => (congrArg State.evt h :)
@[simp] theorem spaceWrite_tim (s : State) (space a : Nat) (bs : List Byte) (payload : Bool) : (spaceWrite s space a bs payload).tim = s.tim := match spaceWrite_only s space a bs payload with | ⟨_, _, _, _, _, _, h⟩ => (congrArg State.tim h :)
@[simp] theorem spaceWrite_pdp (s : State) (space a : Nat) (bs : List Byte) (payload : Bool) : (spaceWrite s space a bs payload).pdp = s.pdp := match spaceWrite_only s space a bs payload with | ⟨_, _, _, _, _, _, h⟩ => (congrArg State.pdp h :)
@[simp] theorem spaceWrite_ebc (s : State) (space a : Nat) (bs : List Byte) (payload : Bool) : (spaceWrite s space a bs payload).ebc = s.ebc := match spaceWrite_only s space a bs payload with | ⟨_, _, _, _, _, _, h⟩ => (congrArg State.ebc h :)
@[simp] theorem spaceWrite_fir (s : State) (space a : Nat) (bs : List Byte) (payload : Bool) : (spaceWrite s space a bs payload).fir = s.fir := match spaceWrite_only s space a bs payload with | ⟨_, _, _, _, _, _, h⟩ => (congrArg State.fir h :)
@[simp] theorem spaceWrite_nhd (s : State) (space a : Nat) (bs : List Byte) (payload : Bool) : (spaceWrite s space a bs payload).nhd = s.nhd := match spaceWrite_only s space a bs payload with | ⟨_, _, _, _, _, _, h⟩ => (congrArg State.nhd h :)
@[simp] theorem spaceWrite_hlk (s : State) (space a : Nat) (bs : List Byte) (payload : Bool) : (spaceWrite s space a bs payload).hlk = s.hlk := match spaceWrite_only s space a bs payload with | ⟨_, _, _, _, _, _, h⟩ => (congrArg State.hlk h :)
@[simp] theorem spaceWrite_cam (s : State) (space a : Nat) (bs : List Byte) (payload : Bool) : (spaceWrite s space a bs payload).cam = s.cam := match spaceWrite_only s space a bs payload with | ⟨_, _, _, _, _, _, h⟩ => (congrArg State.cam h :)
@[simp] theorem spaceWrite_mot (s : State) (space a : Nat) (bs : List Byte) (payload : Bool) : (spaceWrite s space a bs payload).mot = s.mot := match spaceWrite_only s space a bs payload with | ⟨_, _, _, _, _, _, h⟩ => (congrArg State.mot h :)
@[simp] theorem spaceWrite_hkp (s : State) (space a : Nat) (bs : List Byte) (payload : Bool) : (spaceWrite s space a bs payload).hkp = s.hkp := match spaceWrite_only s space a bs payload with | ⟨_, _, _, _, _, _, h⟩ => (congrArg State.hkp h :)
@[simp] theorem spaceWrite_lgt (s : State) (space a : Nat) (bs : List Byte) (payload : Bool) : (spaceWrite s space a bs payload).lgt = s.lgt := match spaceWrite_only s space a bs payload with | ⟨_, _, _, _, _, _, h⟩ => (congrArg State.lgt h :)
@[simp] theorem spaceWrite_cal (s : State) (space a : Nat) (bs : List Byte) (payload : Bool) : (spaceWrite s space a bs payload).cal = s.cal := match spaceWrite_only s space a bs payload with | ⟨_, _, _, _, _, _, h⟩ => (congrArg State.cal h :)
@[simp] theorem spaceWrite_eth (s : State) (space a : Nat) (bs : List Byte) (payload : Bool) : (spaceWrite s space a bs payload).eth = s.eth := match spaceWrite_only s space a bs payload with | ⟨_, _, _, _, _, _, h⟩ => (congrArg State.eth h :)
@[simp] theorem spaceWrite_ethq (s : State) (space a : Nat) (bs : List Byte) (payload : Bool) : (spaceWrite s space a bs payload).ethq = s.ethq := match spaceWrite_only s space a bs payload with | ⟨_, _, _, _, _, _, h⟩ => (congrArg State.ethq h :)
@[simp] theorem spaceWrite_seq (s : State) (space a : Nat) (bs : List Byte) (payload : Bool) : (spaceWrite s space a bs payload).seq = s.seq := match spaceWrite_only s space a bs payload with | ⟨_, _, _, _, _, _, h⟩ => (congrArg State.seq h :)
@[simp] theorem spaceWrite_ep (s : State) (space a : Nat) (bs : List Byte) (payload : Bool) : (spaceWrite s space a bs payload).ep = s.ep := match spaceWrite_only s space a bs payload with | ⟨_, _, _, _, _, _, h⟩ => (congrArg State.ep h :)
@[simp] theorem spaceWrite_flash (s : State) (space a : Nat) (bs : List Byte) (payload : Bool) : (spaceWrite s space a bs payload).flash = s.flash := match spaceWrite_only s space a bs payload with | ⟨_, _, _, _, _, _, h⟩ => (congrArg State.flash h :)

/-! ### queueReq -/
@[simp] theorem queueReq_pending (s : State) (q : DramReq) : (queueReq s q).pending = s.pending := rfl
@[simp] theorem queueReq_ct (s : State) (q : DramReq) : (queueReq s q).ct = s.ct := rfl
@[simp] theorem queueReq_freeCtr (s : State) (q : DramReq) : (queueReq s q).freeCtr = s.freeCtr := rfl
@[simp] theorem queueReq_out (s : State) (q : DramReq) : (queueReq s q).out = s.out := rfl
@[simp] theorem queueReq_glb (s : State) (q : DramReq) : (queueReq s q).glb = s.glb := rfl
@[simp] theorem queueReq_fw (s : State) (q : DramReq) : (queueReq s q).fw = s.fw := rfl
@[simp] theorem queueReq_bob (s : State) (q : DramReq) : (queueReq s q).bob = s.bob := rfl
@[simp] theorem queueReq_cmd (s : State) (q : DramReq) : (queueReq s q).cmd = s.cmd := rfl
@[simp] theorem queueReq_evt (s : State) (q : DramReq) : (queueReq s q).evt = s.evt := rfl
@[simp] theorem queueReq_tim (s : State) (q : DramReq) : (queueReq s q).tim = s.tim := rfl
@[simp] theorem queueReq_pdp (s : State) (q : DramReq) : (queueReq s q).pdp = s.pdp := rfl
@[simp] theorem queueReq_ebc (s : State) (q : DramReq) : (queueReq s q).ebc = s.ebc := rfl
@[simp] theorem queueReq_fir (s : State) (q : DramReq) : (queueReq s q).fir = s.fir := rfl
@[simp] theorem queueReq_nhd (s : State) (q : DramReq) : (queueReq s q).nhd = s.nhd := rfl
@[simp] theorem queueReq_hlk (s : State) (q : DramReq) : (queueReq s q).hlk = s.hlk := rfl
@[simp] theorem queueReq_cam (s : State) (q : DramReq) : (queueReq s q).cam = s.cam := rfl
@[simp] theorem queueReq_mot (s : State) (q : DramReq) : (queueReq s q).mot = s.mot := rfl
@[simp] theorem queueReq_hkp (s : State) (q : DramReq) : (queueReq s q).hkp = s.hkp := rfl
@[simp] theorem queueReq_lgt (s : State) (q : DramReq) : (queueReq s q).lgt = s.lgt := rfl
@[simp] theorem queueReq_cal (s : State) (q : DramReq) : (queueReq s q).cal = s.cal := rfl
@[simp] theorem queueReq_eth (s : State) (q : DramReq) : (queueReq s q).eth = s.eth := rfl
@[simp] theorem queueReq_ethq (s : State) (q : DramReq) : (queueReq s q).ethq = s.ethq := rfl
@[simp] theorem queueReq_seq (s : State) (q : DramReq) : (queueReq s q).seq = s.seq := rfl
@[simp] theorem queueReq_ep (s : State) (q : DramReq) : (queueReq s q).ep = s.ep := rfl
@[simp] theorem queueReq_drc (s : State) (q : DramReq) : (queueReq s q).drc = s.drc := rfl
@[simp] theorem queueReq_dram (s : State) (q : DramReq) : (queueReq s q).dram = s.dram := rfl
@[simp] theorem queueReq_sram (s : State) (q : DramReq) : (queueReq s q).sram = s.sram := rfl
@[simp] theorem queueReq_hostMem (s : State) (q : DramReq) : (queueReq s q).hostMem = s.hostMem := rfl
@[simp] theorem queueReq_flash (s : State) (q : DramReq) : (queueReq s q).flash = s.flash := rfl

/-! ### hold -/
theorem hold_only (s : State) (q : DramReq) : ∃ drcx', hold s q = { s with drcx := drcx' } := by unfold hold; split <;> exact ⟨_, rfl⟩
@[simp] theorem hold_pending (s : State) (q : DramReq) : (hold s q).pending = s.pending := match hold_only s q with | ⟨_, h⟩ => (congrArg State.pending h :)
@[simp] theorem hold_ct (s : State) (q : DramReq) : (hold s q).ct = s.ct := match hold_only s q with | ⟨_, h⟩ => (congrArg State.ct h :)
@[simp] theorem hold_freeCtr (s : State) (q : DramReq) : (hold s q).freeCtr = s.freeCtr := match hold_only s q with | ⟨_, h⟩ => (congrArg State.freeCtr h :)
@[simp] theorem hold_out (s : State) (q : DramReq) : (hold s q).out = s.out := match hold_only s q with | ⟨_, h⟩ => (congrArg State.out h :)
@[simp] theorem hold_glb (s : State) (q : DramReq) : (hold s q).glb = s.glb := match hold_only s q with | ⟨_, h⟩ => (congrArg State.glb h :)
@[simp] theorem hold_fw (s : State) (q : DramReq) : (hold s q).fw = s.fw := match hold_only s q with | ⟨_, h⟩ => (congrArg State.fw h :)
@[simp] theorem hold_bob (s : State) (q : DramReq) : (hold s q).bob = s.bob := match hold_only s q with | ⟨_, h⟩ => (congrArg State.bob h :)
@[simp] theorem hold_cmd (s : State) (q : DramReq) : (hold s q).cmd = s.cmd := match hold_only s q with | ⟨_, h⟩ => (congrArg State.cmd h :)
@[simp] theorem hold_evt (s : State) (q : DramReq) : (hold s q).evt = s.evt := match hold_only s q with | ⟨_, h⟩ => (congrArg State.evt h :)
@[simp] theorem hold_tim (s : State) (q : DramReq) : (hold s q).tim = s.tim := match hold_only s q with | ⟨_, h⟩ => (congrArg State.tim h :)
@[simp] theorem hold_pdp (s : State) (q : DramReq) : (hold s q).pdp = s.pdp := match hold_only s q with | ⟨_, h⟩ => (congrArg State.pdp h :)
@[simp] theorem hold_ebc (s : State) (q : DramReq) : (hold s q).ebc = s.ebc := match hold_only s q with | ⟨_, h⟩ => (congrArg State.ebc h :)
@[simp] theorem hold_fir (s : State) (q : DramReq) : (hold s q).fir = s.fir := match hold_only s q with | ⟨_, h⟩ => (congrArg State.fir h :)
@[simp] theorem hold_nhd (s : State) (q : DramReq) : (hold s q).nhd = s.nhd := match hold_only s q with | ⟨_, h⟩ => (congrArg State.nhd h :)
@[simp] theorem hold_hlk (s : State) (q : DramReq) : (hold s q).hlk = s.hlk := match hold_only s q with | ⟨_, h⟩ => (congrArg State.hlk h :)
@[simp] theorem hold_cam (s : State) (q : DramReq) : (hold s q).cam = s.cam := match hold_only s q with | ⟨_, h⟩ => (congrArg State.cam h :)
@[simp] theorem hold_mot (s : State) (q : DramReq) : (hold s q).mot = s.mot := match hold_only s q with | ⟨_, h⟩ => (congrArg State.mot h :)
@[simp] theorem hold_hkp (s : State) (q : DramReq) : (hold s q).hkp = s.hkp := match hold_only s q with | ⟨_, h⟩ => (congrArg State.hkp h :)
@[simp] theorem hold_lgt (s : State) (q : DramReq) : (hold s q).lgt = s.lgt := match hold_only s q with | ⟨_, h⟩ => (congrArg State.lgt h :)
@[simp] theorem hold_cal (s : State) (q : DramReq) : (hold s q).cal = s.cal := match hold_only s q with | ⟨_, h⟩ => (congrArg State.cal h :)
@[simp] theorem hold_eth (s : State) (q : DramReq) : (hold s q).eth = s.eth := match hold_only s q with | ⟨_, h⟩ => (congrArg State.eth h :)
@[simp] theorem hold_ethq (s : State) (q : DramReq) : (hold s q).ethq = s.ethq := match hold_only s q with | ⟨_, h⟩ => (congrArg State.ethq h :)
@[simp] theorem hold_seq (s : State) (q : DramReq) : (hold s q).seq = s.seq := match hold_only s q with | ⟨_, h⟩ => (congrArg State.seq h :)
@[simp] theorem hold_ep (s : State) (q : DramReq) : (hold s q).ep = s.ep := match hold_only s q with | ⟨_, h⟩ => (congrArg State.ep h :)
@[simp] theorem hold_drc (s : State) (q : DramReq) : (hold s q).drc = s.drc := match hold_only s q with | ⟨_, h⟩ => (congrArg State.drc h :)
@[simp] theorem hold_dram (s : State) (q : DramReq) : (hold s q).dram = s.dram := match hold_only s q with | ⟨_, h⟩ => (congrArg State.dram h :)
@[simp] theorem hold_sram (s : State) (q : DramReq) : (hold s q).sram = s.sram := match hold_only s q with | ⟨_, h⟩ => (congrArg State.sram h :)
@[simp] theorem hold_hostMem (s : State) (q : DramReq) : (hold s q).hostMem = s.hostMem := match hold_only s q with | ⟨_, h⟩ => (congrArg State.hostMem h :)
@[simp] theorem hold_flash (s : State) (q : DramReq) : (hold s q).flash = s.flash := match hold_only s q with | ⟨_, h⟩ => (congrArg State.flash h :)

/-! ### flushWb -/
theorem flushWb_only (s : State) (n : Fin 32) : ∃ bob' evt' out' dram' sram' hostMem' drc' drcx', flushWb s n = { s with bob := bob', evt := evt', out := out', dram := dram', sram := sram', hostMem := hostMem', drc := drc', drcx := drcx' } := by
  unfold flushWb
  simp only []
  split
  · exact ⟨_, _, _, _, _, _, _, _, rfl⟩
  · split
    · obtain ⟨_, h⟩ := hold_only s (.writeBack n)
      exact ⟨_, _, _, _, _, _, _, _, h⟩
    · split
      · obtain ⟨_, _, _, h⟩ := haltBob_only s n _ true _ _ true
        exact ⟨_, _, _, _, _, _, _, _, h⟩
      · obtain ⟨_, _, _, _, _, _, h⟩ := spaceWrite_only s (vget s.bob.rings n).space (vget s.bob.rings n).wb
          (natLe (if hostProduced n then (vget s.bob.rings n).head else (vget s.bob.rings n).tail) 4) false
        rw [h]
        split
        · obtain ⟨_, _, k⟩ := sendMsix_only _ _
          exact ⟨_, _, _, _, _, _, _, _, k⟩
        · exact ⟨_, _, _, _, _, _, _, _, rfl⟩
@[simp] theorem flushWb_pending (s : State) (n : Fin 32) : (flushWb s n).pending = s.pending := match flushWb_only s n with | ⟨_, _, _, _, _, _, _, _, h⟩ => (congrArg State.pending h :)
@[simp] theorem flushWb_ct (s : State) (n : Fin 32) : (flushWb s n).ct = s.ct := match flushWb_only s n with | ⟨_, _, _, _, _, _, _, _, h⟩ => (congrArg State.ct h :)
@[simp] theorem flushWb_freeCtr (s : State) (n : Fin 32) : (flushWb s n).freeCtr = s.freeCtr := match flushWb_only s n with | ⟨_, _, _, _, _, _, _, _, h⟩ => (congrArg State.freeCtr h :)
@[simp] theorem flushWb_glb (s : State) (n : Fin 32) : (flushWb s n).glb = s.glb := match flushWb_only s n with | ⟨_, _, _, _, _, _, _, _, h⟩ => (congrArg State.glb h :)
@[simp] theorem flushWb_fw (s : State) (n : Fin 32) : (flushWb s n).fw = s.fw := match flushWb_only s n with | ⟨_, _, _, _, _, _, _, _, h⟩ => (congrArg State.fw h :)
@[simp] theorem flushWb_cmd (s : State) (n : Fin 32) : (flushWb s n).cmd = s.cmd := match flushWb_only s n with | ⟨_, _, _, _, _, _, _, _, h⟩ => (congrArg State.cmd h :)
@[simp] theorem flushWb_tim (s : State) (n : Fin 32) : (flushWb s n).tim = s.tim := match flushWb_only s n with | ⟨_, _, _, _, _, _, _, _, h⟩ => (congrArg State.tim h :)
@[simp] theorem flushWb_pdp (s : State) (n : Fin 32) : (flushWb s n).pdp = s.pdp := match flushWb_only s n with | ⟨_, _, _, _, _, _, _, _, h⟩ => (congrArg State.pdp h :)
@[simp] theorem flushWb_ebc (s : State) (n : Fin 32) : (flushWb s n).ebc = s.ebc := match flushWb_only s n with | ⟨_, _, _, _, _, _, _, _, h⟩ => (congrArg State.ebc h :)
@[simp] theorem flushWb_fir (s : State) (n : Fin 32) : (flushWb s n).fir = s.fir := match flushWb_only s n with | ⟨_, _, _, _, _, _, _, _, h⟩ => (congrArg State.fir h :)
@[simp] theorem flushWb_nhd (s : State) (n : Fin 32) : (flushWb s n).nhd = s.nhd := match flushWb_only s n with | ⟨_, _, _, _, _, _, _, _, h⟩ => (congrArg State.nhd h :)
@[simp] theorem flushWb_hlk (s : State) (n : Fin 32) : (flushWb s n).hlk = s.hlk := match flushWb_only s n with | ⟨_, _, _, _, _, _, _, _, h⟩ => (congrArg State.hlk h :)
@[simp] theorem flushWb_cam (s : State) (n : Fin 32) : (flushWb s n).cam = s.cam := match flushWb_only s n with | ⟨_, _, _, _, _, _, _, _, h⟩ => (congrArg State.cam h :)
@[simp] theorem flushWb_mot (s : State) (n : Fin 32) : (flushWb s n).mot = s.mot := match flushWb_only s n with | ⟨_, _, _, _, _, _, _, _, h⟩ => (congrArg State.mot h :)
@[simp] theorem flushWb_hkp (s : State) (n : Fin 32) : (flushWb s n).hkp = s.hkp := match flushWb_only s n with | ⟨_, _, _, _, _, _, _, _, h⟩ => (congrArg State.hkp h :)
@[simp] theorem flushWb_lgt (s : State) (n : Fin 32) : (flushWb s n).lgt = s.lgt := match flushWb_only s n with | ⟨_, _, _, _, _, _, _, _, h⟩ => (congrArg State.lgt h :)
@[simp] theorem flushWb_cal (s : State) (n : Fin 32) : (flushWb s n).cal = s.cal := match flushWb_only s n with | ⟨_, _, _, _, _, _, _, _, h⟩ => (congrArg State.cal h :)
@[simp] theorem flushWb_eth (s : State) (n : Fin 32) : (flushWb s n).eth = s.eth := match flushWb_only s n with | ⟨_, _, _, _, _, _, _, _, h⟩ => (congrArg State.eth h :)
@[simp] theorem flushWb_ethq (s : State) (n : Fin 32) : (flushWb s n).ethq = s.ethq := match flushWb_only s n with | ⟨_, _, _, _, _, _, _, _, h⟩ => (congrArg State.ethq h :)
@[simp] theorem flushWb_seq (s : State) (n : Fin 32) : (flushWb s n).seq = s.seq := match flushWb_only s n with | ⟨_, _, _, _, _, _, _, _, h⟩ => (congrArg State.seq h :)
@[simp] theorem flushWb_ep (s : State) (n : Fin 32) : (flushWb s n).ep = s.ep := match flushWb_only s n with | ⟨_, _, _, _, _, _, _, _, h⟩ => (congrArg State.ep h :)
@[simp] theorem flushWb_flash (s : State) (n : Fin 32) : (flushWb s n).flash = s.flash := match flushWb_only s n with | ⟨_, _, _, _, _, _, _, _, h⟩ => (congrArg State.flash h :)

/-! ### sendBobMsix -/
theorem sendBobMsix_only (s : State) (n : Fin 32) : ∃ bob' evt' out' dram' sram' hostMem' drc' drcx', sendBobMsix s n = { s with bob := bob', evt := evt', out := out', dram := dram', sram := sram', hostMem := hostMem', drc := drc', drcx := drcx' } := by
  unfold sendBobMsix
  simp only []
  split
  · obtain ⟨_, _, _, _, _, _, _, _, h⟩ := flushWb_only _ n
    exact ⟨_, _, _, _, _, _, _, _, h⟩
  · obtain ⟨_, _, k⟩ := sendMsix_only _ _
    exact ⟨_, _, _, _, _, _, _, _, k⟩
@[simp] theorem sendBobMsix_pending (s : State) (n : Fin 32) : (sendBobMsix s n).pending = s.pending := match sendBobMsix_only s n with | ⟨_, _, _, _, _, _, _, _, h⟩ => (congrArg State.pending h :)
@[simp] theorem sendBobMsix_ct (s : State) (n : Fin 32) : (sendBobMsix s n).ct = s.ct := match sendBobMsix_only s n with | ⟨_, _, _, _, _, _, _, _, h⟩ => (congrArg State.ct h :)
@[simp] theorem sendBobMsix_freeCtr (s : State) (n : Fin 32) : (sendBobMsix s n).freeCtr = s.freeCtr := match sendBobMsix_only s n with | ⟨_, _, _, _, _, _, _, _, h⟩ => (congrArg State.freeCtr h :)
@[simp] theorem sendBobMsix_glb (s : State) (n : Fin 32) : (sendBobMsix s n).glb = s.glb := match sendBobMsix_only s n with | ⟨_, _, _, _, _, _, _, _, h⟩ => (congrArg State.glb h :)
@[simp] theorem sendBobMsix_fw (s : State) (n : Fin 32) : (sendBobMsix s n).fw = s.fw := match sendBobMsix_only s n with | ⟨_, _, _, _, _, _, _, _, h⟩ => (congrArg State.fw h :)
@[simp] theorem sendBobMsix_cmd (s : State) (n : Fin 32) : (sendBobMsix s n).cmd = s.cmd := match sendBobMsix_only s n with | ⟨_, _, _, _, _, _, _, _, h⟩ => (congrArg State.cmd h :)
@[simp] theorem sendBobMsix_tim (s : State) (n : Fin 32) : (sendBobMsix s n).tim = s.tim := match sendBobMsix_only s n with | ⟨_, _, _, _, _, _, _, _, h⟩ => (congrArg State.tim h :)
@[simp] theorem sendBobMsix_pdp (s : State) (n : Fin 32) : (sendBobMsix s n).pdp = s.pdp := match sendBobMsix_only s n with | ⟨_, _, _, _, _, _, _, _, h⟩ => (congrArg State.pdp h :)
@[simp] theorem sendBobMsix_ebc (s : State) (n : Fin 32) : (sendBobMsix s n).ebc = s.ebc := match sendBobMsix_only s n with | ⟨_, _, _, _, _, _, _, _, h⟩ => (congrArg State.ebc h :)
@[simp] theorem sendBobMsix_fir (s : State) (n : Fin 32) : (sendBobMsix s n).fir = s.fir := match sendBobMsix_only s n with | ⟨_, _, _, _, _, _, _, _, h⟩ => (congrArg State.fir h :)
@[simp] theorem sendBobMsix_nhd (s : State) (n : Fin 32) : (sendBobMsix s n).nhd = s.nhd := match sendBobMsix_only s n with | ⟨_, _, _, _, _, _, _, _, h⟩ => (congrArg State.nhd h :)
@[simp] theorem sendBobMsix_hlk (s : State) (n : Fin 32) : (sendBobMsix s n).hlk = s.hlk := match sendBobMsix_only s n with | ⟨_, _, _, _, _, _, _, _, h⟩ => (congrArg State.hlk h :)
@[simp] theorem sendBobMsix_cam (s : State) (n : Fin 32) : (sendBobMsix s n).cam = s.cam := match sendBobMsix_only s n with | ⟨_, _, _, _, _, _, _, _, h⟩ => (congrArg State.cam h :)
@[simp] theorem sendBobMsix_mot (s : State) (n : Fin 32) : (sendBobMsix s n).mot = s.mot := match sendBobMsix_only s n with | ⟨_, _, _, _, _, _, _, _, h⟩ => (congrArg State.mot h :)
@[simp] theorem sendBobMsix_hkp (s : State) (n : Fin 32) : (sendBobMsix s n).hkp = s.hkp := match sendBobMsix_only s n with | ⟨_, _, _, _, _, _, _, _, h⟩ => (congrArg State.hkp h :)
@[simp] theorem sendBobMsix_lgt (s : State) (n : Fin 32) : (sendBobMsix s n).lgt = s.lgt := match sendBobMsix_only s n with | ⟨_, _, _, _, _, _, _, _, h⟩ => (congrArg State.lgt h :)
@[simp] theorem sendBobMsix_cal (s : State) (n : Fin 32) : (sendBobMsix s n).cal = s.cal := match sendBobMsix_only s n with | ⟨_, _, _, _, _, _, _, _, h⟩ => (congrArg State.cal h :)
@[simp] theorem sendBobMsix_eth (s : State) (n : Fin 32) : (sendBobMsix s n).eth = s.eth := match sendBobMsix_only s n with | ⟨_, _, _, _, _, _, _, _, h⟩ => (congrArg State.eth h :)
@[simp] theorem sendBobMsix_ethq (s : State) (n : Fin 32) : (sendBobMsix s n).ethq = s.ethq := match sendBobMsix_only s n with | ⟨_, _, _, _, _, _, _, _, h⟩ => (congrArg State.ethq h :)
@[simp] theorem sendBobMsix_seq (s : State) (n : Fin 32) : (sendBobMsix s n).seq = s.seq := match sendBobMsix_only s n with | ⟨_, _, _, _, _, _, _, _, h⟩ => (congrArg State.seq h :)
@[simp] theorem sendBobMsix_ep (s : State) (n : Fin 32) : (sendBobMsix s n).ep = s.ep := match sendBobMsix_only s n with | ⟨_, _, _, _, _, _, _, _, h⟩ => (congrArg State.ep h :)
@[simp] theorem sendBobMsix_flash (s : State) (n : Fin 32) : (sendBobMsix s n).flash = s.flash := match sendBobMsix_only s n with | ⟨_, _, _, _, _, _, _, _, h⟩ => (congrArg State.flash h :)

/-! ### signalDue -/
theorem signalDue_only (s : State) (n : Fin 32) : ∃ bob' evt' out' dram' sram' hostMem' drc' drcx', signalDue s n = { s with bob := bob', evt := evt', out := out', dram := dram', sram := sram', hostMem := hostMem', drc := drc', drcx := drcx' } := by
  unfold signalDue
  simp only []
  split
  · exact sendBobMsix_only s n
  · exact ⟨_, _, _, _, _, _, _, _, rfl⟩
@[simp] theorem signalDue_pending (s : State) (n : Fin 32) : (signalDue s n).pending = s.pending := match signalDue_only s n with | ⟨_, _, _, _, _, _, _, _, h⟩ => (congrArg State.pending h :)
@[simp] theorem signalDue_ct (s : State) (n : Fin 32) : (signalDue s n).ct = s.ct := match signalDue_only s n with | ⟨_, _, _, _, _, _, _, _, h⟩ => (congrArg State.ct h :)
@[simp] theorem signalDue_freeCtr (s : State) (n : Fin 32) : (signalDue s n).freeCtr = s.freeCtr := match signalDue_only s n with | ⟨_, _, _, _, _, _, _, _, h⟩ => (congrArg State.freeCtr h :)
@[simp] theorem signalDue_glb (s : State) (n : Fin 32) : (signalDue s n).glb = s.glb := match signalDue_only s n with | ⟨_, _, _, _, _, _, _, _, h⟩ => (congrArg State.glb h :)
@[simp] theorem signalDue_fw (s : State) (n : Fin 32) : (signalDue s n).fw = s.fw := match signalDue_only s n with | ⟨_, _, _, _, _, _, _, _, h⟩ => (congrArg State.fw h :)
@[simp] theorem signalDue_cmd (s : State) (n : Fin 32) : (signalDue s n).cmd = s.cmd := match signalDue_only s n with | ⟨_, _, _, _, _, _, _, _, h⟩ => (congrArg State.cmd h :)
@[simp] theorem signalDue_tim (s : State) (n : Fin 32) : (signalDue s n).tim = s.tim := match signalDue_only s n with | ⟨_, _, _, _, _, _, _, _, h⟩ => (congrArg State.tim h :)
@[simp] theorem signalDue_pdp (s : State) (n : Fin 32) : (signalDue s n).pdp = s.pdp := match signalDue_only s n with | ⟨_, _, _, _, _, _, _, _, h⟩ => (congrArg State.pdp h :)
@[simp] theorem signalDue_ebc (s : State) (n : Fin 32) : (signalDue s n).ebc = s.ebc := match signalDue_only s n with | ⟨_, _, _, _, _, _, _, _, h⟩ => (congrArg State.ebc h :)
@[simp] theorem signalDue_fir (s : State) (n : Fin 32) : (signalDue s n).fir = s.fir := match signalDue_only s n with | ⟨_, _, _, _, _, _, _, _, h⟩ => (congrArg State.fir h :)
@[simp] theorem signalDue_nhd (s : State) (n : Fin 32) : (signalDue s n).nhd = s.nhd := match signalDue_only s n with | ⟨_, _, _, _, _, _, _, _, h⟩ => (congrArg State.nhd h :)
@[simp] theorem signalDue_hlk (s : State) (n : Fin 32) : (signalDue s n).hlk = s.hlk := match signalDue_only s n with | ⟨_, _, _, _, _, _, _, _, h⟩ => (congrArg State.hlk h :)
@[simp] theorem signalDue_cam (s : State) (n : Fin 32) : (signalDue s n).cam = s.cam := match signalDue_only s n with | ⟨_, _, _, _, _, _, _, _, h⟩ => (congrArg State.cam h :)
@[simp] theorem signalDue_mot (s : State) (n : Fin 32) : (signalDue s n).mot = s.mot := match signalDue_only s n with | ⟨_, _, _, _, _, _, _, _, h⟩ => (congrArg State.mot h :)
@[simp] theorem signalDue_hkp (s : State) (n : Fin 32) : (signalDue s n).hkp = s.hkp := match signalDue_only s n with | ⟨_, _, _, _, _, _, _, _, h⟩ => (congrArg State.hkp h :)
@[simp] theorem signalDue_lgt (s : State) (n : Fin 32) : (signalDue s n).lgt = s.lgt := match signalDue_only s n with | ⟨_, _, _, _, _, _, _, _, h⟩ => (congrArg State.lgt h :)
@[simp] theorem signalDue_cal (s : State) (n : Fin 32) : (signalDue s n).cal = s.cal := match signalDue_only s n with | ⟨_, _, _, _, _, _, _, _, h⟩ => (congrArg State.cal h :)
@[simp] theorem signalDue_eth (s : State) (n : Fin 32) : (signalDue s n).eth = s.eth := match signalDue_only s n with | ⟨_, _, _, _, _, _, _, _, h⟩ => (congrArg State.eth h :)
@[simp] theorem signalDue_ethq (s : State) (n : Fin 32) : (signalDue s n).ethq = s.ethq := match signalDue_only s n with | ⟨_, _, _, _, _, _, _, _, h⟩ => (congrArg State.ethq h :)
@[simp] theorem signalDue_seq (s : State) (n : Fin 32) : (signalDue s n).seq = s.seq := match signalDue_only s n with | ⟨_, _, _, _, _, _, _, _, h⟩ => (congrArg State.seq h :)
@[simp] theorem signalDue_ep (s : State) (n : Fin 32) : (signalDue s n).ep = s.ep := match signalDue_only s n with | ⟨_, _, _, _, _, _, _, _, h⟩ => (congrArg State.ep h :)
@[simp] theorem signalDue_flash (s : State) (n : Fin 32) : (signalDue s n).flash = s.flash := match signalDue_only s n with | ⟨_, _, _, _, _, _, _, _, h⟩ => (congrArg State.flash h :)

/-! ### signalEntry -/
theorem signalEntry_only (s : State) (n : Fin 32) : ∃ bob' evt' out' dram' sram' hostMem' drc' drcx', signalEntry s n = { s with bob := bob', evt := evt', out := out', dram := dram', sram := sram', hostMem := hostMem', drc := drc', drcx := drcx' } := by
  obtain ⟨_, _, _, _, _, _, _, _, h⟩ := signalDue_only _ n
  exact ⟨_, _, _, _, _, _, _, _, h⟩
@[simp] theorem signalEntry_pending (s : State) (n : Fin 32) : (signalEntry s n).pending = s.pending := match signalEntry_only s n with | ⟨_, _, _, _, _, _, _, _, h⟩ => (congrArg State.pending h :)
@[simp] theorem signalEntry_ct (s : State) (n : Fin 32) : (signalEntry s n).ct = s.ct := match signalEntry_only s n with | ⟨_, _, _, _, _, _, _, _, h⟩ => (congrArg State.ct h :)
@[simp] theorem signalEntry_freeCtr (s : State) (n : Fin 32) : (signalEntry s n).freeCtr = s.freeCtr := match signalEntry_only s n with | ⟨_, _, _, _, _, _, _, _, h⟩ => (congrArg State.freeCtr h :)
@[simp] theorem signalEntry_glb (s : State) (n : Fin 32) : (signalEntry s n).glb = s.glb := match signalEntry_only s n with | ⟨_, _, _, _, _, _, _, _, h⟩ => (congrArg State.glb h :)
@[simp] theorem signalEntry_fw (s : State) (n : Fin 32) : (signalEntry s n).fw = s.fw := match signalEntry_only s n with | ⟨_, _, _, _, _, _, _, _, h⟩ => (congrArg State.fw h :)
@[simp] theorem signalEntry_cmd (s : State) (n : Fin 32) : (signalEntry s n).cmd = s.cmd := match signalEntry_only s n with | ⟨_, _, _, _, _, _, _, _, h⟩ => (congrArg State.cmd h :)
@[simp] theorem signalEntry_tim (s : State) (n : Fin 32) : (signalEntry s n).tim = s.tim := match signalEntry_only s n with | ⟨_, _, _, _, _, _, _, _, h⟩ => (congrArg State.tim h :)
@[simp] theorem signalEntry_pdp (s : State) (n : Fin 32) : (signalEntry s n).pdp = s.pdp := match signalEntry_only s n with | ⟨_, _, _, _, _, _, _, _, h⟩ => (congrArg State.pdp h :)
@[simp] theorem signalEntry_ebc (s : State) (n : Fin 32) : (signalEntry s n).ebc = s.ebc := match signalEntry_only s n with | ⟨_, _, _, _, _, _, _, _, h⟩ => (congrArg State.ebc h :)
@[simp] theorem signalEntry_fir (s : State) (n : Fin 32) : (signalEntry s n).fir = s.fir := match signalEntry_only s n with | ⟨_, _, _, _, _, _, _, _, h⟩ => (congrArg State.fir h :)
@[simp] theorem signalEntry_nhd (s : State) (n : Fin 32) : (signalEntry s n).nhd = s.nhd := match signalEntry_only s n with | ⟨_, _, _, _, _, _, _, _, h⟩ => (congrArg State.nhd h :)
@[simp] theorem signalEntry_hlk (s : State) (n : Fin 32) : (signalEntry s n).hlk = s.hlk := match signalEntry_only s n with | ⟨_, _, _, _, _, _, _, _, h⟩ => (congrArg State.hlk h :)
@[simp] theorem signalEntry_cam (s : State) (n : Fin 32) : (signalEntry s n).cam = s.cam := match signalEntry_only s n with | ⟨_, _, _, _, _, _, _, _, h⟩ => (congrArg State.cam h :)
@[simp] theorem signalEntry_mot (s : State) (n : Fin 32) : (signalEntry s n).mot = s.mot := match signalEntry_only s n with | ⟨_, _, _, _, _, _, _, _, h⟩ => (congrArg State.mot h :)
@[simp] theorem signalEntry_hkp (s : State) (n : Fin 32) : (signalEntry s n).hkp = s.hkp := match signalEntry_only s n with | ⟨_, _, _, _, _, _, _, _, h⟩ => (congrArg State.hkp h :)
@[simp] theorem signalEntry_lgt (s : State) (n : Fin 32) : (signalEntry s n).lgt = s.lgt := match signalEntry_only s n with | ⟨_, _, _, _, _, _, _, _, h⟩ => (congrArg State.lgt h :)
@[simp] theorem signalEntry_cal (s : State) (n : Fin 32) : (signalEntry s n).cal = s.cal := match signalEntry_only s n with | ⟨_, _, _, _, _, _, _, _, h⟩ => (congrArg State.cal h :)
@[simp] theorem signalEntry_eth (s : State) (n : Fin 32) : (signalEntry s n).eth = s.eth := match signalEntry_only s n with | ⟨_, _, _, _, _, _, _, _, h⟩ => (congrArg State.eth h :)
@[simp] theorem signalEntry_ethq (s : State) (n : Fin 32) : (signalEntry s n).ethq = s.ethq := match signalEntry_only s n with | ⟨_, _, _, _, _, _, _, _, h⟩ => (congrArg State.ethq h :)
@[simp] theorem signalEntry_seq (s : State) (n : Fin 32) : (signalEntry s n).seq = s.seq := match signalEntry_only s n with | ⟨_, _, _, _, _, _, _, _, h⟩ => (congrArg State.seq h :)
@[simp] theorem signalEntry_ep (s : State) (n : Fin 32) : (signalEntry s n).ep = s.ep := match signalEntry_only s n with | ⟨_, _, _, _, _, _, _, _, h⟩ => (congrArg State.ep h :)
@[simp] theorem signalEntry_flash (s : State) (n : Fin 32) : (signalEntry s n).flash = s.flash := match signalEntry_only s n with | ⟨_, _, _, _, _, _, _, _, h⟩ => (congrArg State.flash h :)

end Sys2Proof.Machine
end

