-- ==== Sys2Proof/Tests/Slice0.lean ====
section
/-! SUPPORT. The author's own tests: ill-formed terms refused, small checks of single steps, and for every statement states and operands that meet
its hypotheses. -/

namespace Sys2Proof.Machine.Tests

set_option Elab.async false

open Sys2Proof Sys2Proof.Machine

/-! ## Small states -/

/-- A part in service: clocks, DRAM, host link and firmware up, the first grant given, versions chosen. -/
def up : State :=
  { State.reset with
    ct := 1000000
    glb := { State.reset.glb with
      rstN := true, sysLock := true, dramLock := true, sdLock := true, pcieLock := true, thmOscOk := true, sramInit := true, ready := 31
      bootState := .done, fault := 0 }
    fw := { State.reset.fw with accepting := true, granted := true }
    seq := { State.reset.seq with granted := true, thmOk := true, epoch := 1 }
    cmd := { State.reset.cmd with cmdVer := 0x0100 }
    drc := { State.reset.drc with ready := true, capGib := 4, ranks := 1 }
    bob := { State.reset.bob with linkUp := true, trained := true, bme := true, perstN := true } }

/-- A packet of version 1.0 on pair 0. -/
def pk (ws : List Word) : Cmd := { version := 0x0100, words := ws }

/-- A panel of eight lines of one dot on port 0, row-lane 0. -/
def pan1 : Panel :=
  { num := 1, lines := 8, width := 8, nplanes := 1, ready := 1, planes := [{ format := 1, levelsM1 := 1, right := 1 }]
    map := [{ rowlane := 0 }], ports := vset (Vector.replicate 16 {}) 0 { takes := true }, seams := [{ left := 0, right := 1 }]
    bandTable := 0x1000, report := 0x3000 }

/-- The part with the panel active. -/
def active1 : State := { up with pdp := { up.pdp with active := some pan1 }, fir := { up.fir with src := 2 } }

/-- A panel descriptor with one line of one dot: header and plane entry at 0, map entry at 0x100. -/
def openWords : List Word :=
  [0x00010100, 1, 1, 0, 0, 0, 0x1000, 0, 0x0100, 0, 0, 0, 1, 7, 0x3000, 0] ++ List.replicate 16 0 ++
    [0x11, 0, 1, 0, 0, 0, 0, 0, 0x0100, 1, 1, 0] ++ List.replicate 20 0 ++ [0, 0, 0x00010000, 0]

/-- Port 0's head changed. -/
def port0 (s : State) (f : HlkPort → HlkPort) : State := modHport s 0 f
/-- Lane a of port 0 changed. -/
def lane0 (s : State) (f : Lane → Lane) : State := modLane s 0 0 f
/-- Port 0 with a lane in service. -/
def threaded (s : State) : State :=
  lane0 (port0 s fun h => { h with helloDone := true, identified := true, chosen := 0x0100, version := 0x0101, up := true }) fun l => { l with state := .up }

/-- Port 0 with an identified head of one row in its temperature window, jets enabled. -/
def gateUp : State :=
  port0 (threaded { up with fir := { up.fir with jetEn := true } }) fun h =>
    { h with rank := some { nrows := 1, maxRate := 80000, jetLo := 200, jetHi := 600, rows := [(384, 0)] }, timeOk := true, temps := [300] }

/-- A head's identity block and rank record with their checks. -/
def identityBytes : List Byte := let b := wordBytes (0x00010100 :: List.replicate 14 0); b ++ natLe (crc32c b) 4
def rankBytes : List Byte :=
  let b := wordBytes ([0x00000201, 80000, 0, 0, 0, 0, 0, 0, 0, 0, 384] ++ List.replicate 52 0)
  b ++ natLe (crc32c b) 4

/-- Camera input 0 in use, its RAW8 stream fed to context 0 of 16 by 16 pixels. -/
def camUp : State :=
  modIn (modCtx { up with cam := { up.cam with map := vset up.cam.map 0 { en := true, dt := 0x2A } } } 0 fun x => { x with en := true, inW := 16, inH := 16 })
    0 fun x => { x with en := true, lanes := 1, started := true }
/-- A frame in progress on it. -/
def camBusy : State := modCtx camUp 0 fun x => { x with open' := true, frames := [{}] }
/-- A line waiting in input 0's FIFO. -/
def camFed : State := modIn camBusy 0 fun x => { x with fifo := [{}] }

/-- Axis 0 configured and in a state. -/
def axis0 (st : AxisState) (f : Axis → Axis := id) : State := modAxis up 0 fun x => f { x with configured := true, state := st }

/-- A PTP instance of a role on Ethernet port 0, link up, latencies set to 0. -/
def ptp (r : PtpRole) (f : EthPort → EthPort := id) : State :=
  { up with eth := vset up.eth 0 (f { link := true, cfg := { mode := 1, latSet := true }, ptp := { role := r } }) }
/-- Both sequencers in the given states. -/
def sqs (a b : Sq) : State := { up with seq := { up.seq with sqs := #v[a, b] } }
/-- A as the granted one, B standing by. -/
def duo : State := sqs { state := .active } { state := .standby }
/-- The DRAM controller changed. -/
def drcW (f : Drc → Drc) : State := { up with drc := f up.drc }
/-- Light sink, light chain and calibration group 0 changed. -/
def sink0 (f : Sink → Sink) : State := { up with lgt := { up.lgt with sinks := vmod up.lgt.sinks 0 f } }
def chain0 (f : Chain → Chain) : State := { up with lgt := { up.lgt with chains := vmod up.lgt.chains 0 f } }
def cal0 (f : CalGroup → CalGroup) : State := { up with cal := { up.cal with groups := vmod up.cal.groups 0 f } }
/-- The housekeeping block changed. -/
def hkpW (f : Hkp → Hkp) : State := { up with hkp := f up.hkp }
/-- The common registers of a part that has just been released. -/
def booting (f : Glb → Glb) : State :=
  { State.reset with glb := f { State.reset.glb with rstN := true, sysLock := true, sramInit := true } }
/-- A well-formed image header for a payload of 4096 bytes, at an address. -/
def headerAt (a : Nat) : Mem := [(a, 0xF1), (a + 1, 0xB0), (a + 2, 0x12), (a + 3, 0x85), (a + 4, 1), (a + 9, 0x10)]

/-- The part with one bobbin as given. -/
def ring (n : Fin 32) (r : Bobbin) (s : State := up) : State := modRing s n fun _ => r
/-- An enabled bobbin in DRAM at address 0 with one entry produced. -/
def ring1 : Bobbin := { en := true, space := 1, tail := 1 }
/-- A descriptor of 64 bytes from DRAM 0x1000 to DRAM 0x2000, and the first channel working on it. -/
def desc64 : Desc := { srcSpace := 1, dstSpace := 1, length := 64, src := 0x1000, dst := 0x2000 }
def runs (d : Desc) : State := ring 0 { ring1 with desc := some d }
/-- EBC engine 2 holds a block for it. -/
def engs (d : Desc) (b : EngBlk) : State := { runs d with bob := { (runs d).bob with eng := some b } }
/-- The bytes of a COPY descriptor of a length with given spaces, at DRAM address 0. -/
def descBytes (len spaces : BitVec 8) : Mem := (if len = 0 then [(0, 1), (1, spaces)] else [(0, 1), (1, spaces), (4, len)]) ++ [(9, 0x10), (17, 0x20)]
/-- A SYS.NOP packet of a length at DRAM address 0, and the command bobbin of pair 0 holding it. -/
def packetBytes (len ver : BitVec 8) : Mem := [(0, 2), (1, 1), (2, 7)] ++ (if len = 0 then [] else [(4, len)]) ++ [(9, ver)]
def fetches (len ver : BitVec 8) : State := { ring 16 ring1 with dram := packetBytes len ver }
/-! ## Every statement's hypotheses can be met -/

theorem witness_SysCommandsComplete :
    (∃ s : State, ∃ c : Cmd, Runs s sysNopSpec c) ∧
    (∃ s : State, ∃ c : Cmd, Runs s sysHelloSpec c ∧ pw c 0 = 0) ∧
    (∃ s : State, ∃ c : Cmd, ∃ v : Nat, Runs s sysHelloSpec c ∧ v ∈ [0x0300, 0x0301, 0x0302] ∧ pw c 0 = pack [(v, 0), (0x0100, 16)] ∧ s.cmd.cmdVer = 0) ∧
    (∃ s : State, ∃ c : Cmd, ∃ p, Runs s sysCancelSpec c ∧ p.val = bits (pw c 0) 17 16 ∧ findTag (begun s sysCancelSpec c) p ((pw c 0).setWidth 16) = none) ∧
    (∃ s : State, ∃ c : Cmd, ∃ p, ∃ o, Runs s sysCancelSpec c ∧ p.val = bits (pw c 0) 17 16 ∧ findTag (begun s sysCancelSpec c) p ((pw c 0).setWidth 16) = some o ∧ o.started = false) :=
  ⟨⟨up, pk [], by unfold Runs; decide +kernel⟩,
    ⟨up, pk [0], by unfold Runs; decide +kernel⟩,
    ⟨{ up with cmd := State.reset.cmd }, pk [0x01000302], 0x0302, by unfold Runs; decide +kernel⟩,
    ⟨up, pk [0x00010007], 1, by unfold Runs; decide +kernel⟩,
    ⟨{ up with cmd := { up.cmd with pairs := vset up.cmd.pairs 1 { outs := [{ op := 0x0102, pkt := { pair := 1, tag := 7 } }] } } }, pk [0x00010007], 1, { op := 0x0102, pkt := { pair := 1, tag := 7 } }, by unfold Runs; decide +kernel⟩⟩

theorem witness_JobCommandsComplete :
    (∃ s : State, ∃ c : Cmd, Runs s jobOpenPanelSpec c ∧ accessHeld s 1 = false ∧ NoneFails (openChecksHeader c s) ∧ NoneFails (openChecksEntries c s) ∧ NoneFails (mapChecks s (openedPanel c s))) ∧
    (∃ s : State, ∃ c : Cmd, Runs s jobOpenPanelSpec c ∧ accessHeld s 1 = true ∧ s.glb.ready.getLsbD 2 = true) ∧
    (∃ s : State, s.pdp.active = none ∧ throttleStop s = false) ∧
    (∃ s : State, ∃ a, s.pdp.active = some a) ∧
    (∃ s : State, ∃ c : Cmd, ∃ pan : Panel, Runs s jobReadySpec c ∧ panelNamed s (numOf (pw c 0)) = some pan ∧ pan.ready ≤ (pw c 1).toNat ∧ (pw c 1).toNat ≤ nbands pan.lines) ∧
    (∃ s : State, ∃ c : Cmd, ∃ pan : Panel, Runs s jobHemSpec c ∧ panelNamed s (numOf (pw c 0)) = some pan ∧ 1 ≤ (pw c 1).toNat ∧ (pw c 1).toNat ≤ pan.lines ∧ s.fir.next ≤ pan.base + (pw c 1).toNat ∧ (∀ p : Fin 16, (pport s p).sentTop ≤ pan.base + (pw c 1).toNat)) ∧
    (∃ s : State, ∃ pan : Panel, s.pdp.active = some pan) ∧
    (∃ s : State, ∃ pan : Panel, ∃ q, s.pdp.active = some pan ∧ s.pdp.queued = some q ∧ q.num ≠ pan.num) ∧
    (∃ s : State, ∃ c : Cmd, ∃ pan : Panel, Runs s jobAbortSpec c ∧ panelNamed s (numOf (pw c 0)) = some pan) ∧
    (∃ s : State, ∃ c : Cmd, ∃ pan : Panel, Runs s jobWaitHemSpec c ∧ panelNamed s (numOf (pw c 0)) = some pan) ∧
    (∃ s : State, ∃ c : Cmd, ∃ e, Runs s jobWaitHemSpec c ∧ panelNamed s (numOf (pw c 0)) = none ∧ s.pdp.past.find? (fun e => e.num == numOf (pw c 0)) = some e) :=
  ⟨⟨port0 { up with fir := { up.fir with src := 2 }, dram := memWrite [] 0 (wordBytes openWords) } (fun h => { h with identified := true }), pk [0, 0], by unfold Runs NoneFails; decide +kernel⟩,
    ⟨drcW (fun d => { d with ready := false }), pk [0, 0], by unfold Runs; decide +kernel⟩,
    ⟨up, by decide +kernel⟩,
    ⟨active1, pan1, by decide +kernel⟩,
    ⟨active1, pk [1, 1], pan1, by unfold Runs; decide +kernel⟩,
    ⟨active1, pk [1, 8], pan1, by unfold Runs; decide +kernel⟩,
    ⟨active1, pan1, by decide +kernel⟩,
    ⟨{ active1 with pdp := { active1.pdp with queued := some { pan1 with num := 2, base := 8 } } }, pan1, { pan1 with num := 2, base := 8 }, by decide +kernel⟩,
    ⟨active1, pk [1], pan1, by unfold Runs; decide +kernel⟩,
    ⟨active1, pk [1], pan1, by unfold Runs; decide +kernel⟩,
    ⟨{ active1 with pdp := { active1.pdp with past := [{ num := 2 }] } }, pk [2], { num := 2 }, by unfold Runs; decide +kernel⟩⟩

theorem witness_TableCommandsTaken :
    (∃ s : State, ∃ c : Cmd, Runs s pdpLoadCurvesSpec c ∧ TableFree s c 0x0301 ∧ (pw c 2).toNat ≤ 196607 ∧ 1 ≤ (pw c 3).toNat ∧ (pw c 2).toNat + (pw c 3).toNat ≤ 196608 ∧ SourceOk s c 2 (18 * (pw c 3).toNat)) ∧
    (∃ s : State, ∃ c : Cmd, Runs s pdpLoadGlobalCurveSpec c ∧ TableFree s c 0x0302 ∧ SourceOk s c 64 512) ∧
    (∃ s : State, ∃ c : Cmd, Runs s pdpLoadScreenSpec c ∧ TableFree s c 0x0303 ∧ SourceOk s c 64 (15 * (bits (pw c 2) 15 8 + 1) * (bits (pw c 2) 23 16 + 1))) ∧
    (∃ s : State, ∃ c : Cmd, Runs s pdpLoadSeamMaskSpec c ∧ TableFree s c 0x0304 ∧ SourceOk s c 64 4096) ∧
    (∃ s : State, ∃ c : Cmd, Runs s pdpSetLevelMapSpec c ∧ TableFree s c 0x0305 ∧ (hport s (portWord c)).identified = true ∧ levelCode (levelsOf c.words) 0 = 0 ∧ levelMapOk (levelsOf c.words) (codeWidth s (portWord c)) = true) ∧
    (∃ s : State, ∃ c : Cmd, ∃ pan : Panel, Runs s pdpSetSelvedgeSpec c ∧ TableFree s c 0x0306 ∧ panelNamed s (numOf (w32 (bits (pw c 0) 15 0))) = some pan ∧ hemPassed s 0x0306 c.words (numOf (w32 (bits (pw c 0) 15 0))) = false ∧ bits (pw c 0) 18 16 < pan.nplanes ∧ (pw c 1).toNat < (pw c 2).toNat ∧ (pw c 2).toNat ≤ pan.width ∧ bits (pw c 3) 4 0 ≤ 16) ∧
    (∃ s : State, ∃ c : Cmd, ∃ pan : Panel, Runs s pdpSetSeamSpec c ∧ TableFree s c 0x0307 ∧ panelNamed s (numOf (w32 (bits (pw c 0) 15 0))) = some pan ∧ hemPassed s 0x0307 c.words (numOf (w32 (bits (pw c 0) 15 0))) = false ∧ bits (pw c 0) 21 16 < pan.seams.length ∧ 8 ≤ bits (pw c 2) 10 0 ∧ bits (pw c 2) 10 0 ≤ 1024) :=
  ⟨⟨up, pk [0, 0, 196607, 1, 0], by unfold Runs TableFree SourceOk; decide +kernel⟩,
    ⟨up, pk [0, 0, 0], by unfold Runs TableFree SourceOk; decide +kernel⟩,
    ⟨up, pk [0, 0, 0, 0], by unfold Runs TableFree SourceOk; decide +kernel⟩,
    ⟨up, pk [0, 0, 0], by unfold Runs TableFree SourceOk; decide +kernel⟩,
    ⟨threaded up, pk [0, 0, 0], by unfold Runs TableFree; decide +kernel⟩,
    ⟨active1, pk [1, 0, 8, 16, 0, 0, 0, 0], pan1, by unfold Runs TableFree; decide +kernel⟩,
    ⟨active1, pk [1, 0, 1024], pan1, by unfold Runs TableFree; decide +kernel⟩⟩

theorem witness_PdpEngineRuns :
    (∃ s : State, ∃ j, s.pdp.job = some j ∧ j.copying = true ∧ j.op = 0x0302 ∧ dramReady s = true) ∧
    (∃ s : State, ∃ queued, ∃ re, ∃ band, ∃ pl : Fin 8, ∃ pan : Panel, ∃ e, panelSel s queued = some pan ∧ fetchable s pan re band pl.val = true ∧ bandEntry s pan band pl.val = e ∧ bandHeaderBad pan e band pl.val = false ∧ addrAt e 8 = 0 ∧ bits (wordAt e 0x14) 31 16 = 0 ∧ (wordAt e 0x10).toNat ≤ (pan.planes.getD pl.val {}).ovfBlocks) ∧
    (∃ s : State, ∃ queued, ∃ re, ∃ band, ∃ pl : Fin 8, ∃ pan : Panel, ∃ e, panelSel s queued = some pan ∧ fetchable s pan re band pl.val = true ∧ bandEntry s pan band pl.val = e ∧ bandHeaderBad pan e band pl.val = true) ∧
    (∃ s : State, ∃ queued, ∃ re, ∃ band, ∃ pl : Fin 8, ∃ i, ∃ j, ∃ src, ∃ pan : Panel, ∃ b, panelSel s queued = some pan ∧ (bandsOf s re).find? (bandIs pan band pl.val) = some b ∧ b.coded.find? (fun x => x.1 = i) = some (j, src) ∧ refReady s pan b i = true ∧ (re = false → storeRoom s pan band pl.val = true) ∧ (blockPlace (pan.planes.getD pl.val {}) b i).2.2 = false) ∧
    (∃ s : State, ∃ e : Fin 2, ∃ queued, ∃ re, ∃ band, ∃ pl : Fin 8, ∃ i, ∃ j, ∃ src, ∃ raw, ∃ pan : Panel, ∃ b, ∃ eng : Fin 4, eng.val = e.val ∧ panelSel s queued = some pan ∧ (bandsOf s re).find? (bandIs pan band pl.val) = some b ∧ b.coded.find? (fun x => x.1 = i) = some (j, src) ∧ b.xref = false ∧ (re = false → storeRoom s pan band pl.val = true) ∧ (blockPlace (pan.planes.getD pl.val {}) b i).2.2 = true ∧ ebcDecode (widthCode (pan.planes.getD pl.val {}).format) src none = .ok raw) ∧
    (∃ s : State, ∃ e : Fin 2, ∃ queued, ∃ re, ∃ band, ∃ pl : Fin 8, ∃ i, ∃ j, ∃ src, ∃ pan : Panel, ∃ b, ∃ eng : Fin 4, eng.val = e.val ∧ panelSel s queued = some pan ∧ (bandsOf s re).find? (bandIs pan band pl.val) = some b ∧ b.coded.find? (fun x => x.1 = i) = some (j, src) ∧ b.xref = false ∧ (re = false → storeRoom s pan band pl.val = true) ∧ (blockPlace (pan.planes.getD pl.val {}) b i).2.2 = true ∧ ebcDecode (widthCode (pan.planes.getD pl.val {}).format) src none = .overrun) ∧
    (∃ s : State, ∃ pan : Panel, nowC s = s.pdp.c ∧ panelAt s s.pdp.c = some pan ∧ mayCompute s = true ∧ s.pdp.c < paceOf s pan + 64 ∧ usesInvalid s pan = false ∧ (s.pdp.c - pan.base) / 8 < pan.ready ∧ bandReady s pan ((s.pdp.c - pan.base) / 8) = true) ∧
    (∃ s : State, ∃ p, ∃ abs, ∃ pan : Panel, deadLine s = none ∧ workPort s = some p ∧ missing s p = some abs ∧ panelAt s abs = some pan ∧ mayCompute s = true ∧ (pport s p).lines.any (fun l => l.unpick) = false ∧ segReady s pan ((abs - pan.base) / 8) p = true) ∧
    (∃ s : State, ∃ p, ∃ abs, ∃ pan : Panel, mayCompute s = true ∧ deadLine s = some (p, abs, pan)) ∧
    (∃ s : State, ∃ p, ∃ pan : Panel, ∃ l, sendable s p = some (pan, l) ∧ ((pport s p).lines.any (fun x => x.unpick) = true → (pport s p).s - (pport s p).f < 8)) ∧
    (∃ s : State, ∃ p, ∃ pan : Panel, ∃ l, workPort s = some p ∧ (pport s p).lines.find? (fun x => x.unpick) = some l ∧ panelAt s l.abs = some pan ∧ portUp s p = true ∧ guarded s pan p l.abs = false ∧ mayCompute s = true ∧ usesInvalid s pan = false ∧ segReady s pan ((l.abs - pan.base) / 8) p = true ∧ ((pport s p).s - (pport s p).f < 8 → sendable s p = none)) :=
  ⟨⟨{ up with pdp := { up.pdp with job := some { op := 0x0302, copying := true } } }, { op := 0x0302, copying := true }, by decide +kernel⟩,
    ⟨{ active1 with dram := memWrite [] 0x1020 (wordBytes [0x00000100]) }, false, false, 0, 0, pan1, wordBytes ([0, 0, 0, 0, 0, 0, 0, 0, 0x00000100] ++ List.replicate 7 0), by decide +kernel⟩,
    ⟨active1, false, false, 0, 0, pan1, List.replicate 64 0, by decide +kernel⟩,
    ⟨{ active1 with pdp := { active1.pdp with store := [{ panel := 1, coded := [(0, [5])] }] } }, false, false, 0, 0, 0, 0, [5], pan1, { panel := 1, coded := [(0, [5])] }, by decide +kernel⟩,
    ⟨{ active1 with pdp := { active1.pdp with store := [{ panel := 1, slotKind := 1, coded := [(0, [0xC9, 0xFF, 0x00, 0xAA])] }] } }, 1, false, false, 0, 0, 0, 0, [0xC9, 0xFF, 0x00, 0xAA], List.replicate 256 0xAA, pan1, { panel := 1, slotKind := 1, coded := [(0, [0xC9, 0xFF, 0x00, 0xAA])] }, 1, by decide +kernel⟩,
    ⟨{ active1 with pdp := { active1.pdp with store := [{ panel := 1, slotKind := 1, coded := [(0, [0xFF])] }] } }, 1, false, false, 0, 0, 0, 0, [0xFF], pan1, { panel := 1, slotKind := 1, coded := [(0, [0xFF])] }, 1, by decide +kernel⟩,
    ⟨{ active1 with pdp := { active1.pdp with store := [{ panel := 1, blocks := [(0, none)] }] } }, pan1, by decide +kernel⟩,
    ⟨{ active1 with pdp := { active1.pdp with c := 1, staging := [{ panel := 1, blocks := [(0, none)] }] } }, 0, 0, pan1, by decide +kernel⟩,
    ⟨{ active1 with pdp := { active1.pdp with c := 1, active := some { pan1 with planes := [{}] }, invalid := [.curves] } }, 0, 0, { pan1 with planes := [{}] }, by decide +kernel⟩,
    ⟨threaded { active1 with pdp := { active1.pdp with c := 1, ports := vset active1.pdp.ports 0 { lines := [{ abs := 0 }] } } }, 0, pan1, { abs := 0 }, by decide +kernel⟩,
    ⟨threaded { active1 with fir := { active1.fir with posU := -100 * 2 ^ 32 }, pdp := { active1.pdp with c := 1, staging := [{ panel := 1, blocks := [(0, none)] }], ports := vset active1.pdp.ports 0 { s := 1, lines := [{ abs := 0, sent := true, unpick := true }] } } }, 0, pan1, { abs := 0, sent := true, unpick := true }, by decide +kernel⟩⟩

theorem witness_PanelHemReports :
    (∃ s : State, ∃ pan : Panel, s.pdp.active = some pan ∧ s.pdp.queued = none ∧ (∀ p ∈ partPorts pan, panelEnd pan ≤ (pport s p).f) ∧ s.drc.frozen = false ∧ pan.unf = [] ∧ s.nhd.run = none ∧ (∀ p : Fin 16, (hport s p).held = false)) ∧
    (∃ s : State, ∃ pan : Panel, s.pdp.active = some pan ∧ s.pdp.queued = none ∧ (∀ p ∈ partPorts pan, panelEnd pan ≤ (pport s p).f) ∧ s.drc.frozen = true ∧ pan.unf = [] ∧ s.nhd.run = none ∧ s.pdp.held = [] ∧ (∀ p : Fin 16, (hport s p).held = false)) ∧
    (∃ s : State, ∃ pan : Panel, ∃ q, s.pdp.active = some pan ∧ s.pdp.queued = some q ∧ (∀ p ∈ partPorts pan, panelEnd pan ≤ (pport s p).f) ∧ pan.unf = [] ∧ s.nhd.run = none ∧ throttleStop s = false ∧ (∀ p : Fin 16, (hport s p).held = false)) ∧
    (∃ s : State, s.bob.linkUp = true) :=
  ⟨⟨{ active1 with pdp := { active1.pdp with ports := vset active1.pdp.ports 0 { f := 8 } } }, pan1, by decide +kernel⟩,
    ⟨{ active1 with drc := { active1.drc with ready := false, frozen := true }, pdp := { active1.pdp with ports := vset active1.pdp.ports 0 { f := 8 } } }, pan1, by decide +kernel⟩,
    ⟨{ active1 with pdp := { active1.pdp with queued := some { pan1 with num := 2, base := 8 }, ports := vset active1.pdp.ports 0 { f := 8 } } }, pan1, { pan1 with num := 2, base := 8 }, by decide +kernel⟩,
    ⟨up, by decide +kernel⟩⟩

theorem witness_FirCommandsComplete :
    (∃ s : State, ∃ c : Cmd, Runs s firSetFeedSpec c ∧ panelOpen s = false ∧ bits (pw c 0) 1 0 = 0 ∧ (pw c 1).toNat + 2 ^ 32 * bits (pw c 2) 7 0 ≠ 0 ∧ (pw c 3).toNat + 2 ^ 32 * bits (pw c 4) 7 0 ≠ 0) ∧
    (∃ s : State, ∃ c : Cmd, Runs s firSetFeedSpec c ∧ panelOpen s = false ∧ bits (pw c 0) 1 0 = 1 ∧ axisUsable s (bits (pw c 0) 4 2) = true ∧ 1 ≤ bits (pw c 0) 15 8 ∧ (bit (pw c 0) 6 = true → bits (pw c 0) 23 20 ≤ 8) ∧ (pw c 1).toNat + 2 ^ 32 * bits (pw c 2) 7 0 ≠ 0 ∧ (pw c 3).toNat + 2 ^ 32 * bits (pw c 4) 7 0 ≠ 0 ∧ 800 ≤ bits (pw c 6) 15 0 ∧ bits (pw c 6) 15 0 ≤ 8000) ∧
    (∃ s : State, ∃ c : Cmd, Runs s firSetFeedSpec c ∧ panelOpen s = false ∧ bits (pw c 0) 1 0 = 2 ∧ axisUsable s (bits (pw c 0) 4 2) = true ∧ 1 ≤ bits (pw c 0) 15 8 ∧ bits (pw c 0) 19 16 ≤ 8 ∧ (pw c 1).toNat + 2 ^ 32 * bits (pw c 2) 7 0 ≠ 0 ∧ (pw c 3).toNat + 2 ^ 32 * bits (pw c 4) 7 0 ≠ 0 ∧ 1 ≤ bits (pw c 5) 7 0 ∧ bits (pw c 5) 7 0 ≤ 200 ∧ 4 ≤ bits (pw c 5) 15 8 ∧ bits (pw c 5) 15 8 ≤ 100 ∧ 1 ≤ bits (pw c 5) 22 16 ∧ bits (pw c 5) 22 16 ≤ 100 ∧ 800 ≤ bits (pw c 6) 15 0 ∧ bits (pw c 6) 15 0 ≤ 8000) ∧
    (∃ s : State, ∃ c : Cmd, Runs s firSetFeedSpec c ∧ panelOpen s = false ∧ bits (pw c 0) 1 0 = 3 ∧ (pw c 1).toNat + 2 ^ 32 * bits (pw c 2) 7 0 ≠ 0 ∧ (pw c 3).toNat + 2 ^ 32 * bits (pw c 4) 7 0 ≠ 0 ∧ 800 ≤ bits (pw c 6) 15 0 ∧ bits (pw c 6) 15 0 ≤ 8000) ∧
    (∃ s : State, ∃ c : Cmd, ∃ p : Fin 16, Runs s firSetRowsSpec c ∧ p.val = bits (pw c 0) 3 0 ∧ panelOpen s = false ∧ -400000 ≤ sbits (pw c 1) 31 0 ∧ sbits (pw c 1) 31 0 ≤ 400000) ∧
    (∃ s : State, ∃ c : Cmd, Runs s firSetOverspeedSpec c ∧ 128 ≤ bits (pw c 0) 7 0 ∧ 192 ≤ bits (pw c 0) 15 8) ∧
    (∃ s : State, ∃ c : Cmd, Runs s firClearFaultSpec c) :=
  ⟨⟨up, pk [0, 1, 0, 1, 0, 0, 0, 0], by unfold Runs; decide +kernel⟩,
    ⟨modAxis up 0 (fun x => { x with configured := true, state := .idle }), pk [0x00080101, 1, 0, 1, 0, 0, 800, 0], by unfold Runs; decide +kernel⟩,
    ⟨modAxis up 0 (fun x => { x with configured := true, state := .idle, encEn := true }), pk [0x00080102, 1, 0, 1, 0, 0x00010401, 8000, 0], by unfold Runs; decide +kernel⟩,
    ⟨up, pk [3, 1, 0, 1, 0, 0, 8000, 0], by unfold Runs; decide +kernel⟩,
    ⟨up, pk (15 :: 400000 :: List.replicate 32 0), 15, by unfold Runs; decide +kernel⟩,
    ⟨up, pk [0xC080], by unfold Runs; decide +kernel⟩,
    ⟨up, pk [], by unfold Runs; decide +kernel⟩⟩

theorem witness_FirEngineRuns :
    (∃ s : State, s.glb.sysLock = true ∧ s.pdp.active = none ∧ s.pdp.queued = none ∧ s.fir.src = 2 ∧ s.fir.decs = []) ∧
    (∃ s : State, ∃ p, ∃ st, ∃ rest, ∃ l, (let u := pump { s with fir := { s.fir with stitches := vset s.fir.stitches p rest } } p; vget s.fir.stitches p = st :: rest ∧ portUp u p = true ∧ quickLane u p = some l ∧ (hport u p).helloDone = true ∧ roomFor u p l (.stitch st) = true)) ∧
    (∃ s : State, ∃ p, ∃ st, ∃ rest, ∃ l, (let u := pump { s with fir := { s.fir with stitches := vset s.fir.stitches p rest } } p; vget s.fir.stitches p = st :: rest ∧ portUp u p = true ∧ quickLane u p = some l ∧ (hport u p).helloDone = true ∧ roomFor u p l (.stitch st) = false)) ∧
    (∃ s : State, ∃ p, ∃ pan : Panel, ∃ abs, ∃ t0, s.glb.sysLock = true ∧ fullLines s p = [(pan, abs, t0)]) ∧
    (∃ s : State, s.bob.linkUp = true) :=
  ⟨⟨{ up with fir := { up.fir with src := 2 } }, by decide +kernel⟩,
    ⟨threaded { up with fir := { up.fir with stitches := vset up.fir.stitches 0 [{ panel := 1 }] } }, 0, { panel := 1 }, [], 0, by decide +kernel⟩,
    ⟨lane0 (threaded { up with fir := { up.fir with stitches := vset up.fir.stitches 0 [{ panel := 1 }] } }) (fun l => { l with held := List.replicate 2048 { seq := 0, body := .idle } }), 0, { panel := 1 }, [], 0, by decide +kernel⟩,
    ⟨{ active1 with fir := { active1.fir with decs := [{ abs := 0, left := [0] }], commits := vset active1.fir.commits 0 [{ at' := 1000001 }] } }, 0, pan1, 0, 1000001, by decide +kernel⟩,
    ⟨up, by decide +kernel⟩⟩

theorem witness_CreditOfDecisions :
    (∃ s : State, ∃ pan : Panel, ∃ abs, ∃ at' : Nat, ∃ t0 : Nat, s.fir.tPrev = some t0 ∧ laggingPort s pan abs = none ∧ (∀ p ∈ partPorts pan, endedOn s p abs = false) ∧ (tLim s pan : Int) ≤ min ((2 * tLim s pan : Nat) : Int) (s.fir.credit + ((at' : Int) - t0)) ∧ (∀ t1, s.fir.tFired = some t1 → ((tLim s pan * s.fir.skipFloor / 256 : Nat) : Int) ≤ (at' : Int) - t1)) ∧
    (∃ s : State, ∃ pan : Panel, ∃ abs, ∃ at' : Nat, ∃ t0 : Nat, s.fir.tPrev = some t0 ∧ laggingPort s pan abs = none ∧ (∀ p ∈ partPorts pan, endedOn s p abs = false) ∧ (min ((2 * tLim s pan : Nat) : Int) (s.fir.credit + ((at' : Int) - t0)) < tLim s pan) ∧ pan.overspeed ≠ 1) :=
  ⟨⟨{ up with fir := { up.fir with tPrev := some 0 } }, pan1, 0, 1000000, 0, by decide +kernel⟩,
    ⟨{ up with fir := { up.fir with tPrev := some 0 } }, pan1, 0, 0, 0, by decide +kernel⟩⟩

theorem witness_NhdSettingsComplete :
    (∃ s : State, ∃ c : Cmd, Runs s setNozzlesSpec c ∧ 1 ≤ (nozzlePairs c).length ∧ (nozzlePairs c).length ≤ 1020 ∧ (∀ k ∈ nozzlePairs c, k.1 < 196608 ∧ entryState k.2 ≤ 4) ∧ stagedEntries s + (((nozzlePairs c).map (·.1)).eraseDups.filter fun n => !s.nhd.staged.any (isEntryOf n)).length ≤ 4096) ∧
    (∃ s : State, ∃ c : Cmd, Runs s nhdSetRangeSpec c ∧ 1 ≤ (pw c 1).toNat ∧ (pw c 0).toNat + (pw c 1).toNat ≤ 196608 ∧ entryState ((pw c 2).setWidth 16) ≤ 4 ∧ stagedRanges s < 64) ∧
    (∃ s : State, ∃ c : Cmd, Runs s nhdDiscardStagedSpec c) ∧
    (∃ s : State, ∃ c : Cmd, Runs s nhdSetKernelSpec c ∧ bits (pw c 2) 8 0 ≤ 256 ∧ bits (pw c 2) 24 16 ≤ 256 ∧ 1 ≤ bits (pw c 3) 4 0 ∧ bits (pw c 3) 4 0 ≤ 16) ∧
    (∃ s : State, ∃ c : Cmd, Runs s nhdSetPolicySpec c ∧ bits (pw c 0) 3 2 ≠ 3 ∧ bit (pw c 0) 4 = true) ∧
    (∃ s : State, ∃ c : Cmd, Runs s nhdSetPolicySpec c ∧ bits (pw c 0) 3 2 ≠ 3 ∧ bit (pw c 0) 4 = false) ∧
    (∃ s : State, ∃ c : Cmd, ∃ g : Fin 2, Runs s nhdSetGateSpec c ∧ g.val = bits (pw c 0) 0 0) :=
  ⟨⟨up, pk [1, 196607, 0x0004], by unfold Runs; decide +kernel⟩,
    ⟨up, pk [0, 196608, 0x0004], by unfold Runs; decide +kernel⟩,
    ⟨up, pk [], by unfold Runs; decide +kernel⟩,
    ⟨up, pk [7, 0, 0x01000100, 16], by unfold Runs; decide +kernel⟩,
    ⟨up, pk [0x10], by unfold Runs; decide +kernel⟩,
    ⟨up, pk [0x08], by unfold Runs; decide +kernel⟩,
    ⟨up, pk [1, 0, 0], 1, by unfold Runs; decide +kernel⟩⟩

theorem witness_NozzleMapCommits :
    (∃ s : State, ∃ c : Cmd, Runs s nhdCommitMapSpec c ∧ bits (pw c 0) 1 0 ≤ 2 ∧ (bits (pw c 0) 1 0 = 2 → hemTaken s = false)) ∧
    (∃ s : State, ∃ j : CommitJob, j.mode = 2 ∧ s.pdp.active.isSome = true) ∧
    (∃ s : State, ∃ j : CommitJob, (j.mode = 2 → s.pdp.active = none)) ∧
    (∃ s : State, ∃ c : Cmd, Runs s nhdLoadMapSpec c ∧ addr64 (pw c 0) (pw c 1) % 64 = 0 ∧ inSpace s 1 (addr64 (pw c 0) (pw c 1)) 393216 = true ∧ bits (pw c 2) 1 0 ≤ 2 ∧ (bits (pw c 2) 1 0 = 2 → hemTaken s = false) ∧ s.nhd.load = none ∧ s.nhd.read = none ∧ s.drc.frozen = false) ∧
    (∃ s : State, ∃ c : Cmd, Runs s nhdReadMapSpec c ∧ addr64 (pw c 0) (pw c 1) % 64 = 0 ∧ inSpace s 1 (addr64 (pw c 0) (pw c 1)) (2 * (pw c 3).toNat) = true ∧ (pw c 2).toNat < 196608 ∧ (pw c 2).toNat + (pw c 3).toNat ≤ 196608 ∧ s.nhd.load = none ∧ s.nhd.read = none ∧ s.drc.frozen = false) ∧
    (∃ s : State, ∃ cmd, ∃ ws, s.nhd.load = some (cmd, ws) ∧ dramReady s = true) ∧
    (∃ s : State, ∃ cmd, ∃ ws, s.nhd.read = some (cmd, ws) ∧ dramReady s = true) ∧
    (∃ s : State, ∃ j : CommitJob, ∃ rest, s.nhd.writes = j :: rest) ∧
    (∃ s : State, ∃ j : CommitJob, ∃ rest, ∃ n, ∃ v, s.nhd.writes = j :: rest ∧ j.image = none ∧ j.items = [.entry n v] ∧ n < 196608 ∧ memWf s.sram = true) :=
  ⟨⟨up, pk [2], by unfold Runs; decide +kernel⟩,
    ⟨active1, { mode := 2 }, by decide +kernel⟩,
    ⟨up, { mode := 2 }, by decide +kernel⟩,
    ⟨up, pk [0, 0, 2], by unfold Runs; decide +kernel⟩,
    ⟨up, pk [0, 0, 196607, 1], by unfold Runs; decide +kernel⟩,
    ⟨{ up with nhd := { up.nhd with load := some (none, [0, 0, 0]) } }, none, [0, 0, 0], by decide +kernel⟩,
    ⟨{ up with nhd := { up.nhd with read := some (some (0, 1), [0, 0, 0, 1]) } }, some (0, 1), [0, 0, 0, 1], by decide +kernel⟩,
    ⟨{ up with nhd := { up.nhd with writes := [{}] } }, {}, [], by decide +kernel⟩,
    ⟨{ up with nhd := { up.nhd with writes := [{ items := [.entry 196607 0x104] }] } }, { items := [.entry 196607 0x104] }, [], 196607, 0x104, by decide +kernel⟩⟩

theorem witness_DetectorRowsComplete :
    (∃ s : State, ∃ c : Cmd, ∃ g : Fin 2, ∃ p : Fin 2, ∃ port : Fin 16, Runs s nhdGateRunSpec c ∧ g.val = bits (pw c 0) 0 0 ∧ p.val = 1 - g.val ∧ port.val = bits (pw c 0) 7 4 ∧ NoneFails (gateConditions s port (bits (pw c 0) 11 8)) ∧ (gateOf s g).run = none ∧ (∀ r, (gateOf s p).run = some r → r.port ≠ port) ∧ 1 ≤ bits (pw c 0) 16 12 ∧ bits (pw c 0) 16 12 ≤ 16 ∧ 1 ≤ bits (pw c 0) 21 17 ∧ bits (pw c 0) 21 17 ≤ bits (pw c 0) 16 12 ∧ gateRows (pw c 1) ≠ [] ∧ 1 ≤ bits (pw c 2) 24 16 ∧ bits (pw c 2) 24 16 ≤ 384 ∧ (∀ r ∈ gateRows (pw c 1), rowNozzles s port r.val ≠ 0 ∧ bits (pw c 2) 8 0 + bits (pw c 2) 24 16 ≤ rowNozzles s port r.val) ∧ headTLim s port ≤ (pw c 3).toNat ∧ lo16 (pw c 4) ≤ hi16 (pw c 4) ∧ 4 * (hi16 (pw c 4) - lo16 (pw c 4)) < (pw c 3).toNat ∧ inSpace s 1 (addr64 (pw c 7) (pw c 8)) (8 * ((gateRows (pw c 1)).flatMap fun _ => List.range (bits (pw c 2) 24 16)).length) = true) ∧
    (∃ s : State, ∃ g, ∃ r, (let u := advanceTo s (r.nextAt - s.fir.lead - portDelayCt s r.port - 400); (gateOf s g).run = some r ∧ r.fired < r.drops * r.nozzles.length ∧ r.pausedAt = none ∧ r.stop = none ∧ r.pauseReq = false ∧ gateHolds u r.port = true)) ∧
    (∃ s : State, ∃ g, ∃ r, ∃ i : Nat, ∃ d : BitVec 12, (gateOf s g).run = some r ∧ i < r.shots.length ∧ (∀ j < i, ¬ (r.shots.getD j 0 + 4 * r.tofLo ≤ s.ct - (gateOf s g).delay ∧ s.ct - (gateOf s g).delay ≤ r.shots.getD j 0 + 4 * r.tofHi)) ∧ r.shots.getD i 0 + 4 * r.tofLo ≤ s.ct - (gateOf s g).delay ∧ s.ct - (gateOf s g).delay ≤ r.shots.getD i 0 + 4 * r.tofHi ∧ r.hits.any (fun h => h.1 == i) = false ∧ (gateOf s g).thresh < d.toNat) ∧
    (∃ s : State, ∃ g, ∃ r, ∃ t0, (gateOf s g).run = some r ∧ r.pausedAt = some t0) ∧
    (∃ s : State, ∃ g, ∃ r, (gateOf s g).run = some r ∧ r.drops * r.nozzles.length ≤ r.fired ∧ dramReady s = true) ∧
    (∃ s : State, ∃ c : Cmd, Runs s setSwatchSpec c ∧ s.nhd.run = none ∧ 4 ≤ (swatchOf c).stride ∧ (swatchOf c).stride ≤ 32 ∧ 2 ≤ (swatchOf c).dash ∧ (swatchOf c).dash + 2 ≤ (swatchOf c).pitch ∧ 1 ≤ (swatchOf c).code ∧ (swatchOf c).du ≠ 0 ∧ (swatchOf c).dv ≠ 0 ∧ 1 ≤ (swatchOf c).confirmBad ∧ 1 ≤ (swatchOf c).confirmGood ∧ 1 ≤ (swatchOf c).rows.length ∧ (swatchOf c).rows.length ≤ 512 ∧ stagedBad s (swatchOf c).context = false) ∧
    (∃ s : State, ∃ c : Cmd, ∃ d, ∃ pan : Panel, Runs s nhdPrintSwatchSpec c ∧ s.nhd.swatch = some d ∧ s.nhd.run = none ∧ panelNamed s ((pw c 0).setWidth 16) = some pan ∧ nowC s ≤ pan.base + (pw c 1).toNat ∧ (pw c 1).toNat + swatchLen d ≤ pan.lines ∧ (∀ g ∈ d.rows, d.code < 2 ^ codeWidth s (portOf g.1)) ∧ layersClash pan d.rows = false ∧ inSpace s 1 (addr64 (pw c 2) (pw c 3)) (8 * (d.rows.map fun g => rowNozzles s (portOf g.1) (rowOf g.1).val).sum) = true) ∧
    (∃ s : State, ∃ r, ∃ d, ∃ d0, s.nhd.run = some r ∧ s.nhd.swatch = some d0 ∧ s.nhd.swatchNow.getD d0 = d ∧ r.frameEnd = some 0 ∧ dramReady s = true) ∧
    (∃ s : State, ∃ r, ∃ d, ∃ f, s.nhd.run = some r ∧ s.nhd.swatch = some d ∧ r.firedAt = some f ∧ r.frame = none ∧ s.glb.sysLock = true) :=
  ⟨⟨gateUp, pk [0x00021000, 1, 0x01800000, 5000, 0x03E80000, 0, 0, 0, 0], 0, 1, 0, (by unfold Runs NoneFails; refine ⟨by decide +kernel, by decide +kernel, by decide +kernel, by decide +kernel, by decide +kernel, by decide +kernel, ?_, by decide +kernel⟩; intro r h; have h0 : (gateOf gateUp 1).run = none := (by decide +kernel); rw [h0] at h; cases h)⟩,
    ⟨modGate gateUp 0 (fun g => { g with run := some { nozzles := [0], period := 5000 } }), 0, { nozzles := [0], period := 5000 }, by decide +kernel⟩,
    ⟨modGate gateUp 0 (fun g => { g with run := some { nozzles := [0], tofHi := 1, shots := [999999] } }), 0, { nozzles := [0], tofHi := 1, shots := [999999] }, 0, 1, by decide +kernel⟩,
    ⟨modGate gateUp 0 (fun g => { g with run := some { pausedAt := some 5 } }), 0, { pausedAt := some 5 }, 5, by decide +kernel⟩,
    ⟨modGate gateUp 0 (fun g => { g with run := some {} }), 0, {}, by decide +kernel⟩,
    ⟨up, pk [0x01040204, 0, 0, 0, 1, 0, 1, 0, 0x01100000, 1, 0], by unfold Runs; decide +kernel⟩,
    ⟨{ active1 with nhd := { active1.nhd with swatch := some { stride := 1, pitch := 4, rows := [(0, 0)] } } }, pk [1, 0, 0, 0], { stride := 1, pitch := 4, rows := [(0, 0)] }, pan1, by unfold Runs; decide +kernel⟩,
    ⟨{ up with nhd := { up.nhd with run := some { frameEnd := some 0 }, swatch := some {} } }, { frameEnd := some 0 }, {}, {}, by decide +kernel⟩,
    ⟨{ up with nhd := { up.nhd with run := some { firedAt := some 5 }, swatch := some {} } }, { firedAt := some 5 }, {}, 5, by decide +kernel⟩⟩

theorem witness_LaneTrains :
    (∃ s : State, ∃ p, ∃ l, (laneOfPort s p l).state = .noSignal) ∧
    (∃ s : State, ∃ p, ∃ l, ∃ r, (laneOfPort s p l).state = .rateSwitch ∧ (laneOfPort s p l).rateReq = some r) ∧
    (∃ s : State, ∃ p, ∃ l, training (laneOfPort s p l) = true) ∧
    (∃ s : State, ∃ p, ∃ l, training (laneOfPort s p l) = true ∧ (laneOfPort s p l).state ≠ .acquire) ∧
    (∃ s : State, ∃ p, ∃ l, (laneOfPort s p l).state = .acquire) ∧
    (∃ s : State, ∃ p, ∃ l, (laneOfPort s p l).state = .acquire) ∧
    (∃ s : State, ∃ p, ∃ l, (laneOfPort s p l).state = .screen ∧ (laneOfPort s p l).screening < 15) ∧
    (∃ s : State, ∃ p, ∃ l, ∃ sc : Fin 64, ∃ k, ∃ sc', ∃ rest, (laneOfPort s p l).state = .screen ∧ (laneOfPort s p l).screening = 15 ∧ rankPreset (laneOfPort s p l).ranked 15 sc.val = (k, sc') :: rest) ∧
    (∃ s : State, ∃ p, ∃ l, ∃ k, ∃ sc, ∃ rest, (laneOfPort s p l).state = .check ∧ (laneOfPort s p l).ranked = (k, sc) :: rest) ∧
    (∃ s : State, ∃ p, ∃ l, ∃ e : Nat, ∃ k, ∃ k', ∃ sc, ∃ sc', ∃ rest, (laneOfPort s p l).state = .check ∧ e ≠ 0 ∧ (laneOfPort s p l).failed < 2 ∧ (laneOfPort s p l).ranked = (k, sc) :: (k', sc') :: rest) ∧
    (∃ s : State, ∃ p, ∃ l, ∃ e : Nat, (laneOfPort s p l).state = .check ∧ e ≠ 0 ∧ 2 ≤ (laneOfPort s p l).failed) ∧
    (∃ s : State, ∃ p, ∃ l, (laneOfPort s p l).state = .acquire) ∧
    (∃ s : State, ∃ p, ∃ l, (laneOfPort s p l).state = .ready) ∧
    (∃ s : State, ∃ p, ∃ l, ∃ k : Nat, k = (match (laneOfPort s p l).step with | some k => min 8 (k + 1) | none => 0)) ∧
    (∃ s : State, ∃ p, ∃ l, (laneOfPort s p l).state = .go) ∧
    (∃ s : State, ∃ p, ∃ l, (laneOfPort s p l).state = .unthreaded) :=
  ⟨⟨lane0 up (fun l => { l with state := .noSignal }), 0, 0, by decide +kernel⟩,
    ⟨lane0 up (fun l => { l with state := .rateSwitch, rateReq := some 1 }), 0, 0, 1, by decide +kernel⟩,
    ⟨lane0 up (fun l => { l with state := .acquire }), 0, 0, by decide +kernel⟩,
    ⟨lane0 up (fun l => { l with state := .screen }), 0, 0, by decide +kernel⟩,
    ⟨lane0 up (fun l => { l with state := .acquire }), 0, 0, by decide +kernel⟩,
    ⟨lane0 up (fun l => { l with state := .acquire }), 0, 0, by decide +kernel⟩,
    ⟨lane0 up (fun l => { l with state := .screen, screening := 14 }), 0, 0, by decide +kernel⟩,
    ⟨lane0 up (fun l => { l with state := .screen, screening := 15 }), 0, 0, 7, 15, 7, [], by decide +kernel⟩,
    ⟨lane0 up (fun l => { l with state := .check, ranked := [(3, 20)] }), 0, 0, 3, 20, [], by decide +kernel⟩,
    ⟨lane0 up (fun l => { l with state := .check, ranked := [(3, 20), (4, 10)] }), 0, 0, 1, 3, 4, 20, 10, [], by decide +kernel⟩,
    ⟨lane0 up (fun l => { l with state := .check, failed := 2, ranked := [(3, 20), (4, 10)] }), 0, 0, 1, by decide +kernel⟩,
    ⟨lane0 up (fun l => { l with state := .acquire }), 0, 0, by decide +kernel⟩,
    ⟨lane0 up (fun l => { l with state := .ready }), 0, 0, by decide +kernel⟩,
    ⟨lane0 up (fun l => { l with state := .acquire, step := some 7 }), 0, 0, 8, by decide +kernel⟩,
    ⟨lane0 up (fun l => { l with state := .go }), 0, 0, by decide +kernel⟩,
    ⟨lane0 up (fun l => { l with state := .unthreaded }), 0, 0, by decide +kernel⟩⟩

theorem witness_TrainingSetChecked :
    (∃ s : State, ∃ p, ∃ l, ∃ w, (laneOfPort s p l).state ≠ .disabled ∧ crc8 56 (w.toNat % 2 ^ 56) 0 ≠ tsBits w 63 56) ∧
    (∃ w, crc8 56 (w.toNat % 2 ^ 56) 0 = tsBits w 63 56 ∧ (tsBits w 55 48 ≠ 0 ∨ tsBits w 10 8 = 2 ∧ tsBits w 20 19 = 3)) ∧
    (∃ s : State, ∃ p, ∃ l, ∃ w, (laneOfPort s p l).state = .check ∧ crc8 56 (w.toNat % 2 ^ 56) 0 = tsBits w 63 56 ∧ tsBits w 7 0 = 0xD2 ∧ tsBits w 55 48 = 0 ∧ tsBits w 10 8 = 0 ∧ tsBits w 12 12 = l.val ∧ tsBits w 18 16 / 2 ^ (laneOfPort s p l).rate % 2 = 1) :=
  ⟨⟨lane0 up (fun l => { l with state := .check }), 0, 0, 0x01000000000000D2, by decide +kernel⟩,
    ⟨0x40010000000000D2, (by decide +kernel)⟩,
    ⟨lane0 up (fun l => { l with state := .check }), 0, 0, 0x5E000000000100D2, by decide +kernel⟩⟩

theorem witness_LaneLeavesService :
    (∃ s : State, ∃ p, ∃ l, ∃ n : Fin 65, laneUp s p l = true ∧ 16 ≤ n.val) ∧
    (∃ s : State, ∃ p, ∃ l, ∃ n : Fin 65, laneUp s p l = true ∧ n.val < 16) ∧
    (∃ s : State, ∃ p, ∃ l, ∃ r, laneUp s p l = true ∧ (laneOfPort s p l).rateReq = some r) ∧
    (∃ s : State, ∃ p, ∃ l, training (laneOfPort s p l) = true) ∧
    (∃ s : State, ∃ p, ∃ l, laneUp s p l = true ∧ (laneOfPort s p l).rateReq.isSome = true) ∧
    (∃ s : State, ∃ p, ∃ l, laneUp s p l = true ∧ (laneOfPort s p l).rxSleep = false) ∧
    (∃ s : State, ∃ p, ∃ l, (laneOfPort s p l).state = .sleep) ∧
    (∃ s : State, ∃ p, ∃ l, (laneOfPort s p l).state = .sleep ∧ (laneOfPort s p l).waking = true) ∧
    (∃ s : State, ∃ p, ∃ l, (laneOfPort s p l).state = .sleep ∧ (laneOfPort s p l).waking = true) ∧
    (∃ s : State, ∃ p, ∃ l, ∃ r, (laneOfPort s p l).loop = some r) ∧
    (∃ s : State, ∃ p, ∃ l, ∃ r, (laneOfPort s p l).loop = some r ∧ r.kind = 2) ∧
    (∃ s : State, ∃ p, ∃ l, laneUp s p l = true) :=
  ⟨⟨threaded up, 0, 0, 16, by decide +kernel⟩,
    ⟨threaded up, 0, 0, 15, by decide +kernel⟩,
    ⟨lane0 (threaded up) (fun l => { l with rateReq := some 1 }), 0, 0, 1, by decide +kernel⟩,
    ⟨lane0 up (fun l => { l with state := .acquire }), 0, 0, by decide +kernel⟩,
    ⟨lane0 (threaded up) (fun l => { l with rateReq := some 2 }), 0, 0, by decide +kernel⟩,
    ⟨threaded up, 0, 0, by decide +kernel⟩,
    ⟨lane0 up (fun l => { l with state := .sleep }), 0, 0, by decide +kernel⟩,
    ⟨lane0 up (fun l => { l with state := .sleep, waking := true }), 0, 0, by decide +kernel⟩,
    ⟨lane0 up (fun l => { l with state := .sleep, waking := true }), 0, 0, by decide +kernel⟩,
    ⟨lane0 up (fun l => { l with state := .loopback, loop := some {} }), 0, 0, {}, by decide +kernel⟩,
    ⟨lane0 up (fun l => { l with state := .loopback, loop := some { kind := 2 } }), 0, 0, { kind := 2 }, by decide +kernel⟩,
    ⟨threaded up, 0, 0, by decide +kernel⟩⟩

theorem witness_LaneCommandsComplete :
    (∃ s : State, ∃ c : Cmd, Runs s hlkSetPortSpec c ∧ (inPanel s (portWord c) = true → bit (pw c 0) 4 = true ∧ bits (pw c 0) 6 5 ≠ 0)) ∧
    (∃ s : State, ∃ c : Cmd, Runs s hlkRethreadSpec c) ∧
    (∃ s : State, ∃ c : Cmd, Runs s hlkSleepSpec c ∧ bits (pw c 0) 7 6 ≠ 0 ∧ inPanel s (portWord c) = false ∧ (∀ l, maskHas c 4 l = true → laneBusy s (portWord c) l = false)) ∧
    (∃ s : State, ∃ c : Cmd, Runs s hlkSleepSpec c ∧ bits (pw c 0) 7 6 = 0 ∧ inPanel s (portWord c) = false) ∧
    (∃ s : State, ∃ c : Cmd, ∃ l : Fin 2, Runs s hlkLoopbackSpec c ∧ l.val = b2n (bit (pw c 0) 4) ∧ bits (pw c 0) 6 5 ≠ 3 ∧ 12 ≤ bits (pw c 0) 12 8 ∧ (¬ (inPanel s (portWord c) = true ∧ laneUp s (portWord c) l = true ∧ laneUp s (portWord c) (1 - l) = false)) ∧ laneBusy s (portWord c) l = false) :=
  ⟨⟨active1, pk [0x30], by unfold Runs; decide +kernel⟩,
    ⟨up, pk [0x30], by unfold Runs; decide +kernel⟩,
    ⟨up, pk [0xF0], by unfold Runs; decide +kernel⟩,
    ⟨up, pk [0x30], by unfold Runs; decide +kernel⟩,
    ⟨up, pk [0x0C10], 1, by unfold Runs; decide +kernel⟩⟩

theorem witness_FramesAcknowledged :
    (∃ s : State, ∃ p, ∃ l, ∃ m : AckMsg, ∃ f, ∃ rest, ∃ k, laneUp s p l = true ∧ laneUp s p 0 = true ∧ m.validA = true ∧ m.nakA = false ∧ m.validB = false ∧ (laneOfPort s p 0).held = f :: rest ∧ (m.nextA.toNat + 65536 - f.seq) % 65536 = k ∧ 1 ≤ k ∧ k ≤ (laneOfPort s p 0).held.length) ∧
    (∃ s : State, ∃ p, ∃ l, laneUp s p l = true ∧ 0 < (laneOfPort s p l).unacked) ∧
    (∃ s : State, ∃ p, ∃ l, laneUp s p l = true) ∧
    (∃ s : State, ∃ p, ∃ l, ∃ f, ∃ rest, laneUp s p l = true ∧ (laneOfPort s p l).held = f :: rest ∧ 3 ≤ (laneOfPort s p l).timeouts) ∧
    (∃ s : State, ∃ p, ∃ l, ∃ f, ∃ rest, laneUp s p l = true ∧ (laneOfPort s p l).held = f :: rest ∧ (laneOfPort s p l).timeouts < 3) ∧
    (∃ s : State, ∃ p, ∃ l, ∃ bs : List Byte, laneUp s p l = true ∧ crcOk bs = false) ∧
    (∃ s : State, ∃ p, ∃ l, ∃ bs : List Byte, laneUp s p l = true ∧ crcOk bs = true ∧ malformedFrame (hport s p).version bs = true) ∧
    (∃ s : State, ∃ p, ∃ l, ∃ m : AckMsg, laneUp s p l = true ∧ laneUp s p 0 = true ∧ m.validA = true ∧ m.nakA = true ∧ m.validB = false ∧ ackBeyond s p 0 m.nextA.toNat = false) ∧
    (∃ s : State, ∃ p, ∃ l, ∃ m : AckMsg, laneUp s p l = true ∧ laneUp s p 0 = true ∧ m.validA = true ∧ m.validB = false ∧ ackBeyond s p 0 m.nextA.toNat = true) ∧
    (∃ s : State, ∃ p, ∃ l, ∃ q : BitVec 16, laneUp s p l = true ∧ q.toNat = (laneOfPort s p l).rxNext ∧ 15 ≤ (laneOfPort s p l).unacked) :=
  ⟨⟨lane0 (threaded up) (fun l => { l with held := [{ seq := 65535 }] }), 0, 0, { validA := true, nextA := 0 }, { seq := 65535 }, [], 1, by decide +kernel⟩,
    ⟨lane0 (threaded up) (fun l => { l with unacked := 1 }), 0, 0, by decide +kernel⟩,
    ⟨threaded up, 0, 0, by decide +kernel⟩,
    ⟨lane0 (threaded up) (fun l => { l with held := [{}], timeouts := 3 }), 0, 0, {}, [], by decide +kernel⟩,
    ⟨lane0 (threaded up) (fun l => { l with held := [{}], timeouts := 2 }), 0, 0, {}, [], by decide +kernel⟩,
    ⟨threaded up, 0, 0, [], by decide +kernel⟩,
    ⟨threaded up, 0, 0, frameBytes 256 none false 0 (.data 0 0 []), by decide +kernel⟩,
    ⟨lane0 (threaded up) (fun l => { l with held := [{ seq := 65535 }] }), 0, 0, { validA := true, nakA := true, nextA := 65535 }, by decide +kernel⟩,
    ⟨lane0 (threaded up) (fun l => { l with held := [{ seq := 65535 }] }), 0, 0, { validA := true, nextA := 1 }, by decide +kernel⟩,
    ⟨lane0 (threaded up) (fun l => { l with unacked := 15 }), 0, 0, 0, by decide +kernel⟩⟩

theorem witness_HeadsIdentified :
    (∃ s : State, ∃ p, portUp s p = true ∧ (hport s p).helloFail = none ∧ helloOpen s p 0 = true) ∧
    (∃ s : State, ∃ p, ∃ l, ∃ vs : List (BitVec 16), ∃ ch : BitVec 16, ∃ v, laneUp s p l = true ∧ (hport s p).helloDone = false ∧ (hport s p).helloFail = none ∧ (ch = 0 ∨ ch.toNat ≠ (hport s p).chosen) ∧ chooseVersion vs = some v) ∧
    (∃ s : State, ∃ p, ∃ l, ∃ ch : BitVec 16, laneUp s p l = true ∧ (hport s p).helloDone = false ∧ (hport s p).helloFail = none ∧ ch ≠ 0 ∧ ch.toNat = (hport s p).chosen) ∧
    (∃ s : State, ∃ p, portUp s p = true ∧ (hport s p).helloDone = false ∧ (hport s p).helloFail = none) ∧
    (∃ s : State, ∃ p, ∃ t0, portUp s p = true ∧ (hport s p).helloFail = some t0) ∧
    (∃ s : State, ∃ p, portUp s p = true ∧ (hport s p).helloDone = true ∧ (hport s p).identDue = true ∧ (hport s p).identifying = false ∧ fwRuns s = true) ∧
    (∃ s : State, ∃ p, ∃ a, ∃ b, (hport s p).identifying = true ∧ identityOk a = true ∧ rankOk b = true) ∧
    (∃ s : State, ∃ p, ∃ a, ∃ b, (hport s p).identifying = true ∧ (identityOk a && rankOk b) = false) ∧
    (∃ s : State, ∃ c : Cmd, Runs s hlkIdentifySpec c ∧ (hport s (portWord c)).helloDone = true ∧ portUp s (portWord c) = true ∧ (hport s (portWord c)).identCmd = none) :=
  ⟨⟨threaded up, 0, by decide +kernel⟩,
    ⟨port0 (threaded up) (fun h => { h with helloDone := false, chosen := 0 }), 0, 0, [0x0100], 0, 0x0100, by decide +kernel⟩,
    ⟨port0 (threaded up) (fun h => { h with helloDone := false, chosen := 0x0100 }), 0, 0, 0x0100, by decide +kernel⟩,
    ⟨port0 (threaded up) (fun h => { h with helloDone := false }), 0, by decide +kernel⟩,
    ⟨port0 (threaded up) (fun h => { h with helloFail := some 5 }), 0, 5, by decide +kernel⟩,
    ⟨port0 (threaded up) (fun h => { h with identDue := true }), 0, by decide +kernel⟩,
    ⟨port0 (threaded up) (fun h => { h with identifying := true }), 0, identityBytes, rankBytes, by decide +kernel⟩,
    ⟨port0 (threaded up) (fun h => { h with identifying := true }), 0, [], [], by decide +kernel⟩,
    ⟨threaded up, pk [0], by unfold Runs; decide +kernel⟩⟩

theorem witness_HeadTimeAndStatus :
    (∃ s : State, ∃ p, ∃ l, portUp s p = true ∧ laneUp s p l = true ∧ (laneOfPort s p l).queue = [] ∧ (laneOfPort s p l).resend = [] ∧ (laneOfPort s p l).free ≤ 100 * s.ct) ∧
    (∃ s : State, ∃ p, ∃ l, ∃ id : BitVec 8, ∃ t2 : BitVec 64, ∃ t3 : BitVec 64, ∃ t4 : BitVec 64, ∃ t1 : Nat, ∃ d : Int, laneUp s p l = true ∧ (laneOfPort s p l).syncs.find? (fun x => x.1 = id.toNat) = some (id.toNat, t1) ∧ d = (((t4.toNat : Int) - t1) - ((t3.toNat : Int) - t2.toNat)) / 2 ∧ 0 ≤ d ∧ ((laneOfPort s p l).delays = [] ∨ (d - laneDelay (laneOfPort s p l)).natAbs ≤ 64)) ∧
    (∃ s : State, ∃ p, ∃ l, ∃ id : BitVec 8, ∃ t2 : BitVec 64, ∃ t3 : BitVec 64, ∃ t4 : BitVec 64, ∃ t1 : Nat, ∃ d : Int, laneUp s p l = true ∧ (laneOfPort s p l).syncs.find? (fun x => x.1 = id.toNat) = some (id.toNat, t1) ∧ d = (((t4.toNat : Int) - t1) - ((t3.toNat : Int) - t2.toNat)) / 2 ∧ (d < 0 ∨ (laneOfPort s p l).delays ≠ [] ∧ 64 < (d - laneDelay (laneOfPort s p l)).natAbs)) ∧
    (∃ s : State, ∃ p, ∃ l, ∃ q : BitVec 16, ∃ r, ∃ m : StatusMsg, laneUp s p l = true ∧ q.toNat = (laneOfPort s p l).rxNext ∧ (r = true → (hport s p).statusPast.contains m = false)) ∧
    (∃ s : State, ∃ p, ∃ l, ∃ m : StatusMsg, laneUp s p l = true ∧ (hport s p).statusPast.contains m = true) ∧
    (∃ s : State, ∃ p, portUp s p = true ∧ (hport s p).silent = false) :=
  ⟨⟨threaded up, 0, 0, by decide +kernel⟩,
    ⟨lane0 (threaded up) (fun l => { l with syncs := [(7, 100)] }), 0, 0, 7, 0, 0, 100, 100, 0, by decide +kernel⟩,
    ⟨lane0 (threaded up) (fun l => { l with syncs := [(7, 100)] }), 0, 0, 7, 0, 0, 98, 100, -1, by decide +kernel⟩,
    ⟨port0 (threaded up) (fun h => { h with statusPast := [{ word0 := 1 }] }), 0, 0, 0, true, {}, by decide +kernel⟩,
    ⟨port0 (threaded up) (fun h => { h with statusPast := [{}] }), 0, 0, {}, by decide +kernel⟩,
    ⟨threaded up, 0, by decide +kernel⟩⟩

theorem witness_HeadMemoryTransfers :
    (∃ s : State, ∃ c : Cmd, Runs s hlkMgmtReadSpec c ∧ NoneFails (mgmtChecks s c) ∧ s.drc.frozen = false) ∧
    (∃ s : State, ∃ c : Cmd, Runs s hlkMgmtWriteSpec c ∧ NoneFails (mgmtChecks s c) ∧ (touchesRank c = true → inPanel s (portWord c) = false) ∧ headInWindow s (portWord c) = true ∧ dieBelowWarn s = true ∧ s.drc.frozen = false) ∧
    (∃ s : State, ∃ p, ∃ l, ∃ q : BitVec 16, ∃ r : MgmtMsg, ∃ m, ∃ at', laneUp s p l = true ∧ q.toNat = (laneOfPort s p l).rxNext ∧ (hport s p).identOut = [] ∧ (hport s p).identWait = [] ∧ (laneOfPort s p 0).queue = [] ∧ (laneOfPort s p 1).queue = [] ∧ (hport s p).mgmt = [m] ∧ m.out = some (r.tid.toNat, r.len.toNat, at') ∧ m.write = false ∧ r.write = false ∧ r.hstatus = 0 ∧ s.drc.frozen = false ∧ accessHeld s 1 = false ∧ m.len ≤ m.done + r.len.toNat) ∧
    (∃ s : State, ∃ p, ∃ tid : BitVec 8, ∃ m : Mgmt, ∃ n, ∃ at', (hport s p).mgmt = [m] ∧ m.out = some (tid.toNat, n, at')) ∧
    (∃ s : State, ∃ c : Cmd, Runs s hlkSetTimersSpec c ∧ 4 ≤ bits (pw c 0) 7 0 ∧ bits (pw c 0) 7 0 ≤ 100 ∧ 4 ≤ bits (pw c 0) 15 8 ∧ 4 ≤ bits (pw c 0) 21 16) :=
  ⟨⟨threaded up, pk [0, 0, 65536, 0, 0], by unfold Runs NoneFails; decide +kernel⟩,
    ⟨gateUp, pk [0, 0x200, 4, 0, 0], by unfold Runs NoneFails; decide +kernel⟩,
    ⟨port0 (threaded up) (fun h => { h with mgmt := [{ len := 4, out := some (3, 4, 5) }] }), 0, 0, 0, { tid := 3, len := 4, data := [1, 2, 3, 4] }, { len := 4, out := some (3, 4, 5) }, 5, by decide +kernel⟩,
    ⟨port0 (threaded up) (fun h => { h with mgmt := [{ len := 4, out := some (3, 4, 5) }] }), 0, 3, { len := 4, out := some (3, 4, 5) }, 4, 5, by decide +kernel⟩,
    ⟨up, pk [0x00040404], by unfold Runs; decide +kernel⟩⟩

theorem witness_CamStreamsSet :
    (∃ s : State, ∃ c : Cmd, ∃ i : Fin 4, Runs s camSetInputSpec c ∧ i.val = bits (pw c 0) 1 0 ∧ i.val ≠ 3 ∧ bit (pw c 0) 2 = true ∧ (bits (pw c 0) 5 3 = 1 ∨ bits (pw c 0) 5 3 = 2 ∨ bits (pw c 0) 5 3 = 4) ∧ bits (pw c 0) 11 8 ≠ 0 ∧ laneMapOk (bits (pw c 0) 5 3) (pw c 1) = true ∧ ((camIn s i).lanes = bits (pw c 0) 5 3 ∧ (camIn s i).laneMap.toNat = bits (pw c 1) 7 0 ∨ ∀ k ∈ fedBy s i, (camCtx s k).en = false)) ∧
    (∃ s : State, ∃ c : Cmd, ∃ n : Fin 16, ∃ e, Runs s camSetMapSpec c ∧ n.val = bits (pw c 0) 3 0 ∧ e.en = bit (pw c 0) 4 ∧ e.input.val = bits (pw c 0) 6 5 ∧ e.vc = bits (pw c 0) 11 8 ∧ e.dt = bits (pw c 0) 21 16 ∧ e.ctx.val = bits (pw c 0) 26 24 ∧ (e.en = true → e.input.val ≠ 3 → dtOk e.dt = true) ∧ (∀ m, m ≠ n → entriesClash e (vget s.cam.map m) = false) ∧ (e.en = true → (camCtx s e.ctx).inW ≤ maxWidth s e.input e.dt) ∧ (e = vget s.cam.map n ∨ ((vget s.cam.map n).en = true → (camCtx s (vget s.cam.map n).ctx).en = false) ∧ (e.en = true → (camCtx s e.ctx).en = false))) ∧
    (∃ s : State, ∃ c : Cmd, Runs s camSetContextSpec c ∧ lo16 (pw c 1) % 2 = 0 ∧ 16 ≤ lo16 (pw c 1) ∧ 16 ≤ hi16 (pw c 1) ∧ lo16 (pw c 1) ≤ ctxMaxWidth s (camCtxOf c) ∧ 1 ≤ lo16 (pw c 2) ∧ lo16 (pw c 2) ≤ 1000 ∧ bits (pw c 3) 5 0 ≤ 32 ∧ (lo16 (pw c 1) = (camCtx s (camCtxOf c)).inW ∧ hi16 (pw c 1) = (camCtx s (camCtxOf c)).inH ∨ geomOk (camCtx s (camCtxOf c)).geom (lo16 (pw c 1)) (hi16 (pw c 1)) = true ∧ (camCtx s (camCtxOf c)).en = false) ∧ bit (pw c 0) 3 = true) ∧
    (∃ s : State, ∃ c : Cmd, ∃ i : Fin 4, Runs s camSetInputSpec c ∧ i.val = bits (pw c 0) 1 0 ∧ i.val = 3 ∧ bit (pw c 0) 2 = true ∧ bits (pw c 0) 11 8 ≠ 0 ∧ 8 ≤ bits (pw c 2) 4 0 ∧ bits (pw c 2) 4 0 ≤ 16 ∧ ((camIn s i).p0 = pw c 2 ∨ ∀ k ∈ fedBy s i, (camCtx s k).en = false)) ∧
    (∃ s : State, ∃ c : Cmd, ∃ o : Fin 7, Runs s setOutputSpec c ∧ o.val = bits (pw c 0) 5 3 ∧ (o.val = 0 → bits (pw c 1) 2 0 ≤ 4 ∧ (ctxYuv s (camCtxOf c) = true → bits (pw c 1) 2 0 = 0)) ∧ (o.val = 2 → bits (pw c 1) 2 1 ≠ 0) ∧ (o.val = 2 → bit (pw c 0) 6 = true → bit (pw c 1) 0 = false → (vget (camCtx s (camCtxOf c)).prm.outs (0 : Fin 7)).depth8 = true) ∧ (o.val = 0 → (vget (camCtx s (camCtxOf c)).prm.outs (2 : Fin 7)).en = true → (vget (camCtx s (camCtxOf c)).prm.outs (2 : Fin 7)).tap = false → bit (pw c 1) 3 = true)) ∧
    (∃ s : State, ∃ c : Cmd, Runs s camSetStatsSpec c ∧ (bit (pw c 0) 3 = true → (bits (pw c 0) 5 4 = 1 ∨ bits (pw c 0) 5 4 = 2) ∧ addr64 (pw c 1) (pw c 2) % 64 = 0 ∧ inSpace s (bits (pw c 0) 5 4) (addr64 (pw c 1) (pw c 2)) 6272 = true ∧ addr64 (pw c 3) (pw c 4) % 64 = 0 ∧ inSpace s (bits (pw c 0) 5 4) (addr64 (pw c 3) (pw c 4)) 6272 = true)) ∧
    (∃ s : State, ∃ c : Cmd, Runs s camSetRateSpec c ∧ 250 ≤ bits (pw c 0) 11 0 ∧ bits (pw c 0) 11 0 ≤ 2000) ∧
    (∃ s : State, ∃ c : Cmd, ∃ i : Fin 4, Runs s camSetInputSpec c ∧ i.val = bits (pw c 0) 1 0 ∧ bit (pw c 0) 2 = false ∧ bits (pw c 0) 11 8 ≠ 0 ∧ (i.val ≠ 3 → (bits (pw c 0) 5 3 = 1 ∨ bits (pw c 0) 5 3 = 2 ∨ bits (pw c 0) 5 3 = 4) ∧ laneMapOk (bits (pw c 0) 5 3) (pw c 1) = true) ∧ (i.val = 3 → 8 ≤ bits (pw c 2) 4 0 ∧ bits (pw c 2) 4 0 ≤ 16) ∧ ((i.val ≠ 3 → (camIn s i).lanes = bits (pw c 0) 5 3 ∧ (camIn s i).laneMap.toNat = bits (pw c 1) 7 0) ∧ (i.val = 3 → (camIn s i).p0 = pw c 2) ∨ ∀ k ∈ fedBy s i, (camCtx s k).en = false)) ∧
    (∃ s : State, ∃ c : Cmd, Runs s camSetContextSpec c ∧ lo16 (pw c 1) % 2 = 0 ∧ 16 ≤ lo16 (pw c 1) ∧ 16 ≤ hi16 (pw c 1) ∧ lo16 (pw c 1) ≤ ctxMaxWidth s (camCtxOf c) ∧ 1 ≤ lo16 (pw c 2) ∧ lo16 (pw c 2) ≤ 1000 ∧ bits (pw c 3) 5 0 ≤ 32 ∧ (lo16 (pw c 1) = (camCtx s (camCtxOf c)).inW ∧ hi16 (pw c 1) = (camCtx s (camCtxOf c)).inH ∨ geomOk (camCtx s (camCtxOf c)).geom (lo16 (pw c 1)) (hi16 (pw c 1)) = true ∧ (camCtx s (camCtxOf c)).en = false) ∧ bit (pw c 0) 3 = false) :=
  ⟨⟨up, pk [0x00000124, 0xE4, 0], 0, by unfold Runs; decide +kernel⟩,
    ⟨up, pk [0x002A0010], 0, { en := true, dt := 0x2A }, by unfold Runs; decide +kernel⟩,
    ⟨up, pk [8, 0x00100010, 1000, 32], by unfold Runs; decide +kernel⟩,
    ⟨up, pk [0x00000107, 0, 16], 3, by unfold Runs; decide +kernel⟩,
    ⟨up, pk [0x50, 3], 2, by unfold Runs; decide +kernel⟩,
    ⟨up, pk [0x18, 0, 0, 0x2000, 0], by unfold Runs; decide +kernel⟩,
    ⟨up, pk [250], by unfold Runs; decide +kernel⟩,
    ⟨up, pk [0x00000120, 0xE4, 0], 0, by unfold Runs; decide +kernel⟩,
    ⟨camUp, pk [0, 0x00100010, 1000, 32], by unfold Runs; decide +kernel⟩⟩

theorem witness_CamPicturesSet :
    (∃ s : State, ∃ c : Cmd, ∃ pat, Runs s camSetSensorSpec c ∧ patPreset (bits (pw c 0) 7 4) (BitVec.ofNat 64 (addr64 (pw c 1) (pw c 2))) = some pat ∧ patOk pat = true ∧ ((camCtx s (camCtxOf c)).en = true → pat = (camCtx s (camCtxOf c)).prm.pattern)) ∧
    (∃ s : State, ∃ c : Cmd, Runs s camSetMatrixSpec c) ∧
    (∃ s : State, ∃ c : Cmd, Runs s camLoadToneSpec c ∧ addr64 (pw c 1) (pw c 2) % 64 = 0 ∧ inSpace s 1 (addr64 (pw c 1) (pw c 2)) 520 = true ∧ s.drc.frozen = false ∧ accessHeld s 1 = false) ∧
    (∃ s : State, ∃ c : Cmd, ∃ ds, Runs s camSetDefectsSpec c ∧ (pw c 1).toNat ≤ 4096 ∧ addr64 (pw c 2) (pw c 3) % 64 = 0 ∧ inSpace s 1 (addr64 (pw c 2) (pw c 3)) (4 * (pw c 1).toNat) = true ∧ s.drc.frozen = false ∧ accessHeld s 1 = false ∧ ds = (List.range (pw c 1).toNat).map (fun i => (lo16 (memWord s.dram (addr64 (pw c 2) (pw c 3) + 4 * i)), hi16 (memWord s.dram (addr64 (pw c 2) (pw c 3) + 4 * i)))) ∧ defectsRise ds = true ∧ (∀ d ∈ ds, d.1 < (camCtx s (camCtxOf c)).inW ∧ d.2 < (camCtx s (camCtxOf c)).inH)) ∧
    (∃ s : State, ∃ c : Cmd, Runs s camSetGeometrySpec c ∧ bits (pw c 3) 1 0 ≠ 3 ∧ bits (pw c 3) 3 2 ≠ 3) ∧
    (∃ s : State, ∃ c : Cmd, Runs s camSetFlatfieldSpec c ∧ (bit (pw c 0) 3 = true → (bits (pw c 0) 5 4 = 1 ∨ bits (pw c 0) 5 4 = 2) ∧ addr64 (pw c 1) (pw c 2) % 64 = 0 ∧ inSpace s (bits (pw c 0) 5 4) (addr64 (pw c 1) (pw c 2)) (2 * bits (pw c 3) 6 0 * bits (pw c 3) 14 8) = true ∧ 4 ≤ bits (pw c 3) 19 16 ∧ bits (pw c 3) 19 16 ≤ 8 ∧ bits (pw c 3) 6 0 ≤ 65 ∧ bits (pw c 3) 14 8 ≤ 65)) ∧
    (∃ s : State, ∃ c : Cmd, Runs s camCommitSpec c ∧ stagedBad s (camCtxOf c) = false) :=
  ⟨⟨up, pk [0x20, 0, 0, 0, 0, 0, 0, 0, 0], 0x2121101021211010, by unfold Runs; decide +kernel⟩,
    ⟨up, pk [0, 0, 0, 0, 0, 0, 0, 0, 0], by unfold Runs; decide +kernel⟩,
    ⟨up, pk [0, 64, 0], by unfold Runs; decide +kernel⟩,
    ⟨{ camUp with dram := memWrite [] 64 (wordBytes [0x000F000F]) }, pk [0, 1, 64, 0], [(15, 15)], by unfold Runs; decide +kernel⟩,
    ⟨up, pk [0, 0, 0, 0xAA, 0, 0], by unfold Runs; decide +kernel⟩,
    ⟨up, pk [0x18, 64, 0, 0x00084141], by unfold Runs; decide +kernel⟩,
    ⟨up, pk [0], by unfold Runs; decide +kernel⟩⟩

theorem witness_CamFramesArrive :
    (∃ s : State, ∃ i, ∃ h, ∃ k, (camIn s i).en = true ∧ (i.val = 3 ∨ h.ecc ≠ .bad) ∧ (camIn s i).started = true ∧ channelCtxs s i h = [k] ∧ (camCtx s k).en = true ∧ (camCtx s k).open' = false ∧ (camCtx s k).prm.arm = 0) ∧
    (∃ s : State, ∃ i, ∃ h, ∃ k, ∃ t0, ∃ rest, (camIn s i).en = true ∧ (i.val = 3 ∨ h.ecc ≠ .bad) ∧ (camIn s i).started = true ∧ channelCtxs s i h = [k] ∧ (camCtx s k).en = true ∧ (camCtx s k).open' = false ∧ (camCtx s k).prm.arm ≠ 0 ∧ liveFires s (camCtx s k) = t0 :: rest) ∧
    (∃ s : State, ∃ i, ∃ h, ∃ k, ∃ f, (camIn s i).en = true ∧ (i.val = 3 ∨ h.ecc ≠ .bad) ∧ streamCtx s i h = some k ∧ (camCtx s k).open' = true ∧ (camCtx s k).frames = [f] ∧ f.closed = false ∧ f.rcvd < (camCtx s k).inH ∧ (camIn s i).fifo.length < 64) ∧
    (∃ s : State, ∃ i, ∃ h, ∃ k, (camIn s i).en = true ∧ (i.val = 3 ∨ h.ecc ≠ .bad) ∧ channelCtxs s i h = [k] ∧ (camCtx s k).open' = true) ∧
    (∃ s : State, ∃ k, ∃ f, s.glb.sysLock = true ∧ (camCtx s k).frames.find? (fun f => !f.closed) = some f ∧ (camCtx s k).open' = true ∧ f.rcvd < (camCtx s k).inH) ∧
    (∃ s : State, ∃ i : Fin 3, (camIn s i.castSucc).en = true) ∧
    (∃ s : State, ∃ i : Fin 3, (camIn s i.castSucc).en = true ∧ (camIn s i.castSucc).ulps = false) ∧
    (∃ s : State, ∃ i : Fin 3, (camIn s i.castSucc).en = true ∧ (camIn s i.castSucc).ulps = true) ∧
    (∃ s : State, ∃ k, ∃ t0, ∃ rest, s.glb.sysLock = true ∧ (camCtx s k).fires = t0 :: rest) :=
  ⟨⟨camUp, 0, {}, 0, by decide +kernel⟩,
    ⟨modCtx camUp 0 (fun x => { x with prm := { x.prm with arm := 1, armWin := 10 }, fires := [1000000] }), 0, {}, 0, 1000000, [], by decide +kernel⟩,
    ⟨camBusy, 0, { dt := 0x2A }, 0, {}, by decide +kernel⟩,
    ⟨camBusy, 0, {}, 0, by decide +kernel⟩,
    ⟨camBusy, 0, {}, by decide +kernel⟩,
    ⟨camUp, 0, by decide +kernel⟩,
    ⟨camUp, 0, by decide +kernel⟩,
    ⟨modIn camUp 0 (fun x => { x with ulps := true }), 0, by decide +kernel⟩,
    ⟨modCtx camUp 0 (fun x => { x with fires := [5] }), 0, 5, [], by decide +kernel⟩⟩

theorem witness_CamPipelineRuns :
    (∃ s : State, ∃ i, ∃ g, ∃ l, ∃ rest, nextInput s = some (i, g) ∧ (camIn s i).fifo = l :: rest ∧ (camCtx s l.ctx).frames.head?.map (fun f => f.num) = some l.frame ∧ (accessHeld s 1 && writesDram s l.ctx) = false ∧ s.cam.heldFrom = none ∧ 0 < budgetNow (advanceTo s (ceilDiv s.cam.busyAt 2))) ∧
    (∃ s : State, ∃ i, ∃ g, ∃ l, ∃ rest, nextInput s = some (i, g) ∧ (camIn s i).fifo = l :: rest ∧ (camCtx s l.ctx).frames.head?.map (fun f => f.num) = some l.frame ∧ (accessHeld s 1 && writesDram s l.ctx) = false ∧ s.cam.heldFrom = none ∧ budgetNow (advanceTo s (ceilDiv s.cam.busyAt 2)) ≤ 0) ∧
    (∃ s : State, ∃ t0, s.cam.heldFrom = some t0 ∧ s.glb.sysLock = true ∧ 1 ≤ s.cam.rate ∧ s.cam.budgetAt ≤ s.ct) ∧
    (∃ s : State, ∃ k, ∃ f, ∃ b, ∃ rest, (camCtx s k).frames = [f] ∧ f.todo = b :: rest ∧ (vget f.outs (2 : Fin 7)).lost = false ∧ (accessHeld s 1 && writesDram s k) = false ∧ rest.any (fun x => x.band == b.band) = true) :=
  ⟨⟨camFed, 0, 1, {}, [], by decide +kernel⟩,
    ⟨{ camFed with cam := { camFed.cam with budget := 0, budgetAt := 1000000 } }, 0, 1, {}, [], by decide +kernel⟩,
    ⟨{ camFed with cam := { camFed.cam with heldFrom := some 5 } }, 5, by decide +kernel⟩,
    ⟨modCtx camUp 0 (fun x => { x with open' := true, frames := [{ todo := [{}, {}] }] }), 0, { todo := [{}, {}] }, {}, [{}], by decide +kernel⟩⟩

theorem witness_MotorCommandsComplete :
    (∃ s : State, ∃ c : Cmd, ∃ n, Runs s motSetAxisSpec c ∧ idx 6 (bits (pw c 0) 2 0) = some n ∧ (axis s n).state = .disabled ∧ feedBusy s n = false ∧ 1 ≤ bits (pw c 0) 15 8 ∧ bits (pw c 0) 23 16 ≤ 128 ∧ (bit (pw c 0) 3 = true → sbits (pw c 1) 31 0 ≠ 0) ∧ 1 ≤ bits (pw c 2) 15 0 ∧ bits (pw c 2) 15 0 ≤ bits (pw c 2) 31 16) ∧
    (∃ s : State, ∃ c : Cmd, ∃ n, Runs s motSetLimitsSpec c ∧ idx 6 (bits (pw c 0) 2 0) = some n ∧ (axis s n).state ≠ .fault ∧ 1 ≤ (pw c 1).toNat ∧ (pw c 1).toNat ≤ 25600000 ∧ 1 ≤ (pw c 2).toNat ∧ (pw c 2).toNat < 2 ^ 31 ∧ 1 ≤ (pw c 3).toNat ∧ (pw c 3).toNat < 2 ^ 31 ∧ 1 ≤ (pw c 4).toNat ∧ (pw c 3).toNat ≤ (pw c 5).toNat ∧ (pw c 5).toNat < 2 ^ 31 ∧ (pw c 4).toNat ≤ (pw c 6).toNat) ∧
    (∃ s : State, ∃ c : Cmd, ∃ n, Runs s motSetBandsSpec c ∧ idx 6 (bits (pw c 0) 2 0) = some n ∧ (axis s n).state ≠ .fault ∧ (∀ b : Fin 7, (pw c (1 + b.val)).toNat ≤ (pw c (2 + b.val)).toNat)) ∧
    (∃ s : State, ∃ c : Cmd, ∃ n, Runs s motSetInputsSpec c ∧ idx 6 (bits (pw c 0) 2 0) = some n ∧ (axis s n).state = .disabled ∧ bits (pw c 1) 25 16 ≤ 1000 ∧ (bits (pw c 1) 1 0 = bits (pw c 1) 5 4 → bits (pw c 1) 1 0 ≠ 1 ∧ bits (pw c 1) 1 0 ≠ 2)) ∧
    (∃ s : State, ∃ c : Cmd, ∃ n, Runs s motEnableSpec c ∧ idx 6 (bits (pw c 0) 2 0) = some n ∧ bit (pw c 0) 8 = true ∧ (axis s n).configured = true ∧ (axis s n).state = .disabled) ∧
    (∃ s : State, ∃ c : Cmd, ∃ n, Runs s motEnableSpec c ∧ idx 6 (bits (pw c 0) 2 0) = some n ∧ bit (pw c 0) 8 = false ∧ (axis s n).state ≠ .disabled) ∧
    (∃ s : State, ∃ c : Cmd, ∃ n, Runs s motMoveToSpec c ∧ idx 6 (bits (pw c 0) 2 0) = some n ∧ NoneFails (motionChecks s c n (posParam c 1 - (axis s n).p)) ∧ ((axis s n).rejectRev = true → behind (axis s n) (posParam c 1) = false)) ∧
    (∃ s : State, ∃ c : Cmd, ∃ n, Runs s motSetVelocitySpec c ∧ idx 6 (bits (pw c 0) 2 0) = some n ∧ NoneFails (motionChecks s c n (sbits (pw c 1) 31 0))) ∧
    (∃ s : State, ∃ c : Cmd, ∃ n, Runs s motStopSpec c ∧ idx 6 (bits (pw c 0) 2 0) = some n ∧ (axis s n).state = .idle ∧ (axis s n).waits = [] ∧ (axis s n).cmd = none ∧ (axis s n).homing = none) ∧
    (∃ s : State, ∃ c : Cmd, ∃ n, Runs s motStopSpec c ∧ idx 6 (bits (pw c 0) 2 0) = some n ∧ (axis s n).state ∈ [.position, .velocity, .homing, .stopping] ∧ atRest (axis s n) = false) ∧
    (∃ s : State, ∃ c : Cmd, ∃ n, Runs s motHomeSpec c ∧ idx 6 (bits (pw c 0) 2 0) = some n ∧ (axis s n).state = .idle ∧ feedBusy s n = false ∧ bits (pw c 0) 9 8 ≠ 3 ∧ (bits (pw c 0) 9 8 = 0 → (axis s n).encEn = true) ∧ s.hkp.shutdown = false ∧ blocked (axis s n) (if bit (pw c 0) 10 then -1 else 1) = false) ∧
    (∃ s : State, ∃ c : Cmd, ∃ n, Runs s motSetPositionSpec c ∧ idx 6 (bits (pw c 0) 2 0) = some n ∧ (axis s n).state = .idle ∧ feedBusy s n = false) ∧
    (∃ s : State, ∃ c : Cmd, ∃ n, Runs s motClearSpec c ∧ idx 6 (bits (pw c 0) 2 0) = some n ∧ (∀ i : Fin 2, (vget (axis s n).inputs i).chat = true → ∀ t ∈ (vget (axis s n).inputs i).edges, t + 20000000 ≤ s.ct)) :=
  ⟨⟨up, pk [0x00800100, 0, 0x00010001, 0], 0, by unfold Runs; decide +kernel⟩,
    ⟨up, pk [0, 25600000, 1, 1, 1, 1, 1], 0, by unfold Runs; decide +kernel⟩,
    ⟨up, pk [5, 0, 0, 0, 0, 0, 0, 0, 0], 5, by unfold Runs; decide +kernel⟩,
    ⟨up, pk [0, 0x03E80021], 0, by unfold Runs; decide +kernel⟩,
    ⟨axis0 .disabled, pk [0x100], 0, by unfold Runs; decide +kernel⟩,
    ⟨axis0 .idle, pk [0], 0, by unfold Runs; decide +kernel⟩,
    ⟨axis0 .idle, pk [0, 100, 0], 0, by unfold Runs NoneFails; decide +kernel⟩,
    ⟨axis0 .idle, pk [0x2000, 100], 0, by unfold Runs NoneFails; decide +kernel⟩,
    ⟨axis0 .idle, pk [0], 0, by unfold Runs; decide +kernel⟩,
    ⟨axis0 .velocity (fun x => { x with v := 1 }), pk [0x100], 0, by unfold Runs; decide +kernel⟩,
    ⟨axis0 .idle, pk [0x500, 1, 1, 0, 0, 1], 0, by unfold Runs; decide +kernel⟩,
    ⟨axis0 .idle, pk [0, 5, 0], 0, by unfold Runs; decide +kernel⟩,
    ⟨axis0 .fault, pk [0], 0, by unfold Runs; decide +kernel⟩⟩

theorem witness_AxisMoves :
    (∃ s : State, ∃ n, ∃ y, s.glb.sysLock = true ∧ (axis s n).state = .velocity ∧ (axis s n).waits = [] ∧ (axis s n).encEn = false ∧ (axis s n).quick = false ∧ y = steer (axis s n) (clampTo ((vLimit (axis s n) : Nat) * q64) ((axis s n).vt * q64)) (axis s n).dmax (axis s n).jmax ∧ y.a ≠ 0) ∧
    (∃ s : State, ∃ n, ∃ g, s.glb.sysLock = true ∧ (axis s n).state = .position ∧ (axis s n).planned = true ∧ (axis s n).replan = false ∧ (axis s n).ceil = none ∧ (axis s n).plan = [(g, 1)] ∧ (axis s n).waits = [] ∧ (axis s n).encEn = false) ∧
    (∃ s : State, ∃ n, ∃ w, s.glb.sysLock = true ∧ (axis s n).waits = [w] ∧ waitDue w (axis s n).tickAt = true ∧ w.isMove = false ∧ (axis s n).state = .idle ∧ blocked (axis s n) w.goal = false ∧ s.hkp.shutdown = false ∧ fwRuns s = true) ∧
    (∃ s : State, ∃ n, ∃ t0, s.glb.sysLock = true ∧ (axis s n).restAt = some t0) ∧
    (∃ s : State, ∃ n, ∃ w, s.glb.sysLock = true ∧ (axis s n).waits = [w] ∧ waitDue w (axis s n).tickAt = true ∧ w.isMove = true ∧ (axis s n).state = .idle ∧ blocked (axis s n) (w.goal - (axis s n).p) = false ∧ ((axis s n).rejectRev = true → behind (axis s n) w.goal = false) ∧ s.hkp.shutdown = false ∧ fwRuns s = true) :=
  ⟨⟨axis0 .velocity (fun x => { x with vt := 1000 }), 0, steer (axis (axis0 .velocity fun x => { x with vt := 1000 }) 0) (clampTo ((vLimit (axis (axis0 .velocity fun x => { x with vt := 1000 }) 0) : Nat) * q64) ((axis (axis0 .velocity fun x => { x with vt := 1000 }) 0).vt * q64)) (axis (axis0 .velocity fun x => { x with vt := 1000 }) 0).dmax (axis (axis0 .velocity fun x => { x with vt := 1000 }) 0).jmax, by decide +kernel⟩,
    ⟨axis0 .position (fun x => { x with planned := true, plan := [(0, 1)] }), 0, 0, by decide +kernel⟩,
    ⟨axis0 .idle (fun x => { x with waits := [{ goal := 100 }] }), 0, { goal := 100 }, by decide +kernel⟩,
    ⟨axis0 .idle (fun x => { x with restAt := some 5 }), 0, 5, by decide +kernel⟩,
    ⟨axis0 .idle (fun x => { x with waits := [{ isMove := true, goal := 100 }] }), 0, { isMove := true, goal := 100 }, by decide +kernel⟩⟩

theorem witness_AxisInputs :
    (∃ s : State, ∃ n, (axis s n).state ≠ .homing) ∧
    (∃ s : State, ∃ n, ∃ i, (axis s n).state = .velocity ∧ (axis s n).v ≠ 0 ∧ (vget (axis s n).inputs i).role = (if 0 < (axis s n).v then 2 else 1) ∧ (vget (axis s n).inputs i).qual = false ∧ (vget (axis s n).inputs i).chat = false) ∧
    (∃ s : State, ∃ n, ∃ w, s.bob.linkUp = true ∧ (axis s n).jogEn = true ∧ ((axis s n).state = .idle ∨ ((axis s n).state = .velocity ∧ (axis s n).jog = true)) ∧ blocked (axis s n) (sbits w 31 0) = false ∧ s.hkp.shutdown = false) ∧
    (∃ s : State, ∃ n, s.glb.sysLock = true ∧ (axis s n).jog = true) ∧
    (∃ s : State, s.bob.linkUp = true) :=
  ⟨⟨up, 0, by decide +kernel⟩,
    ⟨axis0 .velocity (fun x => { x with v := 1, inputs := vset x.inputs 0 { role := 2 } }), 0, 0, by decide +kernel⟩,
    ⟨axis0 .idle (fun x => { x with jogEn := true }), 0, 100, by decide +kernel⟩,
    ⟨axis0 .velocity (fun x => { x with jog := true }), 0, by decide +kernel⟩,
    ⟨up, by decide +kernel⟩⟩

theorem witness_TimeBasesSet :
    (∃ s : State, ∃ c : Cmd, Runs s timSetTbSpec c ∧ setTbOp c = 0 ∧ tbSlave s (setTbIdx c) = none ∧ (pw c 3).toNat < 1000000000) ∧
    (∃ s : State, ∃ c : Cmd, ∃ x : Int, Runs s timSetTbSpec c ∧ setTbOp c = 1 ∧ tbSlave s (setTbIdx c) = none ∧ x = (vget s.tim.tbs (setTbIdx c)).t + (signed 48 (setTbSecs c) * 1000000000 + sbits (pw c 3) 31 0) * tbNs ∧ 0 ≤ x ∧ tbSec x.toNat < 2 ^ 48) ∧
    (∃ s : State, ∃ c : Cmd, Runs s timSetTbSpec c ∧ setTbOp c = 2 ∧ tbSlave s (setTbIdx c) = none ∧ -1000000000 ≤ sbits (pw c 3) 31 0 ∧ sbits (pw c 3) 31 0 ≤ 1000000000) ∧
    (∃ s : State, ∃ c : Cmd, Runs s timSetTbSpec c ∧ setTbOp c = 3 ∧ tbSlave s (setTbIdx c) = none ∧ -32768000 ≤ sbits (pw c 4) 31 0 ∧ sbits (pw c 4) 31 0 ≤ 32768000) ∧
    (∃ s : State, s.bob.linkUp = true) ∧
    (∃ s : State, s.glb.sysLock = true) :=
  ⟨⟨up, pk [1, 0, 0, 999999999, 0], by unfold Runs; decide +kernel⟩,
    ⟨up, pk [4, 0, 0, 0, 0], 0, by unfold Runs; decide +kernel⟩,
    ⟨up, pk [8, 0, 0, 1000, 0], by unfold Runs; decide +kernel⟩,
    ⟨up, pk [12, 0, 0, 0, 32768000], by unfold Runs; decide +kernel⟩,
    ⟨up, by decide +kernel⟩,
    ⟨up, by decide +kernel⟩⟩

theorem witness_TacksFire :
    (∃ s : State, ∃ n, ∃ v, s.bob.linkUp = true ∧ (bit (v ||| 1) 1 = true → 1000 ≤ (vget s.tim.tacks n).periodS.toNat ∧ (vget s.tim.tacks n).periodS.toNat ≤ 2000000000)) ∧
    (∃ s : State, ∃ n, ∃ v, s.bob.linkUp = true ∧ bit (v ||| 1) 1 = true ∧ ((vget s.tim.tacks n).periodS.toNat < 1000 ∨ 2000000000 < (vget s.tim.tacks n).periodS.toNat)) ∧
    (∃ s : State, s.bob.linkUp = true) ∧
    (∃ s : State, ∃ n, ∃ k, s.glb.sysLock = true ∧ vget s.tim.tacks n = k ∧ k.armed = true ∧ k.periodic = false) ∧
    (∃ s : State, ∃ n, ∃ k, ∃ missed, s.glb.sysLock = true ∧ vget s.tim.tacks n = k ∧ k.armed = true ∧ k.periodic = true ∧ missed = (tackDiff (advanceTo s (tackFireAt s k)) k).natAbs / max 1 k.period) :=
  ⟨⟨{ up with tim := { up.tim with tacks := vset up.tim.tacks 0 { periodS := 1000 } } }, 0, 2, by decide +kernel⟩,
    ⟨{ up with tim := { up.tim with tacks := vset up.tim.tacks 0 { periodS := 999 } } }, 0, 2, by decide +kernel⟩,
    ⟨up, by decide +kernel⟩,
    ⟨{ up with tim := { up.tim with tacks := vset up.tim.tacks 0 { armed := true } } }, 0, { armed := true }, by decide +kernel⟩,
    ⟨{ up with tim := { up.tim with tacks := vset up.tim.tacks 0 { armed := true, periodic := true, period := 1000 } } }, 0, { armed := true, periodic := true, period := 1000 }, 0, by decide +kernel⟩⟩

theorem witness_EthernetPortsServe :
    (∃ s : State, ∃ e, (vget s.eth e).link = false ∧ (vget s.eth e).cfg.mode ≠ 0 ∧ s.glb.sdLock = true) ∧
    (∃ s : State, ∃ e, (vget s.eth e).link = true) ∧
    (∃ s : State, ∃ e, (vget s.eth e).link = true) ∧
    (∃ s : State, ∃ c : Cmd, Runs s timSetPortSpec c ∧ bits (pw c 0) 2 1 ≠ 3) ∧
    (∃ s : State, ∃ c : Cmd, Runs s timSetPtpSpec c ∧ bits (pw c 0) 5 4 ≠ 3 ∧ bits (pw c 0) 11 9 ≤ 3 ∧ -7 ≤ sbits (pw c 4) 7 0 ∧ sbits (pw c 4) 7 0 ≤ 4 ∧ -7 ≤ sbits (pw c 4) 15 8 ∧ sbits (pw c 4) 15 8 ≤ 5 ∧ -7 ≤ sbits (pw c 4) 23 16 ∧ sbits (pw c 4) 23 16 ≤ 5 ∧ 2 ≤ bits (pw c 4) 31 24 ∧ 1000 ≤ (pw c 5).toNat ∧ (pw c 5).toNat ≤ 1000000000 ∧ (bits (pw c 0) 2 1 = 1 → ∀ o, o ≠ ethOf c → (vget s.eth o).ptp.role = .slave → (vget s.eth o).ptp.tb.val ≠ bits (pw c 0) 8 7)) ∧
    (∃ s : State, ∃ c : Cmd, ∃ bs, Runs s timSendMsgSpec c ∧ bs = (wordBytes (c.words.drop 2)).take (bits (pw c 1) 10 0) ∧ 34 ≤ bits (pw c 1) 10 0 ∧ bits (pw c 1) 10 0 ≤ 1024 ∧ (vget s.eth (ethOf c)).link = true ∧ (bit (pw c 0) 1 = true → (vget s.ethq (ethOf c)).txq.length < 8)) ∧
    (∃ s : State, ∃ c : Cmd, ∃ m, ∃ rest, Runs s timRecvMsgSpec c ∧ (vget s.cmd.pairs c.pair).outs.countP (fun o => o.op == 0x0905 && o.started) < 8 ∧ bit (pw c 0) 1 = false ∧ (vget s.ethq (ethOf c)).rxq = m :: rest) ∧
    (∃ s : State, ∃ c : Cmd, Runs s timRecvMsgSpec c ∧ (vget s.cmd.pairs c.pair).outs.countP (fun o => o.op == 0x0905 && o.started) < 8 ∧ bit (pw c 0) 1 = false ∧ (vget s.ethq (ethOf c)).rxq = []) ∧
    (∃ s : State, ∃ e, ∃ m, ptpMine s e m = true ∧ recvWaiting s e = none ∧ (vget s.ethq e).rxq.length < 16) ∧
    (∃ s : State, ∃ e, ∃ m, ptpMine s e m = true ∧ recvWaiting s e = none ∧ 16 ≤ (vget s.ethq e).rxq.length) :=
  ⟨⟨{ up with eth := vset up.eth 0 { cfg := { mode := 1 } } }, 0, by decide +kernel⟩,
    ⟨ptp .slave, 0, by decide +kernel⟩,
    ⟨ptp .slave, 0, by decide +kernel⟩,
    ⟨up, pk [4, 0, 0, 0, 0, 0, 0, 0, 0, 0, 0, 0], by unfold Runs; decide +kernel⟩,
    ⟨up, pk [2, 0, 0, 0, 0x02000000, 1000000000, 0], (by unfold Runs; decide +kernel)⟩,
    ⟨ptp .slave, pk (0 :: 34 :: List.replicate 9 0), List.replicate 34 0, by unfold Runs; decide +kernel⟩,
    ⟨{ up with ethq := vset up.ethq 0 { rxq := [{}] } }, pk [0], {}, [], by unfold Runs; decide +kernel⟩,
    ⟨up, pk [0], by unfold Runs; decide +kernel⟩,
    ⟨ptp .slave, 0, {}, by decide +kernel⟩,
    ⟨{ ptp .slave with ethq := vset up.ethq 0 { rxq := List.replicate 16 {} } }, 0, {}, by decide +kernel⟩⟩

theorem witness_PtpExchanges :
    (∃ s : State, ∃ e, ∃ m : PtpMsg, ptpMine s e m = true ∧ (vget s.eth e).ptp.role = .slave ∧ ptpFw s = true ∧ (vget s.eth e).servo ≠ .holdover ∧ ((vget s.eth e).parent = none ∨ (vget s.eth e).parent = some m.src) ∧ m.twoStep = true) ∧
    (∃ s : State, ∃ e, ∃ m : PtpMsg, ∃ sm, ∃ d, ∃ o : Int, ptpMine s e m = true ∧ (vget s.eth e).ptp.role = .slave ∧ ptpFw s = true ∧ (vget s.eth e).servo ≠ .holdover ∧ ((vget s.eth e).parent = none ∨ (vget s.eth e).parent = some m.src) ∧ m.twoStep = false ∧ (vget s.eth e).ptp.p2p = false ∧ (vget s.eth e).delayPair = some sm ∧ d = meanOf (vget s.eth e).ptp.avg ((((((rxStamp s e : Int) - m.ts - corr16 m.corr) + sm) / 2) :: (vget s.eth e).dHist).take 8) ∧ o = (rxStamp s e : Int) - m.ts - corr16 m.corr - d - (vget s.eth e).cfg.asym) ∧
    (∃ s : State, ∃ e, ∃ m : PtpMsg, ∃ w, ptpMine s e m = true ∧ (vget s.eth e).ptp.role = .slave ∧ ptpFw s = true ∧ (vget s.eth e).syncWait = some w ∧ w.seq = m.seq.toNat ∧ (vget s.eth e).parent = some m.src) ∧
    (∃ s : State, ∃ e, ∃ w, s.glb.sysLock = true ∧ ptpFw s = true ∧ (vget s.eth e).syncWait = some w) ∧
    (∃ s : State, ∃ e, (vget s.eth e).link = true ∧ (vget s.eth e).ptp.role = .slave ∧ (vget s.eth e).ptp.p2p = false ∧ (vget s.eth e).parent.isSome = true ∧ ptpFw s = true ∧ (vget s.ethq e).txq = []) ∧
    (∃ s : State, ∃ e, ∃ m : PtpMsg, ∃ t3, ptpMine s e m = true ∧ (vget s.eth e).ptp.role = .slave ∧ ptpFw s = true ∧ (vget s.eth e).delayOut = some (m.seq.toNat, some t3) ∧ (vget s.eth e).parent = some m.src ∧ m.req = { clock := (vget s.eth e).ptp.clockId, port := (vget s.eth e).ptp.portNumber }) ∧
    (∃ s : State, ∃ e, ∃ m : PtpMsg, ptpMine s e m = true ∧ (vget s.eth e).ptp.role = .master ∧ (vget s.eth e).ptp.p2p = false ∧ ptpFw s = true) ∧
    (∃ s : State, ∃ e, (vget s.eth e).link = true ∧ (vget s.eth e).ptp.role ≠ .disabled ∧ (vget s.eth e).ptp.p2p = true ∧ ptpFw s = true ∧ (vget s.ethq e).txq = []) ∧
    (∃ s : State, ∃ e, ∃ m : PtpMsg, ptpMine s e m = true ∧ (vget s.eth e).ptp.p2p = true ∧ ptpFw s = true ∧ (vget s.ethq e).txq = []) ∧
    (∃ s : State, ∃ e, ∃ m : PtpMsg, ∃ t1, ptpMine s e m = true ∧ (vget s.eth e).ptp.p2p = true ∧ ptpFw s = true ∧ m.req = { clock := (vget s.eth e).ptp.clockId, port := (vget s.eth e).ptp.portNumber } ∧ (vget s.eth e).pdelayOut = some (m.seq.toNat, t1)) ∧
    (∃ s : State, ∃ e, ∃ m : PtpMsg, ∃ t1, ∃ t2, ∃ c : Int, ∃ t4, ptpMine s e m = true ∧ (vget s.eth e).ptp.p2p = true ∧ ptpFw s = true ∧ m.req = { clock := (vget s.eth e).ptp.clockId, port := (vget s.eth e).ptp.portNumber } ∧ (vget s.eth e).pdelayOut = some (m.seq.toNat, some t1) ∧ (vget s.eth e).pdelayWait = some (m.seq.toNat, t2, c, t4)) ∧
    (∃ s : State, ∃ e, (vget s.eth e).link = true ∧ (vget s.eth e).ptp.role = .master ∧ ptpFw s = true ∧ (vget s.ethq e).txq = []) ∧
    (∃ s : State, ∃ e, (vget s.eth e).ptp.role = .slave ∧ (vget s.eth e).servo ≠ .holdover ∧ ptpFw s = true) :=
  ⟨⟨ptp .slave, 0, { twoStep := true }, by decide +kernel⟩,
    ⟨ptp .slave (fun p => { p with delayPair := some 0 }), 0, {}, 0, 0, 0, by decide +kernel⟩,
    ⟨ptp .slave (fun p => { p with syncWait := some { seq := 7 }, parent := some {} }), 0, { seq := 7 }, { seq := 7 }, by decide +kernel⟩,
    ⟨ptp .slave (fun p => { p with syncWait := some { seq := 7 } }), 0, { seq := 7 }, by decide +kernel⟩,
    ⟨ptp .slave (fun p => { p with parent := some {} }), 0, by decide +kernel⟩,
    ⟨ptp .slave (fun p => { p with parent := some {}, delayOut := some (7, some 5) }), 0, { seq := 7 }, 5, by decide +kernel⟩,
    ⟨ptp .master, 0, {}, by decide +kernel⟩,
    ⟨ptp .passive (fun p => { p with ptp := { p.ptp with p2p := true } }), 0, by decide +kernel⟩,
    ⟨ptp .master (fun p => { p with ptp := { p.ptp with p2p := true } }), 0, {}, by decide +kernel⟩,
    ⟨ptp .slave (fun p => { p with ptp := { p.ptp with p2p := true }, pdelayOut := some (7, some 5) }), 0, { seq := 7 }, some 5, by decide +kernel⟩,
    ⟨ptp .slave (fun p => { p with ptp := { p.ptp with p2p := true }, pdelayOut := some (7, some 5), pdelayWait := some (7, 1, 2, 3) }), 0, { seq := 7 }, 5, 1, 2, 3, by decide +kernel⟩,
    ⟨ptp .master, 0, by decide +kernel⟩,
    ⟨ptp .slave, 0, by decide +kernel⟩⟩

theorem witness_HeartbeatsAndMirror :
    (∃ s : State, ∃ q, ∃ x, s.glb.sysLock = true ∧ sqOf s q = x ∧ x.state = .active ∧ x.halted = false ∧ x.lockup = 0 ∧ s.seq.granted = true ∧ s.seq.active = q) ∧
    (∃ s : State, ∃ q, ∃ x, sqOf s q = x ∧ x.state = .standby ∧ x.halted = false ∧ x.lockup = 0 ∧ s.seq.granted = true ∧ s.seq.active ≠ q ∧ s.seq.digests.find? (fun p => p.1 == x.msn) = some (x.msn, x.dig)) ∧
    (∃ s : State, ∃ q, ∃ x, ∃ d, sqOf s q = x ∧ x.state = .standby ∧ x.halted = false ∧ x.lockup = 0 ∧ s.seq.granted = true ∧ s.seq.active ≠ q ∧ s.seq.thmOk = true ∧ s.seq.ext = false ∧ s.seq.digests.find? (fun p => p.1 == x.msn) = some (x.msn, d) ∧ d ≠ x.dig) ∧
    (∃ s : State, ∃ q, s.seq.thmOk = true ∧ s.seq.ext = false ∧ s.seq.granted = true ∧ s.seq.active = q ∧ (sqOf s q).state = .active ∧ synced s (otherSq q) = true) ∧
    (∃ s : State, ∃ q, s.seq.thmOk = true ∧ s.seq.ext = false ∧ s.seq.granted = true ∧ s.seq.active = q ∧ (sqOf s q).state = .active ∧ synced s (otherSq q) = false) ∧
    (∃ s : State, ∃ q, s.seq.thmOk = true ∧ s.seq.ext = false ∧ s.seq.granted = true ∧ s.seq.active = q ∧ (sqOf s q).state = .active ∧ synced s (otherSq q) = true) ∧
    (∃ s : State, ∃ a, s.seq.active = a ∧ s.seq.granted = true ∧ (sqOf s a).halted = false ∧ (sqOf s a).lockup = 0 ∧ (sqOf s (otherSq a)).state = .standby ∧ (sqOf s (otherSq a)).stuck = false) ∧
    (∃ s : State, ∃ a, s.seq.active = a ∧ s.seq.granted = true ∧ (sqOf s (otherSq a)).state = .standby) :=
  ⟨⟨duo, 0, { state := .active }, by decide +kernel⟩,
    ⟨{ duo with seq := { duo.seq with digests := [(0, 0)] } }, 1, { state := .standby }, by decide +kernel⟩,
    ⟨{ duo with seq := { duo.seq with digests := [(0, 5)] } }, 1, { state := .standby }, 5, by decide +kernel⟩,
    ⟨duo, 0, by decide +kernel⟩,
    ⟨sqs { state := .active } {}, 0, by decide +kernel⟩,
    ⟨duo, 0, by decide +kernel⟩,
    ⟨duo, 0, by decide +kernel⟩,
    ⟨duo, 0, by decide +kernel⟩⟩

theorem witness_SequencersTakeOver :
    (∃ s : State, ∃ q, s.glb.sysLock = true ∧ (sqOf s q).state = .reset ∧ s.glb.bootState = .done) ∧
    (∃ s : State, ∃ q, (sqOf s q).state = .selftest) ∧
    (∃ s : State, ∃ q, (sqOf s q).state = .selftest ∧ s.fw.granted = true) ∧
    (∃ s : State, (sqOf s 0).state = .loading ∧ s.fw.granted = false ∧ s.seq.thmOk = true ∧ s.seq.ext = false) ∧
    (∃ s : State, ∃ q, (sqOf s q).state = .loading ∧ s.fw.granted = true ∧ s.seq.headless = false ∧ s.seq.granted = true) ∧
    (∃ s : State, ∃ t0, ∃ cold, s.seq.takeover = some (t0, cold) ∧ s.seq.granted = true ∧ (sqOf s s.seq.active).halted = false ∧ (sqOf s s.seq.active).lockup = 0) ∧
    (∃ s : State, ∃ a, s.seq.active = a ∧ canSwap s = true ∧ 0 < s.seq.swapInterval ∧ s.seq.swapRetry = none ∧ synced s (otherSq a) = true ∧ swapBlocked s = false ∧ (sqOf s a).region = (sqOf s (otherSq a)).region ∧ (sqOf s (otherSq a)).stuck = false) ∧
    (∃ s : State, canSwap s = true ∧ 0 < s.seq.swapInterval ∧ s.seq.swapRetry = none ∧ (synced s (otherSq s.seq.active) = false ∨ swapBlocked s = true)) ∧
    (∃ s : State, ∃ a, ∃ t0, s.seq.active = a ∧ canSwap s = true ∧ s.seq.swapRetry = some t0 ∧ synced s (otherSq a) = true ∧ swapBlocked s = false ∧ (sqOf s a).region = (sqOf s (otherSq a)).region ∧ (sqOf s (otherSq a)).stuck = false) ∧
    (∃ s : State, s.seq.ext = false) ∧
    (∃ s : State, ∃ b, ∃ k : Fin 2, s.seq.ext = true ∧ s.seq.thmOk = true ∧ s.fw.granted = true ∧ s.seq.headless = false ∧ k.val = b2n b ∧ k ≠ s.seq.active ∧ synced s k = true) ∧
    (∃ s : State, ∃ c : Cmd, Runs s seqSetSwapSpec c ∧ s.seq.ext = false ∧ bits (pw c 0) 16 0 ≤ 86400) ∧
    (∃ s : State, ∃ c : Cmd, ∃ a, Runs s seqSwapSpec c ∧ s.seq.active = a ∧ s.seq.ext = false ∧ s.seq.swapCmd = none ∧ synced s (otherSq a) = true ∧ swapBlocked s = false ∧ (sqOf s a).region = (sqOf s (otherSq a)).region ∧ (sqOf s (otherSq a)).stuck = false) ∧
    (∃ s : State, ∃ c : Cmd, ∃ q : Fin 2, Runs s seqRepairSpec c ∧ q.val = bits (pw c 0) 0 0 ∧ (sqOf s q).state = .failed) ∧
    (∃ s : State, (s.glb.dbgLevel = 2 ∨ Config.locked = false)) ∧
    (∃ s : State, ∃ q, (sqOf s q).state = .loading ∧ s.fw.granted = true ∧ s.seq.headless = true ∧ s.seq.thmOk = true ∧ s.seq.ext = false) :=
  ⟨⟨up, 0, by decide +kernel⟩,
    ⟨sqs { state := .selftest } {}, 0, by decide +kernel⟩,
    ⟨sqs { state := .selftest } {}, 0, by decide +kernel⟩,
    ⟨{ sqs { state := .loading } {} with fw := {} }, by decide +kernel⟩,
    ⟨sqs { state := .active } { state := .loading }, 1, by decide +kernel⟩,
    ⟨{ duo with seq := { duo.seq with takeover := some (1000000, false) } }, 1000000, false, by decide +kernel⟩,
    ⟨duo, 0, by decide +kernel⟩,
    ⟨up, by decide +kernel⟩,
    ⟨{ duo with seq := { duo.seq with swapRetry := some 5 } }, 0, 5, by decide +kernel⟩,
    ⟨up, by decide +kernel⟩,
    ⟨{ duo with seq := { duo.seq with ext := true } }, true, 1, by decide +kernel⟩,
    ⟨up, pk [86400], by unfold Runs; decide +kernel⟩,
    ⟨duo, pk [], 0, by unfold Runs; decide +kernel⟩,
    ⟨sqs { state := .active } { state := .failed }, pk [1], 1, by unfold Runs; decide +kernel⟩,
    ⟨{ up with glb := { up.glb with dbgLevel := 2 } }, by decide +kernel⟩,
    ⟨{ sqs {} { state := .loading } with seq := { (sqs {} { state := .loading }).seq with granted := false, headless := true } }, 1, by decide +kernel⟩⟩

theorem witness_SequencerWritesGated :
    (∃ s : State, ∃ q, gatePasses s q = false) ∧
    (∃ s : State, ∃ b, ∃ q, ∃ epoch : Word, gatePasses s q = true ∧ b ≠ .hlk ∧ epoch.toNat < (vget s.ep (epIdx b)).epoch.toNat) ∧
    (∃ s : State, ∃ b, ∃ q, ∃ epoch : Word, ∃ pair, ∃ tag, ∃ ws, gatePasses s q = true ∧ (vget s.ep (epIdx b)).epoch.toNat ≤ epoch.toNat ∧ (vget s.ep (epIdx b)).applied.any (fun x => x.1.toNat < epoch.toNat && x.2 == (pair, tag, ws)) = true) ∧
    (∃ s : State, ∃ q, ∃ epoch : Word, ∃ pair, ∃ tag, ∃ w, gatePasses s q = true ∧ (vget s.ep 4).epoch.toNat ≤ epoch.toNat ∧ (vget s.ep 4).applied.any (fun x => x.1.toNat < epoch.toNat && x.2 == (pair, tag, [(0x300004, w)])) = false) ∧
    (∃ s : State, ∃ b, ∃ q, ∃ epoch : Word, ∃ pair, ∃ tag, ∃ ws, b ≠ .pdp ∧ gatePasses s q = true ∧ (vget s.ep (epIdx b)).epoch.toNat ≤ epoch.toNat ∧ (vget s.ep (epIdx b)).applied.any (fun x => x.1.toNat < epoch.toNat && x.2 == (pair, tag, ws)) = false) ∧
    (∃ s : State, ∃ q, ∃ epoch : Word, gatePasses s q = true ∧ epoch.toNat < (vget s.ep (epIdx .hlk)).epoch.toNat) ∧
    (∃ s : State, ∃ q, ∃ epoch : Word, ∃ pair, ∃ tag, ∃ ws, gatePasses s q = true ∧ (vget s.ep (epIdx .pdp)).epoch.toNat ≤ epoch.toNat ∧ (vget s.ep (epIdx .pdp)).applied.any (fun x => x.1.toNat < epoch.toNat && x.2 == (pair, tag, ws)) = false) :=
  ⟨⟨up, 1, by decide +kernel⟩,
    ⟨{ up with ep := Vector.replicate 9 { epoch := 1 } }, .fir, 0, 0, by decide +kernel⟩,
    ⟨{ up with ep := Vector.replicate 9 { epoch := 1, applied := [(0, 1, 2, [(3, 4)])] } }, .fir, 0, 1, 1, 2, [(3, 4)], by decide +kernel⟩,
    ⟨up, 0, 0, 0, 0, 0, by decide +kernel⟩,
    ⟨up, .mot, 0, 0, 0, 0, [], by decide +kernel⟩,
    ⟨{ up with ep := Vector.replicate 9 { epoch := 1 } }, 0, 0, by decide +kernel⟩,
    ⟨up, 0, 0, 0xFF, 0, [(0, 0x0301)], by decide +kernel⟩⟩

theorem witness_DramFreezes :
    (∃ s : State, s.drc.bringUp.isSome = true ∧ s.drc.frozen = false ∧ s.glb.dramLock = true ∧ s.glb.bootState ≠ .failed ∧ s.drcx.waiting = []) ∧
    (∃ s : State, s.drc.bringUp.isSome = true ∧ s.drc.frozen = false ∧ s.glb.dramLock = true ∧ s.glb.bootState ≠ .failed) ∧
    (∃ s : State, ∃ addr : BitVec 36, ∃ a, a = addr.toNat / 64 * 64 ∧ dramReady s = true ∧ a < dramTop s ∧ burstResult s a .clean = .clean) ∧
    (∃ s : State, ∃ addr : BitVec 36, ∃ r, ∃ d, ∃ a, a = addr.toNat / 64 * 64 ∧ dramReady s = true ∧ a < dramTop s ∧ burstResult s a r = .corrected d) ∧
    (∃ s : State, ∃ addr : BitVec 36, ∃ r, ∃ a, ∃ sy, a = addr.toNat / 64 * 64 ∧ dramReady s = true ∧ a < dramTop s ∧ burstResult s a r = .uncorrectable sy) ∧
    (∃ s : State, ∃ k : Fin 5, dramReady s = true ∧ 0 < k.val ∧ k.val < 4) ∧
    (∃ s : State, dramReady s = true) ∧
    (∃ s : State, s.drc.frozen = true) ∧
    (∃ s : State, ∃ c : Cmd, Runs s drcResetSpec c ∧ s.drc.frozen = true ∧ (s.drc.freeze.cause = 6 → dramLockHeld s = true) ∧ s.drcx.resetCmd = none) ∧
    (∃ s : State, ∃ cmd, ∃ clear, ∃ full, ∃ cause, s.drcx.resetCmd = some (cmd, clear, full, cause) ∧ s.pdp.held = []) :=
  ⟨⟨drcW fun d => { d with bringUp := some 5 }, by decide +kernel⟩,
    ⟨drcW fun d => { d with bringUp := some 5 }, by decide +kernel⟩,
    ⟨up, 64, 64, by decide +kernel⟩,
    ⟨up, 70, .corrected 3, 3, 64, by decide +kernel⟩,
    ⟨up, 70, .uncorrectable [1], 64, [1], by decide +kernel⟩,
    ⟨up, 3, by decide +kernel⟩,
    ⟨up, by decide +kernel⟩,
    ⟨drcW fun d => { d with frozen := true }, by decide +kernel⟩,
    ⟨drcW (fun d => { d with frozen := true, freeze := { cause := 6 } }), pk [3], by unfold Runs; decide +kernel⟩,
    ⟨{ up with drcx := { up.drcx with resetCmd := some (some (0, 7), true, false, 1) } }, some (0, 7), true, false, 1, by decide +kernel⟩⟩

theorem witness_DramKept :
    (∃ s : State, dramReady s = true ∧ s.drc.ports.any (fun p => p.panic) = false) ∧
    (∃ s : State, ∃ r, dramReady s = true ∧ s.drc.ports.any (fun p => p.panic) = true ∧ vget s.drc.postponed r < (if s.drc.mode = 0 then 4 else 8)) ∧
    (∃ s : State, ∃ r, dramReady s = true ∧ s.drc.ports.any (fun p => p.panic) = true ∧ (if s.drc.mode = 0 then 4 else 8) ≤ vget s.drc.postponed r) ∧
    (∃ s : State, s.glb.sysLock = true ∧ dramReady s = true) ∧
    (∃ s : State, s.glb.sysLock = true ∧ dramReady s = true) ∧
    (∃ s : State, dramReady s = true) ∧
    (∃ s : State, s.glb.sysLock = true ∧ dramReady s = true) ∧
    (∃ s : State, ∃ r, dramReady s = true ∧ s.drc.scrubbing = true ∧ 0 < dramTop s ∧ burstResult s s.drc.scrubPos r = .clean) ∧
    (∃ s : State, ∃ p, ∃ level, (vget s.drc.ports p).panic = false ∧ level < (vget s.drc.ports p).thresh * 1024) ∧
    (∃ s : State, ∃ p, ∃ level, (vget s.drc.ports p).panic = true ∧ (vget s.drc.ports p).thresh * 2048 < level) ∧
    (∃ s : State, ∃ c : Cmd, Runs s drcRetrainSpec c ∧ panelOpen s = false ∧ contextOn s = false ∧ s.drc.frozen = false ∧ s.drc.ready = true) ∧
    (∃ s : State, ∃ p, ∃ tag, s.drcx.retrainCmd = some (some (p, tag)) ∧ s.drc.frozen = false ∧ fwRuns s = true ∧ s.drcx.waiting = []) ∧
    (∃ s : State, ∃ c : Cmd, Runs s drcSetRefreshSpec c ∧ bits (pw c 0) 1 0 ≠ 3 ∧ 8 ≤ bits (pw c 0) 12 8 ∧ bits (pw c 0) 12 8 ≤ 16 ∧ bits (pw c 0) 23 16 ≤ 168) ∧
    (∃ s : State, ∃ c : Cmd, Runs s drcSetQosSpec c ∧ 32 ≤ bits (pw c 0) 9 0 ∧ bits (pw c 0) 9 0 ≤ 512 ∧ 4 ≤ bits (pw c 1) 5 0 ∧ bits (pw c 1) 5 0 ≤ 48 ∧ 4 ≤ bits (pw c 1) 13 8 ∧ bits (pw c 1) 13 8 ≤ 32) ∧
    (∃ s : State, ∃ c : Cmd, ∃ a, Runs s drcInjectSpec c ∧ a = addr64 (pw c 0) (pw c 1) ∧ a % 64 = 0 ∧ a + 64 ≤ dramTop s ∧ bits (pw c 2) 3 0 ≤ 9 ∧ (bit (pw c 2) 4 = true → bits (pw c 2) 11 8 ≤ 9)) ∧
    (∃ s : State, ∃ a : BitVec 25, s.glb.sysLock = true ∧ s.glb.sramInit = true ∧ (a.toNat / 8 * 8 < 0x13E0000 ∨ 0x1440000 ≤ a.toNat / 8 * 8)) ∧
    (∃ s : State, ∃ a : BitVec 25, s.glb.sysLock = true ∧ s.glb.sramInit = true ∧ a.toNat / 8 * 8 < 0x360000) ∧
    (∃ s : State, ∃ cmd, ∃ p : Fin 3, ∃ a, ∃ b, ∃ x, ∃ y, s.drcx.retrainCmd = some cmd ∧ s.drc.frozen = false ∧ (∀ r, vget s.drc.postponed r < postponeLimit s.drc.mode) ∧ (vget s.drc.ports p).panic = true ∧ s.drcx.waiting = [.put none a x, .put (some p) b y]) :=
  ⟨⟨up, by decide +kernel⟩,
    ⟨drcW (fun d => { d with ports := vset d.ports 1 { panic := true } }), 1, by decide +kernel⟩,
    ⟨drcW (fun d => { d with ports := vset d.ports 1 { panic := true }, postponed := Vector.replicate 2 8 }), 1, by decide +kernel⟩,
    ⟨up, by decide +kernel⟩,
    ⟨up, by decide +kernel⟩,
    ⟨up, by decide +kernel⟩,
    ⟨up, by decide +kernel⟩,
    ⟨drcW (fun d => { d with scrubbing := true }), .clean, by decide +kernel⟩,
    ⟨up, 1, 16383, by decide +kernel⟩,
    ⟨drcW (fun d => { d with ports := vset d.ports 1 { panic := true } }), 1, 32769, by decide +kernel⟩,
    ⟨up, pk [], by unfold Runs; decide +kernel⟩,
    ⟨{ up with drcx := { up.drcx with retrainCmd := some (some (0, 7)) } }, 0, 7, by decide +kernel⟩,
    ⟨up, pk [0x00A81000], by unfold Runs; decide +kernel⟩,
    ⟨up, pk [512, 0x2030, 0], by unfold Runs; decide +kernel⟩,
    ⟨up, pk [64, 0, 0x0911], 64, by unfold Runs; decide +kernel⟩,
    ⟨up, 0x1440000, by decide +kernel⟩,
    ⟨up, 0x35FFF8, by decide +kernel⟩,
    ⟨{ drcW (fun d => { d with ports := vset d.ports 1 { panic := true } }) with drcx := { up.drcx with retrainCmd := some none, waiting := [.put none 5 [1, 2], .put (some 1) 5 [3, 4]] } }, none, 1, 5, 5, [1, 2], [3, 4], by decide +kernel⟩⟩

theorem witness_HousekeepingRuns :
    (∃ s : State, s.glb.sysLock = true ∧ 46 ≤ s.hkp.slot) ∧
    (∃ s : State, ∃ m : SlotSample, ∃ n : Fin 46, s.glb.sysLock = true ∧ s.hkp.slot = n.val ∧ 40 ≤ n.val ∧ (chan s n).mode ≠ 0 ∧ s.hkp.shutdown = true ∧ adcRuns (advanceTo s s.hkp.slotAt) = false ∧ -550 ≤ m.die ∧ m.die ≤ 2000) ∧
    (∃ s : State, s.glb.sysLock = true ∧ s.hkp.throttle = .requested ∧ fwRuns s = true) ∧
    (∃ s : State, ∃ r, s.glb.sysLock = true ∧ s.hkp.throttle = .enforced ∧ s.hkp.term = some r ∧ fwRuns s = true ∧ someHot (advanceTo s (s.hkp.stepAt + s.hkp.step * 40000000)) = true) ∧
    (∃ s : State, ∃ c : Cmd, ∃ n, Runs s hkpSetChannelSpec c ∧ idx 46 (bits (pw c 0) 5 0) = some n ∧ n.val < 40 ∧ bits (pw c 0) 7 6 ≠ 3 ∧ bits (pw c 0) 9 8 = 0 ∧ (chan s n).role ≠ 1 ∧ pairOk s n.val 0 (bits (pw c 0) 13 10) (bits (pw c 0) 19 14) = true) ∧
    (∃ s : State, ∃ c : Cmd, ∃ g, Runs s hkpSetThreshSpec c ∧ idx 9 (bits (pw c 0) 3 0) = some g ∧ sbits (pw c 1) 15 0 < sbits (pw c 1) 31 16 ∧ sbits (pw c 1) 31 16 < sbits (pw c 2) 15 0 ∧ (groupTemp s g = none ∨ (groupTemp s g).all (fun T => decide (T < sbits (pw c 1) 15 0)) = true ∧ (vget s.hkp.groups g).inWarn = false ∧ (vget s.hkp.groups g).inThrottle = false ∧ (vget s.hkp.groups g).inShutdown = false)) ∧
    (∃ s : State, ∃ c : Cmd, ∃ p : Fin 16, Runs s hkpSetHeadSpec c ∧ p.val = bits (pw c 0) 3 0 ∧ sbits (pw c 1) 15 0 ≤ sbits (pw c 1) 31 16 ∧ (∀ r, (hport s p).rank = some r → r.jetLo ≤ sbits (pw c 1) 15 0 ∧ sbits (pw c 1) 31 16 ≤ r.jetHi) ∧ ((hport s p).rank = none → 200 ≤ sbits (pw c 1) 15 0 ∧ sbits (pw c 1) 31 16 ≤ 600)) ∧
    (∃ s : State, ∃ c : Cmd, Runs s hkpSetThrottleSpec c ∧ bits (pw c 0) 7 0 ≤ 250 ∧ 5 ≤ bits (pw c 0) 15 8 ∧ bits (pw c 0) 15 8 ≤ 250 ∧ 128 ≤ bits (pw c 0) 23 16 ∧ 1000 ≤ bits (pw c 1) 16 0 ∧ bits (pw c 1) 16 0 ≤ 80000) ∧
    (∃ s : State, ∃ c : Cmd, Runs s hkpClearSpec c ∧ pw c 0 = 1 ∧ s.hkp.shutdown = true ∧ (indices 9).any (stillHot s) = false) ∧
    (∃ s : State, ∃ c : Cmd, Runs s hkpClearSpec c ∧ pw c 0 = 1 ∧ s.hkp.shutdown = true ∧ (indices 9).any (stillHot s) = true) :=
  ⟨⟨hkpW fun h => { h with slot := 46 }, by decide +kernel⟩,
    ⟨hkpW (fun h => { h with slot := 45, shutdown := true }), { die := 2000 }, 45, by decide +kernel⟩,
    ⟨hkpW fun h => { h with throttle := .requested }, by decide +kernel⟩,
    ⟨hkpW (fun h => { h with throttle := .enforced, term := some 5, stepAt := 1000000, chans := vmod h.chans 45 fun c => { c with temp := 1000, sampled := some 800000000 } }), 5, by decide +kernel⟩,
    ⟨up, pk [0xFC000, 0, 0, 0, 0, 0], 0, by unfold Runs; decide +kernel⟩,
    ⟨up, pk [8, 0x03200258, 900, 0], 8, by unfold Runs; decide +kernel⟩,
    ⟨up, pk [0, 0x025800C8, 10], 0, (by unfold Runs; refine ⟨by decide +kernel, by decide +kernel, by decide +kernel, ?_, by decide +kernel⟩; intro r h; have h0 : (hport up 0).rank = none := (by decide +kernel); rw [h0] at h; cases h)⟩,
    ⟨up, pk [0x8005FA, 80000], by unfold Runs; decide +kernel⟩,
    ⟨hkpW (fun h => { h with shutdown := true }), pk [1], by unfold Runs; decide +kernel⟩,
    ⟨hkpW (fun h => { h with shutdown := true, groups := vset h.groups 0 { inShutdown := true } }), pk [1], by unfold Runs; decide +kernel⟩⟩

theorem witness_SinksDriven :
    (∃ s : State, ∃ k, s.glb.sysLock = true ∧ (sink s k).strobe = false ∧ sinkWorks s k = true ∧ sinkInCal s k = false ∧ onTime (sink s k).dutyW s.lgt.period ≠ 0) ∧
    (∃ s : State, ∃ k, s.glb.sysLock = true ∧ (sink s k).strobe = false ∧ sinkWorks s k = true ∧ sinkInCal s k = true) ∧
    (∃ s : State, ∃ k, s.glb.sysLock = true ∧ (sink s k).strobe = false ∧ (sink s k).on = true ∧ (sink s k).duty ≠ 4095) ∧
    (∃ s : State, s.bob.linkUp = true) ∧
    (∃ s : State, ∃ k, ∃ t0, s.glb.sysLock = true ∧ (sink s k).pulseEnd = some t0) ∧
    (∃ s : State, ∃ u, s.glb.sysLock = true ∧ u = advanceTo s s.lgt.derateAt) ∧
    (∃ s : State, ∃ u, s.glb.sysLock = true ∧ u = advanceTo s s.lgt.powerAt) ∧
    (∃ s : State, ∃ k, (sink s k).en = true ∧ (sink s k).fault = false) ∧
    (∃ s : State, ∃ c : Cmd, ∃ k : Fin 8, Runs s lgtSetSinkSpec c ∧ k.val = bits (pw c 0) 2 0 ∧ s.hkp.shutdown = false ∧ bits (pw c 2) 5 0 ≤ 45 ∧ sbits (pw c 3) 15 0 + 50 ≤ sbits (pw c 3) 31 16 ∧ (bit (pw c 0) 4 = true → bits (pw c 4) 15 0 ≠ 0)) ∧
    (∃ s : State, ∃ c : Cmd, Runs s lgtSetPwmSpec c ∧ 6250 ≤ bits (pw c 0) 22 0 ∧ bits (pw c 0) 22 0 ≤ 4000000 ∧ 500 ≤ bits (pw c 1) 11 0 ∧ bits (pw c 1) 11 0 ≤ 4000) :=
  ⟨⟨sink0 (fun x => { x with en := true, dutyW := 2048 }), 0, by decide +kernel⟩,
    ⟨{ sink0 (fun x => { x with en := true, dutyW := 2048 }) with cal := (cal0 fun g => { g with running := some 5 }).cal }, 0, by decide +kernel⟩,
    ⟨sink0 (fun x => { x with en := true, on := true }), 0, by decide +kernel⟩,
    ⟨up, by decide +kernel⟩,
    ⟨sink0 (fun x => { x with en := true, strobe := true, on := true, pulseEnd := some 5 }), 0, 5, by decide +kernel⟩,
    ⟨up, advanceTo up up.lgt.derateAt, ⟨by decide +kernel, rfl⟩⟩,
    ⟨up, advanceTo up up.lgt.powerAt, ⟨by decide +kernel, rfl⟩⟩,
    ⟨sink0 (fun x => { x with en := true }), 0, by decide +kernel⟩,
    ⟨up, pk [0x10, 0, 45, 0x03B60384, 1], 0, by unfold Runs; decide +kernel⟩,
    ⟨up, pk [6250, 4000], by unfold Runs; decide +kernel⟩⟩

theorem witness_ChainsSend :
    (∃ s : State, ∃ c : Fin 4, s.bob.linkUp = true ∧ (chainOf s c).sending = false ∧ (chainOf s c).fifo.length < 128) ∧
    (∃ s : State, ∃ c : Fin 4, s.bob.linkUp = true ∧ (chainOf s c).sending = false ∧ 128 ≤ (chainOf s c).fifo.length) ∧
    (∃ s : State, ∃ c : Fin 4, ∃ w, ∃ ws, (chainOf s c).en = true ∧ (chainOf s c).sending = false ∧ s.hkp.shutdown = false ∧ (chainOf s c).fifo = w :: ws ∧ min (chainOf s c).bits 4096 ≤ 32 * (chainOf s c).fifo.length) ∧
    (∃ s : State, ∃ c : Fin 4, s.glb.sysLock = true ∧ (chainOf s c).sending = true ∧ (chainOf s c).zeros = false ∧ (chainOf s c).fifo = [] ∧ (chainOf s c).sent = (chainOf s c).bits) ∧
    (∃ s : State, ∃ c : Cmd, ∃ p : Fin 4, Runs s lgtSetChainSpec c ∧ p.val = bits (pw c 0) 1 0 ∧ 48 ≤ bits (pw c 1) 15 0 ∧ bits (pw c 1) 15 0 ≤ 65520 ∧ 20 ≤ bits (pw c 2) 7 0 ∧ (chainOf s p).sending = false) ∧
    (∃ s : State, ∃ c : Cmd, ∃ p : Fin 4, Runs s lgtSetChainSpec c ∧ p.val = bits (pw c 0) 1 0 ∧ 48 ≤ bits (pw c 1) 15 0 ∧ bits (pw c 1) 15 0 ≤ 65520 ∧ 20 ≤ bits (pw c 2) 7 0) :=
  ⟨⟨up, 0, by decide +kernel⟩,
    ⟨chain0 (fun x => { x with fifo := List.replicate 128 0 }), 0, by decide +kernel⟩,
    ⟨chain0 (fun x => { x with en := true, fifo := [3, 4] }), 0, 3, [4], by decide +kernel⟩,
    ⟨chain0 (fun x => { x with en := true, sending := true, sent := 48 }), 0, by decide +kernel⟩,
    ⟨up, pk [0, 65520, 20], 0, by unfold Runs; decide +kernel⟩,
    ⟨chain0 (fun x => { x with en := true, sending := true, fifo := [3], sent := 32 }), pk [0, 65520, 20], 0, by unfold Runs; decide +kernel⟩⟩

theorem witness_CalibrationRuns :
    (∃ s : State, s.glb.sysLock = true ∧ s.glb.bootState ≠ .failed ∧ (∀ g, (calGroup s g).running = none) ∧ s.cal.cmds = [] ∧ s.hkp.shutdown = false ∧ (calGroup s 10).due = true ∧ s.pdp.active = none ∧ s.hkp.slot = 0) ∧
    (∃ s : State, ∃ k : Fin 8, ∃ g : Fin 11, s.glb.sysLock = true ∧ s.glb.bootState ≠ .failed ∧ g.val = k.val ∧ (∀ h, (calGroup s h).running = none) ∧ s.cal.cmds = [] ∧ s.hkp.shutdown = false ∧ (∀ h, (calGroup s h).due = true → k.val ≤ h.val ∧ h.val < 8) ∧ (calGroup s g).due = true ∧ (sink s k).strobe = false ∧ s.pdp.active = none) ∧
    (∃ s : State, ∃ g, ∃ t0, s.glb.sysLock = true ∧ g.val < 8 ∧ (calGroup s g).running = some t0) ∧
    (∃ s : State, ∃ g, ∃ t0, s.glb.sysLock = true ∧ (g.val = 8 ∨ g.val = 9) ∧ (calGroup s g).running = some t0) ∧
    (∃ s : State, ∃ g, ∃ t0, s.glb.sysLock = true ∧ g.val < 10 ∧ (calGroup s g).running = some t0) ∧
    (∃ s : State, ∃ g, ∃ t0, s.glb.sysLock = true ∧ (calGroup s g).deferAt = some t0 ∧ (calGroup s g).due = true ∧ (calGroup s g).running = none) ∧
    (∃ s : State, ∃ c : Cmd, Runs s calSetSpec c ∧ 5 ≤ bits (pw c 0) 7 0 ∧ bits (pw c 0) 7 0 ≤ 160 ∧ bits (pw c 1) 5 0 ≤ 45 ∧ bits (pw c 1) 13 8 ≤ 45) ∧
    (∃ s : State, ∃ c : Cmd, Runs s calRunSpec c ∧ (∀ g : Fin 11, bit (pw c 0) g.val = false)) ∧
    (∃ s : State, ∃ c : Cmd, ∃ h : Fin 11, Runs s calRunSpec c ∧ bit (pw c 0) h.val = true) :=
  ⟨⟨up, by decide +kernel⟩,
    ⟨{ up with cal := { up.cal with groups := vset (Vector.replicate 11 { due := false }) 0 {} } }, 0, 0, by decide +kernel⟩,
    ⟨cal0 (fun g => { g with running := some 5 }), 0, 5, by decide +kernel⟩,
    ⟨{ up with cal := { up.cal with groups := vset up.cal.groups 9 { running := some 5 } } }, 9, 5, by decide +kernel⟩,
    ⟨cal0 (fun g => { g with running := some 5 }), 0, 5, by decide +kernel⟩,
    ⟨cal0 (fun g => { g with deferAt := some 5 }), 0, 5, by decide +kernel⟩,
    ⟨up, pk [0x1A0, 0x2A28], by unfold Runs; decide +kernel⟩,
    ⟨up, pk [0], by unfold Runs; decide +kernel⟩,
    ⟨up, pk [1], 0, by unfold Runs; decide +kernel⟩⟩

theorem witness_ChipResets :
    (∃ s : State, s.glb.sysLock = true) ∧
    (∃ s : State, (s.glb.dbgLevel = 2 ∨ Config.locked = false)) ∧
    (∃ s : State, s.glb.rstN = false) :=
  ⟨⟨up, by decide +kernel⟩,
    ⟨{ up with glb := { up.glb with dbgLevel := 2 } }, by decide +kernel⟩,
    ⟨State.reset, by decide +kernel⟩⟩

theorem witness_ClocksAndSupplies :
    (∃ s : State, s.glb.rstN = true ∧ s.glb.sysLock = false) ∧
    (∃ s : State, s.glb.dramLock = true ∧ s.drc.frozen = false) ∧
    (∃ s : State, s.glb.sdLock = true) ∧
    (∃ s : State, s.glb.pcieLock = true) ∧
    (∃ s : State, s.glb.rstN = true ∧ s.glb.dramLock = false) ∧
    (∃ s : State, s.glb.rstN = true ∧ s.glb.pcieLock = false) ∧
    (∃ s : State, s.glb.rstN = true ∧ s.glb.sdLock = false) ∧
    (∃ s : State, s.glb.rstN = true ∧ s.glb.dramLock = false ∧ s.glb.dramUnheld = true) ∧
    (∃ s : State, s.glb.sysLock = true ∧ s.glb.dramLock = true ∧ s.glb.dramUnheld = true ∧ s.glb.sdUnheld = false ∧ s.glb.pcieUnheld = false) ∧
    (∃ s : State, s.glb.sysLock = true ∧ s.glb.sdLock = true ∧ s.glb.sdUnheld = true ∧ s.glb.dramUnheld = true ∧ s.glb.fault.getLsbD 6 = true) ∧
    (∃ s : State, s.glb.sysLock = true) ∧
    (∃ s : State, s.glb.sysLock = true ∧ s.seq.oscBad = true) ∧
    (∃ s : State, ∃ m, 2 ≤ (rail s m).outN ∧ (rail s m).uv = false ∧ (rail s m).ov = false) ∧
    (∃ s : State, (∀ m, 2 ≤ (rail s m).inN)) :=
  ⟨⟨{ State.reset with glb := { State.reset.glb with rstN := true } }, by decide +kernel⟩,
    ⟨up, by decide +kernel⟩,
    ⟨up, by decide +kernel⟩,
    ⟨up, by decide +kernel⟩,
    ⟨booting id, by decide +kernel⟩,
    ⟨booting id, by decide +kernel⟩,
    ⟨booting id, by decide +kernel⟩,
    ⟨booting fun g => { g with dramUnheld := true }, by decide +kernel⟩,
    ⟨booting fun g => { g with dramLock := true, dramUnheld := true }, by decide +kernel⟩,
    ⟨booting fun g => { g with sdLock := true, sdUnheld := true, dramUnheld := true, fault := 64 }, by decide +kernel⟩,
    ⟨up, by decide +kernel⟩,
    ⟨{ up with seq := { up.seq with oscBad := true } }, by decide +kernel⟩,
    ⟨hkpW (fun h => { h with rails := Vector.replicate 16 { outN := 2 } }), 0, by decide +kernel⟩,
    ⟨hkpW fun h => { h with rails := Vector.replicate 16 { inN := 2 } }, by decide +kernel⟩⟩

theorem witness_BootAndDebug :
    (∃ s : State, s.glb.sysLock = true ∧ s.glb.sramInit = false) ∧
    (∃ s : State, s.glb.sysLock = true ∧ s.glb.sramInit = true ∧ s.glb.bootState = .booting ∧ s.glb.pushed = none ∧ s.glb.bootSrc ≠ 1 ∧ s.glb.bootSource = 0) ∧
    (∃ s : State, s.glb.sysLock = true ∧ s.glb.sramInit = true ∧ s.glb.bootState = .booting ∧ s.glb.pushed = none ∧ s.glb.bootSrc = 2 ∧ s.glb.bootSource = 1) ∧
    (∃ s : State, ∃ h, s.glb.sysLock = true ∧ s.glb.sramInit = true ∧ s.glb.bootState = .booting ∧ s.glb.pushed = none ∧ s.glb.bootSrc ≠ 1 ∧ s.glb.bootSource = 0 ∧ h = memRead s.flash 0 512 ∧ headerOk h = true ∧ lengthOk h 0x1000000 = true) ∧
    (∃ s : State, s.bob.linkUp = true ∧ s.glb.bootState = .waitHost) ∧
    (∃ s : State, s.bob.linkUp = true ∧ s.glb.bootState ≠ .waitHost) ∧
    (∃ s : State, ∃ len, s.glb.pushed = some len ∧ (len < 4608 ∨ 492032 < len)) ∧
    (∃ s : State, ∃ len, ∃ h, s.glb.pushed = some len ∧ 4608 ≤ len ∧ len ≤ 492032 ∧ h = memRead s.sram 0x1440000 512 ∧ headerOk h = true ∧ lengthOk h len = true) ∧
    (∃ s : State, s.fw.granted = true ∧ fwRuns s = true ∧ s.fw.accepting = false) ∧
    (∃ s : State, s.glb.challenge = none) ∧
    (∃ s : State, ∃ ch, s.glb.challenge = some ch ∧ s.glb.dbgLockout = false) :=
  ⟨⟨booting fun g => { g with sramInit := false }, by decide +kernel⟩,
    ⟨booting id, by decide +kernel⟩,
    ⟨booting fun g => { g with bootSrc := 2, bootSource := 1 }, by decide +kernel⟩,
    ⟨{ booting id with flash := headerAt 0 }, memRead (headerAt 0) 0 512, by decide +kernel⟩,
    ⟨{ up with glb := { up.glb with bootState := .waitHost } }, by decide +kernel⟩,
    ⟨up, by decide +kernel⟩,
    ⟨booting (fun g => { g with pushed := some 4607 }), 4607, by decide +kernel⟩,
    ⟨{ booting (fun g => { g with pushed := some 4608 }) with sram := headerAt 0x1440000 }, 4608, memRead (headerAt 0x1440000) 0x1440000 512, by decide +kernel⟩,
    ⟨{ up with fw := { up.fw with accepting := false } }, by decide +kernel⟩,
    ⟨up, by decide +kernel⟩,
    ⟨{ up with glb := { up.glb with challenge := some [1] } }, [1], by decide +kernel⟩⟩

theorem witness_HostAccesses :
    (∃ s : State, s.bob.linkUp = true) ∧
    (∃ s : State, s.bob.linkUp = true) ∧
    (∃ s : State, s.bob.linkUp = true) ∧
    (∃ s : State, ∃ off : BitVec 24, s.bob.linkUp = true ∧ off.toNat % 4 ≠ 0) ∧
    (∃ s : State, s.bob.linkUp = true) ∧
    (∃ s : State, s.bob.linkUp = true) ∧
    (∃ s : State, s.bob.linkUp = true ∧ s.drc.frozen = false) ∧
    (∃ s : State, s.bob.linkUp = true ∧ s.drc.frozen = true) ∧
    (∃ s : State, s.bob.linkUp = true) ∧
    (∃ s : State, ∃ off : BitVec 36, ∃ n, s.bob.linkUp = true ∧ 0 < n ∧ s.drc.ready = true ∧ s.drc.frozen = false ∧ off.toNat + n ≤ dramUsable s) ∧
    (∃ s : State, ∃ off : BitVec 36, ∃ bytes : List (Option Byte), s.bob.linkUp = true ∧ s.drc.ready = true ∧ s.drc.frozen = false ∧ memWf s.dram = true ∧ off.toNat + bytes.length ≤ dramUsable s) ∧
    (∃ s : State, ∃ off : BitVec 36, ∃ bytes : List (Option Byte), s.bob.linkUp = true ∧ off.toNat + bytes.length ≤ dramTop s ∧ s.drc.frozen = true) ∧
    (∃ s : State, ∃ off : BitVec 36, ∃ bytes : List (Option Byte), s.bob.linkUp = true ∧ (s.drc.capGib = 0 ∨ off.toNat + bytes.length ≤ dramTop s) ∧ s.drc.ready = false ∧ s.drc.frozen = false) ∧
    (∃ s : State, ∃ off : BitVec 36, ∃ n, s.bob.linkUp = true ∧ 0 < n ∧ off.toNat + n ≤ dramTop s ∧ s.drc.ready = false ∧ s.drc.frozen = false ∧ s.drcx.retrainCmd ≠ none) ∧
    (∃ s : State, ∃ off : BitVec 25, ∃ n, s.bob.linkUp = true ∧ bar4Ok off.toNat n = true ∧ 0x1440000 ≤ off.toNat ∧ off.toNat + n ≤ 0x1AA0000 ∧ s.glb.sramInit = true ∧ s.drcx.sramBad = []) ∧
    (∃ s : State, ∃ off : BitVec 25, s.bob.linkUp = true ∧ bar4Ok off.toNat 4 = true ∧ (off.toNat < 0x1440000 ∨ 0x1AA0000 < off.toNat + 4)) ∧
    (∃ s : State, ∃ off : BitVec 25, ∃ bytes : List Byte, s.bob.linkUp = true ∧ bar4Ok off.toNat bytes.length = true ∧ 0x1440000 ≤ off.toNat ∧ off.toNat + bytes.length ≤ 0x1AA0000 ∧ s.glb.sramInit = true ∧ memWf s.sram = true) ∧
    (∃ s : State, s.bob.linkUp = true) :=
  ⟨⟨up, by decide +kernel⟩,
    ⟨up, by decide +kernel⟩,
    ⟨up, by decide +kernel⟩,
    ⟨up, 2, by decide +kernel⟩,
    ⟨up, by decide +kernel⟩,
    ⟨up, by decide +kernel⟩,
    ⟨up, by decide +kernel⟩,
    ⟨drcW fun d => { d with frozen := true }, by decide +kernel⟩,
    ⟨up, by decide +kernel⟩,
    ⟨up, 0xFFBFFFFC, 4, by decide +kernel⟩,
    ⟨up, 0xFFBFFFFC, [some 1, none, some 3, some 4], by decide +kernel⟩,
    ⟨drcW (fun d => { d with frozen := true }), 0xFFFFFFFF, [some 1], by decide +kernel⟩,
    ⟨drcW (fun d => { d with ready := false }), 0xFFFFFFFF, [some 1], by decide +kernel⟩,
    ⟨{ drcW (fun d => { d with ready := false }) with drcx := { up.drcx with retrainCmd := some none } }, 5, 3, by decide +kernel⟩,
    ⟨up, 0x1A9FFFC, 4, by decide +kernel⟩,
    ⟨up, 0x143FFFC, by decide +kernel⟩,
    ⟨up, 0x1440000, [1, 2, 3, 4, 5, 6, 7, 8], by decide +kernel⟩,
    ⟨up, by decide +kernel⟩⟩

theorem witness_HostInterfaceResets :
    (∃ s : State, ∃ speed, s.bob.linkUp = true ∧ s.bob.trained = true ∧ speed ≠ s.bob.speed) ∧
    (∃ s : State, s.glb.rstN = true ∧ s.glb.pcieLock = true ∧ s.bob.linkUp = false ∧ s.bob.trained = false) ∧
    (∃ s : State, s.glb.rstN = true ∧ (∀ n, (vget s.bob.rings n).desc = none) ∧ (∀ k, (camCtx s k).frames = [])) ∧
    (∃ s : State, s.bob.linkUp = true ∧ busMaster s = false) ∧
    (∃ s : State, s.bob.linkUp = true ∧ busMaster s = true ∧ (∀ n, (vget s.bob.rings n).desc = none)) ∧
    (∃ s : State, ∃ n : Fin 16, ∃ d, s.bob.linkUp = true ∧ busMaster s = true ∧ ringLive (vget s.bob.rings (dmaBob n)) = true ∧ (vget s.bob.rings (dmaBob n)).desc = some d ∧ d.fin = none ∧ d.srcSpace = 0 ∧ d.op ≠ .fill ∧ isEbc d = false ∧ (∀ m, m ≠ dmaBob n → (vget s.bob.rings m).desc = none)) ∧
    (∃ s : State, s.bob.linkUp = true) ∧
    (∃ s : State, ∃ v, busMaster s = true ∧ s.bob.fmask = false ∧ vget s.bob.pba v = true) ∧
    (∃ s : State, ∃ v, vget s.bob.pba v = false) :=
  ⟨⟨up, 1, by decide +kernel⟩,
    ⟨booting fun g => { g with pcieLock := true }, by decide +kernel⟩,
    ⟨up, by decide +kernel⟩,
    ⟨{ up with bob := { up.bob with bme := false } }, by decide +kernel⟩,
    ⟨up, by decide +kernel⟩,
    ⟨runs { desc64 with srcSpace := 0 }, 0, { desc64 with srcSpace := 0 }, by decide +kernel⟩,
    ⟨up, by decide +kernel⟩,
    ⟨{ up with bob := { up.bob with pba := vset up.bob.pba 5 true } }, 5, by decide +kernel⟩,
    ⟨up, 5, by decide +kernel⟩⟩

theorem witness_BobbinsServed :
    (∃ s : State, ∃ n, ∃ w : Word, ∃ v, v = w ||| 1 ∧ s.bob.linkUp = true ∧ (vget s.bob.rings n).en = false ∧ 4 ≤ bits v 8 4 ∧ bits v 8 4 ≤ 16 ∧ bits v 2 1 ≠ 3 ∧ inSpace s (bits v 2 1) (addr64 (vget s.bob.rings n).baseLo (vget s.bob.rings n).baseHi) (32 * 2 ^ bits v 8 4) = true ∧ inSpace s (bits v 2 1) (addr64 (vget s.bob.rings n).wbLo (vget s.bob.rings n).wbHi) 4 = true) ∧
    (∃ s : State, ∃ n, ∃ w : Word, ∃ v, v = w ||| 1 ∧ s.bob.linkUp = true ∧ (vget s.bob.rings n).en = false ∧ (bits v 8 4 < 4 ∨ 16 < bits v 8 4 ∨ bits v 2 1 = 3 ∨ inSpace s (bits v 2 1) (addr64 (vget s.bob.rings n).baseLo (vget s.bob.rings n).baseHi) (32 * 2 ^ bits v 8 4) = false ∨ inSpace s (bits v 2 1) (addr64 (vget s.bob.rings n).wbLo (vget s.bob.rings n).wbHi) 4 = false)) ∧
    (∃ s : State, s.bob.linkUp = true) ∧
    (∃ s : State, s.bob.linkUp = true ∧ s.drcx.waiting.any ofBar2 = true) ∧
    (∃ s : State, ∃ n, ∃ v : Word, s.bob.linkUp = true ∧ s.drcx.waiting.any ofBar2 = false ∧ (vget s.bob.rings n).en = true ∧ doorbellOk (vget s.bob.rings n) (hostProduced n) (bits v 16 0) = true) ∧
    (∃ s : State, ∃ n, ∃ v : Word, s.bob.linkUp = true ∧ s.drcx.waiting.any ofBar2 = false ∧ ((vget s.bob.rings n).en = false ∨ doorbellOk (vget s.bob.rings n) (hostProduced n) (bits v 16 0) = false)) ∧
    (∃ s : State, s.bob.linkUp = true) ∧
    (∃ s : State, s.bob.linkUp = true) ∧
    (∃ s : State, s.bob.linkUp = true) ∧
    (∃ s : State, s.bob.linkUp = true) ∧
    (∃ s : State, ∃ n, (vget s.bob.rings n).wbDue = true ∧ (vget s.bob.rings n).wbEn = true ∧ (vget s.bob.rings n).halted = false ∧ (vget s.bob.rings n).msgDue = false ∧ accessHeld s (vget s.bob.rings n).space = false ∧ accessErr s (vget s.bob.rings n).space (vget s.bob.rings n).wb 4 false = none) ∧
    (∃ s : State, ∃ n, ∃ v : Fin 64, s.glb.sysLock = true ∧ (vget s.bob.rings n).irqEn = true ∧ 0 < (vget s.bob.rings n).pend ∧ 0 < (vget s.bob.rings n).modTime ∧ (vget s.bob.rings n).wbDue = false ∧ (vget s.bob.rings n).vector = v.val) :=
  ⟨⟨up, 0, 0x102, 0x103, (by decide +kernel)⟩,
    ⟨up, 0, 0x32, 0x33, (by decide +kernel)⟩,
    ⟨up, by decide +kernel⟩,
    ⟨{ up with drcx := { up.drcx with waiting := [.bar2Write 5 []] } }, by decide +kernel⟩,
    ⟨ring 0 ring1, 0, 16, by decide +kernel⟩,
    ⟨ring 0 ring1, 0, 17, by decide +kernel⟩,
    ⟨up, by decide +kernel⟩,
    ⟨up, by decide +kernel⟩,
    ⟨up, by decide +kernel⟩,
    ⟨up, by decide +kernel⟩,
    ⟨ring 0 { ring1 with wbDue := true, wbEn := true }, 0, by decide +kernel⟩,
    ⟨ring 0 { ring1 with irqEn := true, pend := 1, modTime := 5, vector := 3 }, 0, 3, by decide +kernel⟩⟩

theorem witness_DescriptorsChecked :
    (∃ s : State, ∃ n, ∃ op, HeadReadable s (dmaBob n) ∧ bits ((headWords s (dmaBob n)).getD 0 0) 7 0 = dmaCode op ∧ FieldsSound (descOf op (headWords s (dmaBob n))) ((headWords s (dmaBob n)).getD 0 0) ((headWords s (dmaBob n)).getD 1 0) ∧ RangesSound s (descOf op (headWords s (dmaBob n)))) ∧
    (∃ s : State, ∃ n, ∃ op, HeadReadable s (dmaBob n) ∧ bits ((headWords s (dmaBob n)).getD 0 0) 7 0 = dmaCode op ∧ ¬ FieldsSound (descOf op (headWords s (dmaBob n))) ((headWords s (dmaBob n)).getD 0 0) ((headWords s (dmaBob n)).getD 1 0)) ∧
    (∃ s : State, ∃ n, ∃ op, HeadReadable s (dmaBob n) ∧ bits ((headWords s (dmaBob n)).getD 0 0) 7 0 = dmaCode op ∧ FieldsSound (descOf op (headWords s (dmaBob n))) ((headWords s (dmaBob n)).getD 0 0) ((headWords s (dmaBob n)).getD 1 0) ∧ ¬ RangesSound s (descOf op (headWords s (dmaBob n)))) ∧
    (∃ s : State, ∃ n, HeadReadable s (dmaBob n) ∧ (∀ op, bits ((headWords s (dmaBob n)).getD 0 0) 7 0 ≠ dmaCode op)) ∧
    (∃ s : State, ∃ n, ∃ r, vget s.bob.rings (dmaBob n) = r ∧ ringLive r = true ∧ r.desc = none ∧ ringUsed r ≠ 0 ∧ r.space = 1 ∧ s.drc.frozen = true) ∧
    (∃ s : State, ∃ n, (vget s.bob.rings (dmaBob n)).desc.isSome = true) :=
  ⟨⟨{ ring 0 ring1 with dram := descBytes 64 5 }, 0, .copy, by unfold HeadReadable FieldsSound RangesSound; decide +kernel⟩,
    ⟨{ ring 0 ring1 with dram := descBytes 0 5 }, 0, .copy, by unfold HeadReadable FieldsSound; decide +kernel⟩,
    ⟨{ ring 0 ring1 with dram := descBytes 64 7 }, 0, .copy, by unfold HeadReadable FieldsSound RangesSound; decide +kernel⟩,
    ⟨{ ring 0 ring1 with dram := [(0, 9)] }, 0, ⟨by unfold HeadReadable; decide +kernel, by intro op; cases op <;> decide +kernel⟩⟩,
    ⟨{ ring 0 ring1 with drc := (drcW fun d => { d with frozen := true }).drc }, 0, ring1, by decide +kernel⟩,
    ⟨runs desc64, 0, by decide +kernel⟩⟩

theorem witness_DmaBurstsMove :
    (∃ s : State, ∃ n, ∃ d, ∃ len, DescRuns s n d ∧ len = min (64 * 2 ^ d.burst) (d.length - d.moved) ∧ d.op = .copy ∧ d.periph = 0 ∧ d.dstSpace ≠ 3 ∧ (d.srcSpace ≠ d.dstSpace ∨ d.src + d.length ≤ d.dst ∨ d.dst + d.length ≤ d.src) ∧ accessErr s d.srcSpace (d.src + d.moved) len true = none ∧ accessErr s d.dstSpace (d.dst + d.moved) len false = none) ∧
    (∃ s : State, ∃ n, ∃ d, ∃ len, DescRuns s n d ∧ len = min (64 * 2 ^ d.burst) (d.length - d.moved) ∧ d.op = .fill ∧ d.periph = 0 ∧ d.dstSpace ≠ 3 ∧ accessErr s d.dstSpace (d.dst + d.moved) len false = none) ∧
    (∃ s : State, ∃ n, ∃ d, ∃ len, DescRuns s n d ∧ len = min (64 * 2 ^ d.burst) (d.length - d.moved) ∧ d.op = .compare ∧ d.periph = 0 ∧ d.dstSpace ≠ 3 ∧ accessErr s d.srcSpace (d.src + d.moved) len true = none ∧ accessErr s d.dstSpace (d.dst + d.moved) len true = none ∧ spaceRead s d.srcSpace (d.src + d.moved) len = spaceRead s d.dstSpace (d.dst + d.moved) len) ∧
    (∃ s : State, ∃ n, ∃ d, ∃ len, ∃ i, DescRuns s n d ∧ len = min (64 * 2 ^ d.burst) (d.length - d.moved) ∧ d.op = .compare ∧ d.periph = 0 ∧ d.dstSpace ≠ 3 ∧ accessErr s d.srcSpace (d.src + d.moved) len true = none ∧ accessErr s d.dstSpace (d.dst + d.moved) len true = none ∧ i < len ∧ (∀ j < i, (spaceRead s d.srcSpace (d.src + d.moved) len)[j]? = (spaceRead s d.dstSpace (d.dst + d.moved) len)[j]?) ∧ (spaceRead s d.srcSpace (d.src + d.moved) len)[i]? ≠ (spaceRead s d.dstSpace (d.dst + d.moved) len)[i]?) ∧
    (∃ s : State, ∃ n, ∃ d, ∃ len, DescRuns s n d ∧ len = min (64 * 2 ^ d.burst) (d.length - d.moved) ∧ d.op = .copy ∧ d.periph = 0 ∧ d.dstSpace = d.srcSpace ∧ d.dstSpace ≠ 3 ∧ d.src < d.dst + d.length ∧ d.dst < d.src + d.length ∧ accessErr s d.srcSpace (d.src + d.moved) len true = none ∧ accessErr s d.dstSpace (d.dst + d.moved) len false = none) ∧
    (∃ s : State, ∃ n, ∃ d, ∃ k : Fin 32, (vget s.bob.rings (dmaBob n)).desc = some d ∧ isEbc d = false ∧ d.periph = 0x10 + k.val ∧ (vget s.tim.tacks k).dmaReq = 0) ∧
    (∃ s : State, ∃ n, ∃ d, ∃ k : Fin 32, ∃ len, DescRuns s n d ∧ len = min (64 * 2 ^ d.burst) (d.length - d.moved) ∧ d.op = .copy ∧ d.periph = 0x10 + k.val ∧ 0 < (vget s.tim.tacks k).dmaReq ∧ d.dstSpace ≠ 3 ∧ d.srcSpace ≠ d.dstSpace ∧ accessErr s d.srcSpace (d.src + d.moved) len true = none ∧ accessErr s d.dstSpace (d.dst + d.moved) len false = none) ∧
    (∃ s : State, ∃ n, ∃ d, DescRuns s n d ∧ d.periph = 0 ∧ (d.op = .copy ∨ d.op = .compare) ∧ d.srcSpace = 0 ∧ busMaster s = false) ∧
    (∃ s : State, ∃ n, dmaNext s ≠ some n ∧ turnHeld s n = false) ∧
    (∃ s : State, ∃ n, wantsTurn s n = true ∧ turnHeld s n = true ∧ DramReq.burst n ∉ s.drcx.waiting) :=
  ⟨⟨runs desc64, 0, desc64, 64, by unfold DescRuns; decide +kernel⟩,
    ⟨runs { desc64 with op := .fill }, 0, { desc64 with op := .fill }, 64, by unfold DescRuns; decide +kernel⟩,
    ⟨runs { desc64 with op := .compare }, 0, { desc64 with op := .compare }, 64, by unfold DescRuns; decide +kernel⟩,
    ⟨{ runs { desc64 with op := .compare } with dram := [(0x1003, 1)] }, 0, { desc64 with op := .compare }, 64, 3, by unfold DescRuns; decide +kernel⟩,
    ⟨runs { desc64 with dst := 0x103F }, 0, { desc64 with dst := 0x103F }, 64, by unfold DescRuns; decide +kernel⟩,
    ⟨runs { desc64 with periph := 0x2F }, 0, { desc64 with periph := 0x2F }, 31, by decide +kernel⟩,
    ⟨{ runs { desc64 with periph := 0x10, dstSpace := 2, dst := 0x1440000 } with tim := { up.tim with tacks := vset up.tim.tacks 0 { dmaReq := 1 } } }, 0, { desc64 with periph := 0x10, dstSpace := 2, dst := 0x1440000 }, 0, 64, by unfold DescRuns; decide +kernel⟩,
    ⟨modRing { up with bob := { up.bob with bme := false } } 0 (fun _ => { ring1 with desc := some { desc64 with srcSpace := 0 } }), 0, { desc64 with srcSpace := 0 }, by unfold DescRuns; decide +kernel⟩,
    ⟨up, 0, by decide +kernel⟩,
    ⟨{ runs desc64 with drc := (drcW fun d => { d with ready := false }).drc }, 0, by decide +kernel⟩⟩

theorem witness_EbcBlocksCoded :
    (∃ s : State, ∃ n, ∃ d, DescRuns s n d ∧ isEbc d = true ∧ s.bob.eng = none ∧ d.periph = 0 ∧ accessErr s d.srcSpace (d.src + d.moved * (ebcSizes d).1) (ebcSizes d).1 true = none) ∧
    (∃ s : State, ∃ n, ∃ d, ∃ b : EngBlk, ∃ raw, s.bob.eng = some b ∧ b.chan = n ∧ b.out = none ∧ (vget s.bob.rings (dmaBob n)).desc = some d ∧ d.op = .ebcDecode ∧ ebcDecode (bits d.operand 1 0) b.src b.ref = .ok raw) ∧
    (∃ s : State, ∃ n, ∃ d, ∃ b : EngBlk, ∃ res, s.bob.eng = some b ∧ b.chan = n ∧ b.out = none ∧ (vget s.bob.rings (dmaBob n)).desc = some d ∧ d.op = .ebcDecode ∧ ebcDecode (bits d.operand 1 0) b.src b.ref = res ∧ res = .short) ∧
    (∃ s : State, ∃ n, ∃ d, ∃ b : EngBlk, ∃ res, s.bob.eng = some b ∧ b.chan = n ∧ b.out = none ∧ (vget s.bob.rings (dmaBob n)).desc = some d ∧ d.op = .ebcDecode ∧ ebcDecode (bits d.operand 1 0) b.src b.ref = res ∧ res = .overrun) ∧
    (∃ s : State, ∃ n, ∃ d, ∃ b : EngBlk, s.bob.eng = some b ∧ b.chan = n ∧ b.out = none ∧ (vget s.bob.rings (dmaBob n)).desc = some d ∧ d.op = .ebcEncode) ∧
    (∃ s : State, ∃ n, ∃ d, ∃ b : EngBlk, ∃ out, ∃ raw, DescRuns s n d ∧ isEbc d = true ∧ s.bob.eng = some b ∧ b.chan = n ∧ b.out = some (.bytes out raw) ∧ ebcBlocks d ≤ d.moved + 1 ∧ accessErr s d.dstSpace (d.dst + d.moved * (ebcSizes d).2) (ebcSizes d).2 false = none) ∧
    (∃ s : State, ∃ n, ∃ d, ∃ b : EngBlk, ∃ out, ∃ raw, DescRuns s n d ∧ isEbc d = true ∧ s.bob.eng = some b ∧ b.chan = n ∧ b.out = some (.bytes out raw) ∧ d.moved + 1 < ebcBlocks d ∧ d.periph = 0 ∧ accessErr s d.dstSpace (d.dst + d.moved * (ebcSizes d).2) (ebcSizes d).2 false = none ∧ accessErr s d.srcSpace (d.src + (d.moved + 1) * (ebcSizes d).1) (ebcSizes d).1 true = none) ∧
    (∃ widthCode, ∃ slot, ∃ ref, ∃ raw, ebcDecode widthCode slot ref = .ok raw) :=
  ⟨⟨runs { desc64 with op := .ebcDecode, operand := 4, length := 128 }, 0, { desc64 with op := .ebcDecode, operand := 4, length := 128 }, by unfold DescRuns; decide +kernel⟩,
    ⟨engs { desc64 with op := .ebcDecode, operand := 4, length := 128 } { src := [0xC9, 0xFF, 0x00, 0xAA] }, 0, { desc64 with op := .ebcDecode, operand := 4, length := 128 }, { src := [0xC9, 0xFF, 0x00, 0xAA] }, List.replicate 256 0xAA, by decide +kernel⟩,
    ⟨engs { desc64 with op := .ebcDecode, operand := 4, length := 128 } { src := [] }, 0, { desc64 with op := .ebcDecode, operand := 4, length := 128 }, { src := [] }, .short, by decide +kernel⟩,
    ⟨engs { desc64 with op := .ebcDecode, operand := 4, length := 128 } { src := [0xFF] }, 0, { desc64 with op := .ebcDecode, operand := 4, length := 128 }, { src := [0xFF] }, .overrun, by decide +kernel⟩,
    ⟨engs { desc64 with op := .ebcEncode, operand := 4, length := 256 } {}, 0, { desc64 with op := .ebcEncode, operand := 4, length := 256 }, {}, by decide +kernel⟩,
    ⟨engs { desc64 with op := .ebcDecode, operand := 4, length := 128 } { out := some (.bytes [1] [2]) }, 0, { desc64 with op := .ebcDecode, operand := 4, length := 128 }, { out := some (.bytes [1] [2]) }, [1], [2], by unfold DescRuns; decide +kernel⟩,
    ⟨engs { desc64 with op := .ebcDecode, operand := 4, length := 256 } { out := some (.bytes [1] [2]) }, 0, { desc64 with op := .ebcDecode, operand := 4, length := 256 }, { out := some (.bytes [1] [2]) }, [1], [2], by unfold DescRuns; decide +kernel⟩,
    ⟨0, [0xC9, 0xFF, 0x00, 0xAA], none, List.replicate 256 0xAA, by decide +kernel⟩⟩

theorem witness_DescriptorsEnd :
    (∃ s : State, ∃ n, ∃ d, ∃ code, ∃ result, ∃ r, vget s.bob.rings (dmaBob n) = r ∧ r.desc = some d ∧ d.fin = some (code, result) ∧ d.irq = false ∧ ringLive r = true ∧ accessHeld s r.space = false ∧ accessErr s r.space (entryAddr r r.head + 0x18) 8 false = none) ∧
    (∃ s : State, ∃ n, ∃ d, ∃ f, ∃ r, vget s.bob.rings (dmaBob n) = r ∧ r.desc = some d ∧ d.fin = some f ∧ d.irq = true ∧ ringLive r = true ∧ accessHeld s r.space = false ∧ accessErr s r.space (entryAddr r r.head + 0x18) 8 false = none ∧ r.pend + 1 < r.modCount) ∧
    (∃ s : State, ∃ n : Fin 32, ∃ d, ∃ r, ∃ why, vget s.bob.rings n = r ∧ ringLive r = true ∧ r.desc = some d ∧ d.fin = none ∧ d.op ≠ .fill ∧ d.irq = false ∧ canFail s why d.srcSpace false = true ∧ accessHeld s r.space = false ∧ accessErr s r.space (entryAddr r r.head + 0x18) 8 false = none ∧ s.bob.errValid = false ∧ s.bob.errIrqEn = false) ∧
    (∃ s : State, ∃ n : Fin 32, ∃ r, ∃ which : FailedAccess, ∃ why, ∃ isWrite, ∃ space, ∃ a, ∃ w, vget s.bob.rings n = r ∧ ringLive r = true ∧ which ≠ .data ∧ which ≠ .compareDest ∧ failedAccess s n which isWrite = some (space, a, w) ∧ canFail s why space w = true ∧ s.bob.errIrqEn = false) :=
  ⟨⟨runs { desc64 with fin := some (1, 64) }, 0, { desc64 with fin := some (1, 64) }, 1, 64, { ring1 with desc := some { desc64 with fin := some (1, 64) } }, by decide +kernel⟩,
    ⟨ring 0 { ring1 with irqEn := true, modCount := 3, desc := some { desc64 with irq := true, fin := some (1, 64) } }, 0, { desc64 with irq := true, fin := some (1, 64) }, (1, 64), { ring1 with irqEn := true, modCount := 3, desc := some { desc64 with irq := true, fin := some (1, 64) } }, by decide +kernel⟩,
    ⟨ring 0 { ring1 with desc := some { desc64 with srcSpace := 2, src := 0x1440000 } }, 0, { desc64 with srcSpace := 2, src := 0x1440000 }, { ring1 with desc := some { desc64 with srcSpace := 2, src := 0x1440000 } }, .sram, by decide +kernel⟩,
    ⟨ring 0 { ring1 with space := 0, wbEn := true, wb := 8 } { up with bob := { up.bob with bme := false } }, 0, { ring1 with space := 0, wbEn := true, wb := 8 }, .writeBack, .busMasterOff, true, 0, 8, true, by decide +kernel⟩⟩

theorem witness_CommandsFetched :
    (∃ s : State, ∃ p, ∃ r, ∃ op, ∃ len, ∃ k, ∃ c : Cmd, ∃ c0, vget s.bob.rings (cmdBob p) = r ∧ mayFetch s p = true ∧ ringLive r = true ∧ accessHeld s r.space = false ∧ packetOf p (ringRead s r r.head 1) 8 = (op, c0) ∧ leNat ((ringRead s r r.head 1).drop 4 |>.take 2) = len ∧ 4 ≤ len ∧ len ≤ 2048 ∧ k = (4 * len + 31) / 32 ∧ k ≤ 2 ^ r.log2n ∧ k ≤ ringUsed r ∧ ringErr s r r.head k true = none ∧ (packetOf p (ringRead s r r.head k) len).2 = c ∧ fetchCheck s (specOf op) op c = none) ∧
    (∃ s : State, ∃ p, ∃ r, ∃ op, ∃ len, ∃ k, ∃ c : Cmd, ∃ c0, ∃ st, ∃ det, vget s.bob.rings (cmdBob p) = r ∧ mayFetch s p = true ∧ ringLive r = true ∧ accessHeld s r.space = false ∧ packetOf p (ringRead s r r.head 1) 8 = (op, c0) ∧ leNat ((ringRead s r r.head 1).drop 4 |>.take 2) = len ∧ 4 ≤ len ∧ len ≤ 2048 ∧ k = (4 * len + 31) / 32 ∧ k ≤ 2 ^ r.log2n ∧ k ≤ ringUsed r ∧ ringErr s r r.head k true = none ∧ (packetOf p (ringRead s r r.head k) len).2 = c ∧ fetchCheck s (specOf op) op c = some (st, det)) ∧
    (∃ s : State, ∃ p, ∃ r, ∃ op, ∃ len, ∃ c : Cmd, vget s.bob.rings (cmdBob p) = r ∧ mayFetch s p = true ∧ ringLive r = true ∧ 0 < ringUsed r ∧ accessHeld s r.space = false ∧ ringErr s r r.head 1 true = none ∧ packetOf p (ringRead s r r.head 1) 8 = (op, c) ∧ leNat ((ringRead s r r.head 1).drop 4 |>.take 2) = len ∧ (len < 4 ∨ 2048 < len ∨ 2 ^ r.log2n < (4 * len + 31) / 32)) ∧
    (∃ s : State, ∃ p, ∃ r, ∃ len, vget s.bob.rings (cmdBob p) = r ∧ ringLive r = true ∧ accessHeld s r.space = false ∧ ringErr s r r.head 1 true = none ∧ leNat ((ringRead s r r.head 1).drop 4 |>.take 2) = len ∧ 4 ≤ len ∧ len ≤ 2048 ∧ ringUsed r < (4 * len + 31) / 32 ∧ (4 * len + 31) / 32 ≤ 2 ^ r.log2n) ∧
    (∃ s : State, ∃ p, ((vget s.cmd.pairs p).stopped = true ∨ 48 ≤ (vget s.cmd.pairs p).outs.length ∨ accepting s = false)) ∧
    (∃ s : State, ∃ p, ∃ r, vget s.bob.rings (cmdBob p) = r ∧ mayFetch s p = true ∧ ringLive r = true ∧ 0 < ringUsed r ∧ r.space = 0 ∧ busMaster s = false) :=
  ⟨⟨fetches 4 1, 0, ring1, 0x102, 4, 1, { tag := 7, version := 0x100 }, (packetOf 0 (ringRead (fetches 4 1) ring1 0 1) 8).2, by decide +kernel⟩,
    ⟨fetches 4 2, 0, ring1, 0x102, 4, 1, { tag := 7, version := 0x200 }, (packetOf 0 (ringRead (fetches 4 2) ring1 0 1) 8).2, 0x20, 1, by decide +kernel⟩,
    ⟨fetches 3 1, 0, ring1, 0x102, 3, (packetOf 0 (ringRead (fetches 3 1) ring1 0 1) 8).2, by decide +kernel⟩,
    ⟨fetches 9 1, 0, ring1, 9, by decide +kernel⟩,
    ⟨State.reset, 0, by decide +kernel⟩,
    ⟨ring 16 { ring1 with space := 0 } { up with bob := { up.bob with bme := false } }, 0, { ring1 with space := 0 }, by decide +kernel⟩⟩

theorem witness_PacketsChecked :
    (∃ s : State, ∃ p, ∃ c : Cmd, c.pair = p ∧ (findTag s p c.tag).isSome = true) ∧
    (∃ s : State, ∃ p, ∃ c : Cmd, ∃ op, c.pair = p ∧ findTag s p c.tag = none ∧ op ≠ 0x0101 ∧ s.cmd.cmdVer = 0) ∧
    (∃ s : State, ∃ p, ∃ c : Cmd, ∃ op, c.pair = p ∧ findTag s p c.tag = none ∧ op ≠ 0x0101 ∧ s.cmd.cmdVer ≠ 0 ∧ (c.version >>> 8 ≠ s.cmd.cmdVer >>> 8 ∨ s.cmd.cmdVer < c.version)) ∧
    (∃ s : State, ∃ p, ∃ c : Cmd, ∃ op, c.pair = p ∧ findTag s p c.tag = none ∧ (op = 0x0101 ∨ s.cmd.cmdVer ≠ 0 ∧ c.version >>> 8 = s.cmd.cmdVer >>> 8 ∧ c.version ≤ s.cmd.cmdVer)) :=
  ⟨⟨modPair up 0 (fun q => { q with outs := [{ pkt := { tag := 7 } }] }), 0, { tag := 7 }, by decide +kernel⟩,
    ⟨{ up with cmd := {} }, 0, {}, 0x102, by decide +kernel⟩,
    ⟨up, 0, { version := 0x101 }, 0x102, by decide +kernel⟩,
    ⟨up, 0, pk [], 0x102, by decide +kernel⟩⟩

theorem witness_StagedRecordsWritten :
    (∃ s : State, ∃ p, ∃ r, ∃ rest, ∃ b, (vget s.cmd.pairs p).staged = r :: rest ∧ vget s.bob.rings (replyBob p) = b ∧ fwRuns s = true ∧ ringLive b = true ∧ (16 + 4 * r.results.length + 31) / 32 ≤ ringFree b ∧ accessHeld s b.space = false ∧ ringErr s b b.tail (replyEntries r) false = none) ∧
    (∃ s : State, ∃ p, ∃ r, ∃ rest, (vget s.cmd.pairs p).staged = r :: rest ∧ (ringLive (vget s.bob.rings (replyBob p)) = false ∨ ringFree (vget s.bob.rings (replyBob p)) < (16 + 4 * r.results.length + 31) / 32)) ∧
    (∃ r : Reply, r.status < 256 ∧ r.detail < 65536 ∧ r.results.length ≤ 252) ∧
    (∃ s : State, ∃ k : Fin 4, ∃ e, ∃ rest, ∃ r, (vget s.evt.bobs k).staging = e :: rest ∧ vget s.bob.rings (evBob k) = r ∧ ringLive r = true ∧ 0 < ringFree r ∧ accessHeld s r.space = false ∧ ringErr s r r.tail 1 false = none ∧ r.irqEn = false ∧ (vget s.evt.bobs k).pendLost = 0) ∧
    (∃ s : State, ∃ k : Fin 4, ∃ e, ∃ rest, ∃ r, ∃ b, vget s.evt.bobs k = b ∧ b.staging = e :: rest ∧ vget s.bob.rings (evBob k) = r ∧ ringLive r = true ∧ 0 < ringFree r ∧ accessHeld s r.space = false ∧ ringErr s r r.tail 1 false = none ∧ r.irqEn = false ∧ 0 < b.pendLost ∧ rest.length < 2048) ∧
    (∃ s : State, ∃ k : Fin 4, ((vget s.evt.bobs k).staging = [] ∨ ringLive (vget s.bob.rings (evBob k)) = false ∨ ringFree (vget s.bob.rings (evBob k)) = 0)) :=
  ⟨⟨modPair (ring 17 { ring1 with tail := 0 }) 0 (fun q => { q with staged := [{ tag := 7 }] }), 0, { tag := 7 }, [], { ring1 with tail := 0 }, by decide +kernel⟩,
    ⟨modPair up 0 (fun q => { q with staged := [{ tag := 7 }] }), 0, { tag := 7 }, [], by decide +kernel⟩,
    ⟨{ status := 255, detail := 65535, results := List.replicate 252 0 }, by decide +kernel⟩,
    ⟨modEvBob (ring 24 { ring1 with tail := 0 }) 0 (fun b => { b with staging := [{ num := 5 }] }), 0, { num := 5 }, [], { ring1 with tail := 0 }, by decide +kernel⟩,
    ⟨modEvBob (ring 24 { ring1 with tail := 0 }) 0 (fun b => { b with staging := [{ num := 5 }], pendLost := 1 }), 0, { num := 5 }, [], { ring1 with tail := 0 }, { staging := [{ num := 5 }], pendLost := 1 }, by decide +kernel⟩,
    ⟨up, 0, by decide +kernel⟩⟩

theorem witness_EventsOrdered :
    (∃ s : State, ∃ i : Nat, ∃ e : Ev, s.evt.net[i]? = some e ∧ s.ct ≤ e.stamp + 800) ∧
    (∃ s : State, ∃ i : Nat, ∃ e : Ev, ∃ n : Fin 256, s.evt.net[i]? = some e ∧ e.stamp + 800 < s.ct ∧ e.dest = none ∧ e.num = n.val ∧ (vget s.evt.routes n).en = true ∧ (vget s.evt.bobs (vget s.evt.routes n).bobbin).staging.length < 2048 ∧ n.val ∉ s.evt.stalled) ∧
    (∃ s : State, ∃ e, ∃ a, ∃ b, s.glb.sysLock = true ∧ s.evt.win = a ++ e :: b ∧ (∀ x ∈ a, e.stamp < x.stamp ∨ (e.stamp = x.stamp ∧ e.num < x.num)) ∧ (∀ x ∈ b, e.stamp < x.stamp ∨ (e.stamp = x.stamp ∧ e.num ≤ x.num))) ∧
    (∃ s : State, s.evt.win = []) :=
  ⟨⟨{ up with evt := { up.evt with net := [{ num := 5, stamp := 999200 }] } }, 0, { num := 5, stamp := 999200 }, by decide +kernel⟩,
    ⟨{ up with evt := { up.evt with net := [{ num := 5, stamp := 999199 }] } }, 0, { num := 5, stamp := 999199 }, 5, by decide +kernel⟩,
    ⟨{ up with evt := { up.evt with win := [{ num := 5, stamp := 7 }, { num := 4, stamp := 6 }] } }, { num := 4, stamp := 6 }, [{ num := 5, stamp := 7 }], [], by decide +kernel⟩,
    ⟨up, by decide +kernel⟩⟩

theorem witness_StepRunsFrontCommand :
    (∃ s : State, ∃ c : Instr, ∃ rest, s.pending = c :: rest) ∧
    (∃ s : State, s.pending = []) ∧
    (∃ s : State, s.glb.sysLock = false) ∧
    (∃ s : State, s.glb.sysLock = true ∧ (∀ p l, (laneOfPort s p l).state ≠ .up)) :=
  ⟨⟨{ up with pending := [.sysPllLoss] }, .sysPllLoss, [], by decide +kernel⟩,
    ⟨up, by decide +kernel⟩,
    ⟨State.reset, by decide +kernel⟩,
    ⟨up, by decide +kernel⟩⟩

theorem witness_MemoryReadsWrites :
    (∃ m, memWf m = true) ∧
    (∃ m, ∃ a, ∃ bs : List Byte, ∃ b, memWf m = true ∧ (b < a ∨ a + bs.length ≤ b)) ∧
    (∃ m, memWf m = true) ∧
    (∃ m, ∃ k, memWf m = true ∧ memWf k = true ∧ (∀ a, memGet m a = memGet k a)) :=
  ⟨⟨[(3, 4)], by decide +kernel⟩,
    ⟨[(3, 4)], 3, [1, 2], 5, by decide +kernel⟩,
    ⟨[(3, 4)], by decide +kernel⟩,
    ⟨[(3, 4)], [(3, 4)], ⟨by decide +kernel, by decide +kernel, fun _ => rfl⟩⟩⟩

theorem witness_LiteralsDecode :
    ∃ widthCode, ∃ raw : List Byte, widthCode < 4 ∧ raw.length = 256 * 2 ^ widthCode :=
  ⟨3, List.replicate 2048 7, by decide +kernel⟩


/-! ## Ill-formed commands are refused -/

theorem test_wf_offset : (Instr.registerWrite 0x14 5).WellFormed ∧ ¬ (Instr.registerWrite 0x16 5).WellFormed := by decide
theorem test_wf_rcOffset : (Instr.rcRegisterRead 0x14).WellFormed ∧ ¬ (Instr.rcRegisterRead 0x15).WellFormed := by decide
theorem test_wf_length : (Instr.bar2Read 0 4096).WellFormed ∧ ¬ (Instr.bar2Read 0 0).WellFormed ∧ ¬ (Instr.bar4Read 0 4097).WellFormed := by decide
theorem test_wf_page : ¬ (Instr.bar2Write 0xFFF [some 1, some 2]).WellFormed ∧ ¬ (Instr.bar4Write 0xFFF [1, 2]).WellFormed := by decide
theorem test_wf_link : (Instr.linkChange 5 8).WellFormed ∧ ¬ (Instr.linkChange 6 8).WellFormed ∧ ¬ (Instr.pcieLinkUp 1 3).WellFormed := by decide
theorem test_wf_packet :
    (Instr.sysNop { words := List.replicate 2044 0 }).WellFormed ∧ ¬ (Instr.sysNop { words := List.replicate 2045 0 }).WellFormed := by decide +kernel
theorem test_wf_sample : ¬ (Instr.linePacket 0 {} [(65536, 0, 0)]).WellFormed := by decide
theorem test_wf_slot : ¬ (Instr.hkpSlot { mv := 65536 }).WellFormed := by decide
theorem test_wf_ptp : ¬ (Instr.syncReceive 0 { corr := 2 ^ 63 }).WellFormed := by decide
theorem test_wf_challenge : ¬ (Instr.debugChallenge []).WellFormed := by decide
theorem test_wf_hello : ¬ (Instr.helloReceive 0 0 [] 0).WellFormed := by decide
theorem test_wf_temperature : ¬ (Instr.deviceTempRead 0 8 false).WellFormed := by decide

/-! ## The manual's worked examples -/

/-- H3.row17 has global index 113 (R7). -/
theorem test_row_lane_index : (laneOf 3 17).val = 113 := by decide
/-- The check value of CRC-32C over "123456789" (R333). -/
theorem test_crc32c : crc32c [0x31, 0x32, 0x33, 0x34, 0x35, 0x36, 0x37, 0x38, 0x39] = 0xE3069283 := by decide +kernel
/-- T_lim is 5000 at 80 kHz and 5715 at 70 kHz (R236; the example of 06_firing_and_placement.md). -/
theorem test_line_period : tLimOf 80000 = 5000 ∧ tLimOf 70000 = 5715 := by decide

/-- The tokens of the example of 05_block_code.md with lines of 8 bytes for 64, counted by hand; the last byte as given. -/
def ebcSlot (last : Byte) : Array Byte :=
  #[0x40, 0x00, 0x01, 0xFF, 0xFF, 0x40, 0x00, 0xC0, 0x17, 0xC0, 0x02, 0x00, 0x01, 0xC0, 0x03, 0xC1, 0x07, 0xC0, last, 0, 0]
/-- Every line is 0 0 0 FF FF 0 0 0, but for byte 3 of line 4. -/
def ebcRaw : List Byte := ((List.replicate 8 [0, 0, 0, 0xFF, 0xFF, 0, 0, 0]).flatten).set 35 1
theorem test_ebc_example : ebcTokens (ebcSlot 0x0F) #[] false 64 8 20 0 #[] = .ok ebcRaw := by decide +kernel
/-- The last token one byte too long ends in DECODE_OVERRUN (R203). -/
theorem test_ebc_overrun : ebcTokens (ebcSlot 0x10) #[] false 64 8 20 0 #[] = .overrun := by decide +kernel

/-- The dot of the example of 04_print_data_path.md: its seam column, tone curve and screening. -/
def dotState : State :=
  { up with
    pdp := { up.pdp with
      seamMask := vset up.pdp.seamMask 0 (List.replicate 2578 0 ++ [51]), screen := vset up.pdp.screen 0 { w := 128, h := 128 } }
    sram := memWrite (memWrite [] 0xA214C [0x90, 0x7E, 0x98, 0x9E]) 0x3C1CCE [4, 21, 38, 55, 72, 89, 106, 123, 140, 157, 174, 191, 208, 225, 242] }
theorem test_seam_example : seamSide dotState { left := 2, right := 3, start := 24512, w := 64 } 24530 1000 = 3 := by decide +kernel
theorem test_curve_example : tone dotState 36882 35980 = 35615 := by decide +kernel
theorem test_screen_example : screen dotState { format := 0, levelsM1 := 15 } 0 24530 1000 35615 = 8 := by decide +kernel
/-- Position 18 of a row of 4-bit codes is the low half of byte 9. -/
theorem test_pack_example : (packRow 4 (List.replicate 18 0 ++ [4] ++ List.replicate 365 0))[9]? = some 4 := by decide +kernel

/-- The update at CT 8,000,000 of the example of 06_firing_and_placement.md. -/
def brakes : State :=
  { up with
    ct := 8000000
    fir := { up.fir with
      src := 2, acc := -(250000 * 2 ^ 96 / 160000000000000000), hwm := 1002 * one32 + 21 * 2 ^ 27
      edges := [(7999900, 1002 * one32 + 21 * 2 ^ 27), (7998300, 1002 * one32 + 13 * 2 ^ 27)] } }
theorem test_fire_example_row0 : predict (estimate brakes) (1003 * one32) 0 0 = .instant 8002100 true := by decide +kernel
theorem test_fire_example_row1 : predict (estimate brakes) (1003 * one32 + one32 / 2) 0 0 = .instant 8005300 true := by decide +kernel

/-! ## Single steps -/

/-- A next state of which `p` holds. -/
def nextHas (o : Host.Outcome State Fault Refusal) (p : State → Bool) : Bool := match o with
  | .next t => p t
  | _ => false

/-- A step takes the front command: SYS.NOP is answered OK and leaves the queue. -/
theorem test_step_nop : nextHas (step { up with pending := [.sysNop (pk []), .modTimeExpiry 0] }) (fun t =>
    t.pending == [.modTimeExpiry 0] && ((vget t.cmd.pairs 0).staged.map fun r => (r.op.toNat, r.status)) == [(0x0102, 0)]) = true := by decide +kernel
/-- A NOP with a parameter word has BAD_LENGTH (R99, R612). -/
theorem test_nop_length : nextHas (exec (.sysNop (pk [1])) up) (fun t => ((vget t.cmd.pairs 0).staged.map (·.status)) == [0x11]) = true := by
  decide +kernel
/-- DRC.SET_QOS is answered NOT_PRIVILEGED on pair 1, and sets nothing (R530, R612). -/
theorem test_privileged : nextHas (exec (.drcSetQos { pk [512, 0x2030, 0] with pair := 1 }) up) (fun t =>
    ((vget t.cmd.pairs 1).staged.map fun r => (r.status, r.detail)) == [(0x21, 7)] && t.drc == up.drc) = true := by decide +kernel
/-- Bytes written through BAR2 under their enables (R47). -/
theorem test_bar2_write : nextHas (exec (.bar2Write 0x1000 [some 0xA5, none, some 0x5A]) up) (fun t =>
    t.dram == [(0x1000, 0xA5), (0x1002, 0x5A)]) = true := by decide +kernel
/-- TIM.SET_TB SET writes one time base and counts a step (R449). -/
theorem test_set_time : nextHas (exec (.timSetTbSet (pk [1, 10, 0, 999999999, 0])) up) (fun t =>
    (vget t.tim.tbs 1).t == 10999999999 * tbNs && (vget t.tim.tbs 0).t == 0 && (vget t.tim.tbs 1).steps == 1) = true := by decide +kernel

/-! ## Hypotheses over a row of a list -/

theorem witness_PacketsRejected :
    (∃ s, accepting s = false) ∧
    (∃ s, ∃ c : Cmd, findTag s c.pair c.tag = none ∧ mayFetch s c.pair = false) ∧
    (∃ s, ∃ c : Cmd, ∃ st det, findTag s c.pair c.tag = none ∧ mayFetch s c.pair = true ∧
      fetchCheck s (some sysNopSpec) sysNopSpec.op c = some (st, det)) :=
  ⟨⟨State.reset, by decide +kernel⟩, ⟨modPair up 0 fun q => { q with stopped := true }, pk [], by decide +kernel⟩,
    ⟨up, pk [1], 0x11, 0, by decide +kernel⟩⟩

/-- The clauses of PacketsChecked over what an operation asks of its packet. -/
theorem witness_PacketsChecked_spec :
    (∃ sp : CmdSpec, ∃ c : Cmd, sp.lenOk c.words = false) ∧
    (∃ sp : CmdSpec, ∃ c : Cmd, sp.lenOk c.words = true ∧ (c.rsvHi ≠ 0 ∨ c.rsvWord ≠ 0 ∨ 4 ≤ c.flags.toNat ∨ sp.rsvOk c.words = false)) ∧
    (∃ sp : CmdSpec, ∃ c : Cmd, ∃ p : Fin 4, sp.lenOk c.words = true ∧ c.rsvHi = 0 ∧ c.rsvWord = 0 ∧ c.flags.toNat < 4 ∧ sp.rsvOk c.words = true ∧
      sp.priv p c.words = true ∧ p ≠ 0) ∧
    (∃ sp : CmdSpec, ∃ c : Cmd, ∃ p : Fin 4, sp.lenOk c.words = true ∧ c.rsvHi = 0 ∧ c.rsvWord = 0 ∧ c.flags.toNat < 4 ∧ sp.rsvOk c.words = true ∧
      (sp.priv p c.words = false ∨ p = 0)) :=
  ⟨⟨sysNopSpec, pk [1], by decide⟩, ⟨sysNopSpec, { pk [] with flags := 4 }, by decide⟩, ⟨seqSwapSpec, { pk [] with pair := 1 }, 1, by decide⟩,
    ⟨sysNopSpec, { pk [] with flags := 3 }, 3, by decide⟩⟩

theorem witness_MemoriesKept : ∃ s t, s.memoriesOk = true ∧ step s = .next t :=
  ⟨{ up with dram := [(3, 4)] }, _, by decide +kernel, rfl⟩

/-- A setting answers a next state wherever it runs: one of each of the statement's groups. -/
theorem witness_SettingsKeepOtherBlocks :
    (∃ t, exec (.firSetRows (pk [])) up = .next t) ∧ (∃ t, exec (.motClear (pk [])) up = .next t) ∧ (∃ t, exec (.camSetRate (pk [])) up = .next t) ∧
    (∃ t, exec (.timSetTbSet (pk [])) up = .next t) ∧ (∃ t, exec (.nhdSetGate (pk [])) up = .next t) ∧ (∃ t, exec (.nhdSetRange (pk [])) up = .next t) ∧
    (∃ t, exec (.drcSetQos (pk [])) up = .next t) ∧ (∃ t, exec (.hlkSetTimers (pk [])) up = .next t) ∧ (∃ t, exec (.lgtSetPwm (pk [])) up = .next t) ∧
    (∃ t, exec (.hkpSetThrottle (pk [])) up = .next t) ∧ (∃ t, exec (.seqSetSwap (pk [])) up = .next t) :=
  ⟨⟨_, rfl⟩, ⟨_, rfl⟩, ⟨_, rfl⟩, ⟨_, rfl⟩, ⟨_, rfl⟩, ⟨_, rfl⟩, ⟨_, rfl⟩, ⟨_, rfl⟩, ⟨_, rfl⟩, ⟨_, rfl⟩, ⟨_, rfl⟩⟩

end Sys2Proof.Machine.Tests
end

section
/-! SUPPORT. The event path (R36-R39, R119-R122): an event's route, its staging, the order of the reorder window, arrival and delivery; with the statement
about them. -/

namespace Sys2Proof.Machine

open Sys2Proof

/-! ### Chip time -/

/-- While the system PLL is locked, chip time comes to the instant asked for unless it has passed it. -/
theorem advanceTo_ct_of_locked (s : State) (t : Nat) (h : s.glb.sysLock = true) : (advanceTo s t).ct = max s.ct t := by
  have hct : (advanceTo s t).ct = s.ct + (t - s.ct) := by simp [advanceTo, advance, h]
  omega

/-! ### Routes (R119, R120) -/

theorem routeOf_of_dest {s : State} {e : Ev} {k : Fin 4} (h : e.dest = some k) : routeOf s e = some k := by
  simp [routeOf, h]

theorem routeOf_of_num {s : State} {e : Ev} {n : Fin 256} (hd : e.dest = none) (hn : e.num = n.val) :
    routeOf s e = if (vget s.evt.routes n).en then some (vget s.evt.routes n).bobbin else none := by
  simp [routeOf, hd, hn, idx]

/-- The route is read from EVT_ROUTE alone. -/
theorem routeOf_congr {s t : State} (h : t.evt.routes = s.evt.routes) (e : Ev) : routeOf t e = routeOf s e := by
  simp only [routeOf, h]

/-! ### Staging (R119, R121, R122) -/

/-- A bobbin that has lost the event: both counts rise, and the stamps of the first and the last loss stand. -/
def EvBob.lose (b : EvBob) (e : Ev) : EvBob :=
  { b with lost := sat32 b.lost 1, pendLost := b.pendLost + 1
           firstLost := if b.pendLost = 0 then e.stamp else b.firstLost, lastLost := e.stamp }

theorem stageEvent_unrouted {s : State} {e : Ev} (h : routeOf s e = none) : stageEvent s e = s := by
  simp [stageEvent, h]

theorem stageEvent_room {s : State} {e : Ev} {k : Fin 4} (h : routeOf s e = some k) (hr : (vget s.evt.bobs k).staging.length < 2048) :
    stageEvent s e = modEvBob s k fun b => { b with staging := b.staging ++ [e] } := by
  simp [stageEvent, h, hr]

theorem stageEvent_full {s : State} {e : Ev} {k : Fin 4} (h : routeOf s e = some k) (hf : 2048 ≤ (vget s.evt.bobs k).staging.length) :
    stageEvent s e = modEvBob s k (·.lose e) := by
  simp only [stageEvent, h, Nat.not_lt.mpr hf, if_false]
  rfl

/-- Staging an event touches the event bobbins and nothing else. -/
theorem stageEvent_only (s : State) (e : Ev) : ∃ bobs', stageEvent s e = { s with evt := { s.evt with bobs := bobs' } } := by
  cases h : routeOf s e with
  | none => exact ⟨_, stageEvent_unrouted h⟩
  | some k =>
    obtain hr | hf := Nat.lt_or_ge (vget s.evt.bobs k).staging.length 2048
    · exact ⟨_, stageEvent_room h hr⟩
    · exact ⟨_, stageEvent_full h hf⟩

@[simp] theorem stageEvent_ct (s : State) (e : Ev) : (stageEvent s e).ct = s.ct :=
  match stageEvent_only s e with | ⟨_, h⟩ => (congrArg State.ct h :)

@[simp] theorem stageEvent_evt_net (s : State) (e : Ev) : (stageEvent s e).evt.net = s.evt.net :=
  match stageEvent_only s e with | ⟨_, h⟩ => (congrArg (·.evt.net) h :)

@[simp] theorem stageEvent_evt_win (s : State) (e : Ev) : (stageEvent s e).evt.win = s.evt.win :=
  match stageEvent_only s e with | ⟨_, h⟩ => (congrArg (·.evt.win) h :)

/-! ### Arrival (R38, R39) -/

/-- Event `i` has left the network. -/
def leaveNet (s : State) (i : Nat) : State := { s with evt := { s.evt with net := s.evt.net.eraseIdx i } }

/-- The stall report of an event that comes late (R39, R120). -/
def lateReport (s : State) (e : Ev) : Ev :=
  { num := 2, inst := e.num, stamp := s.ct, d0 := w32 (s.ct - (e.stamp + 800)), dest := routeOf s e }

/-- A stall of the event's number is marked, and its report is on the network. -/
def reportStall (s : State) (e rep : Ev) : State :=
  { s with evt := { s.evt with stalled := e.num :: s.evt.stalled, net := s.evt.net ++ [rep] } }

theorem eventArrival_in_time {s : State} {i : Nat} {e : Ev} (he : s.evt.net[i]? = some e) (ht : s.ct ≤ e.stamp + 800) :
    eventArrival i s = { s with evt := { s.evt with
      net := s.evt.net.eraseIdx i, win := s.evt.win ++ [e], stalled := s.evt.stalled.filter (· != e.num) } } := by
  simp [eventArrival, he, ht]

/-- The first late event of a stall is staged at once, with LATE, and its report enters the network. -/
theorem eventArrival_first_late {s : State} {i : Nat} {e : Ev} (he : s.evt.net[i]? = some e) (ht : e.stamp + 800 < s.ct)
    (hs : e.num ∉ s.evt.stalled) :
    eventArrival i s = reportStall (stageEvent (leaveNet s i) { e with late := true }) e (lateReport s e) := by
  have hc : s.evt.stalled.contains e.num = false := by simpa using hs
  simp only [eventArrival, he, Nat.not_le.mpr ht, if_false, hc, Bool.false_eq_true]
  simp only [reportStall, lateReport, stageEvent_ct]
  rfl

/-- An event in time waits in the window, and no bobbin and no time changes. -/
theorem exec_eventArrival_holds {s : State} {i : Nat} {e : Ev} (he : s.evt.net[i]? = some e) (ht : s.ct ≤ e.stamp + 800) :
    nextWith (exec (.eventArrival i) s) fun t => t.evt.win = s.evt.win ++ [e] ∧ t.evt.net = s.evt.net.eraseIdx i ∧
      t.evt.bobs = s.evt.bobs ∧ t.ct = s.ct ∧ t.bob = s.bob := by
  refine ⟨eventArrival i s, rfl, ?_⟩
  simp [eventArrival_in_time he ht]

/-- The first late event of a stall goes to its bobbin at once, marked, and its stall is reported. -/
theorem exec_eventArrival_late {s : State} {i : Nat} {e : Ev} {n : Fin 256} (he : s.evt.net[i]? = some e) (ht : e.stamp + 800 < s.ct)
    (hd : e.dest = none) (hn : e.num = n.val) (hen : (vget s.evt.routes n).en = true)
    (hr : (vget s.evt.bobs (vget s.evt.routes n).bobbin).staging.length < 2048) (hs : n.val ∉ s.evt.stalled) :
    ∃ t x, exec (.eventArrival i) s = .next t ∧
      (vget t.evt.bobs (vget s.evt.routes n).bobbin).staging = (vget s.evt.bobs (vget s.evt.routes n).bobbin).staging ++ [{ e with late := true }] ∧
      t.evt.net = s.evt.net.eraseIdx i ++ [x] ∧ x.num = 2 ∧ x.inst = n.val ∧ x.dest = some (vget s.evt.routes n).bobbin ∧
      n.val ∈ t.evt.stalled ∧ t.evt.win = s.evt.win := by
  have hroute : routeOf s e = some (vget s.evt.routes n).bobbin := by rw [routeOf_of_num hd hn, if_pos hen]
  have hstage := stageEvent_room (s := leaveNet s i) (e := { e with late := true }) hroute hr
  refine ⟨eventArrival i s, lateReport s e, rfl, ?_⟩
  rw [eventArrival_first_late he ht (hn ▸ hs), hstage]
  refine ⟨?_, rfl, rfl, hn, hroute, hn ▸ List.mem_cons_self, rfl⟩
  show (vget (vmod s.evt.bobs _ _) _).staging = _
  rw [vget_vmod_same]

/-! ### The order of the reorder window (R38) -/

theorem firstDue_mem {l : List Ev} {i : Nat} {x : Ev} (h : firstDue l = some (i, x)) : x ∈ l := by
  induction l generalizing i x with
  | nil => cases h
  | cons e es ih =>
    cases hes : firstDue es with
    | none => simp_all [firstDue]
    | some p =>
      obtain ⟨j, y⟩ := p
      have hy : y ∈ es := ih hes
      simp only [firstDue, hes] at h
      split at h
      · cases h; exact List.mem_cons_self
      · cases h; exact List.mem_cons_of_mem _ hy

/-- An event before all behind it is the first due. -/
theorem firstDue_cons_of_before {e : Ev} {b : List Ev} (h : ∀ x ∈ b, evBefore e x = true) : firstDue (e :: b) = some (0, e) := by
  cases hb : firstDue b with
  | none => simp [firstDue, hb]
  | some p => simp [firstDue, hb, h p.2 (firstDue_mem hb)]

/-- The first due of a window is the event that none ahead of it comes before, and that comes before all behind it. -/
theorem firstDue_append_cons {a b : List Ev} {e : Ev} (ha : ∀ x ∈ a, evBefore x e = false) (hb : ∀ x ∈ b, evBefore e x = true) :
    firstDue (a ++ e :: b) = some (a.length, e) := by
  induction a with
  | nil => exact firstDue_cons_of_before hb
  | cons y a ih =>
    have hrest := ih fun x hx => ha x (List.mem_cons_of_mem _ hx)
    simp [firstDue, hrest, ha y List.mem_cons_self]

theorem evBefore_eq_true_iff (x y : Ev) : evBefore x y = true ↔ x.stamp < y.stamp ∨ (x.stamp = y.stamp ∧ x.num ≤ y.num) := by
  simp [evBefore]

theorem evBefore_eq_false_iff (x y : Ev) : evBefore x y = false ↔ y.stamp < x.stamp ∨ (y.stamp = x.stamp ∧ y.num < x.num) := by
  rw [← Bool.not_eq_true, evBefore_eq_true_iff]
  omega

/-! ### Delivery (R38, R120) -/

/-- Event `i` of the window has left it at the instant its hold ends. -/
def leaveWin (s : State) (i : Nat) (e : Ev) : State :=
  let u := advanceTo s (e.stamp + 800)
  { u with evt := { u.evt with win := u.evt.win.eraseIdx i } }

theorem leaveWin_ct {s : State} (i : Nat) (e : Ev) (h : s.glb.sysLock = true) : (leaveWin s i e).ct = max s.ct (e.stamp + 800) :=
  advanceTo_ct_of_locked s _ h

@[simp] theorem leaveWin_evt (s : State) (i : Nat) (e : Ev) : (leaveWin s i e).evt = { s.evt with win := s.evt.win.eraseIdx i } := by
  simp [leaveWin]

theorem exec_eventDeliver_empty {s : State} (h : s.evt.win = []) : exec .eventDeliver s = .next s := by
  show execEventDeliver s = _
  simp [execEventDeliver, h, firstDue]

/-- With the system PLL locked, the first due event leaves the window and is staged. -/
theorem exec_eventDeliver_firstDue {s : State} {i : Nat} {e : Ev} (hl : s.glb.sysLock = true) (h : firstDue s.evt.win = some (i, e)) :
    exec .eventDeliver s = .next (stageEvent (leaveWin s i e) e) := by
  have hct : ¬ (advanceTo s (e.stamp + 800)).ct < e.stamp + 800 := by
    rw [advanceTo_ct_of_locked s _ hl]
    omega
  show execEventDeliver s = _
  simp only [execEventDeliver, h, hct, if_false]
  rfl

/-- A delivered event is routed by EVT_ROUTE as it stands. -/
@[simp] theorem routeOf_leaveWin (s : State) (i : Nat) (e x : Ev) : routeOf (leaveWin s i e) x = routeOf s x :=
  routeOf_congr (by simp) x

/-- A delivered event with an enabled route and room is staged last, and the other bobbins stay. -/
theorem stageEvent_leaveWin_routed {s : State} {e : Ev} {n : Fin 256} {k : Fin 4} (i : Nat) (hd : e.dest = none) (hn : e.num = n.val)
    (hrt : vget s.evt.routes n = { bobbin := k, en := true }) (hr : (vget s.evt.bobs k).staging.length < 2048) :
    (vget (stageEvent (leaveWin s i e) e).evt.bobs k).staging = (vget s.evt.bobs k).staging ++ [e] ∧
      ∀ j, j ≠ k → vget (stageEvent (leaveWin s i e) e).evt.bobs j = vget s.evt.bobs j := by
  have hroute : routeOf (leaveWin s i e) e = some k := by rw [routeOf_leaveWin, routeOf_of_num hd hn, hrt, if_pos rfl]
  rw [stageEvent_room hroute (by simpa using hr), modEvBob_evt_bobs, leaveWin_evt, vget_vmod_same]
  exact ⟨rfl, fun j hj => vget_vmod_other _ _ _ _ (Ne.symm hj)⟩

theorem stageEvent_leaveWin_disabled {s : State} {e : Ev} {n : Fin 256} (i : Nat) (hd : e.dest = none) (hn : e.num = n.val)
    (hen : (vget s.evt.routes n).en = false) : (stageEvent (leaveWin s i e) e).evt.bobs = s.evt.bobs := by
  have hroute : routeOf (leaveWin s i e) e = none := by rw [routeOf_leaveWin, routeOf_of_num hd hn, hen, if_neg Bool.false_ne_true]
  rw [stageEvent_unrouted hroute, leaveWin_evt]

/-- A delivered event for a full staging area is lost and counted. -/
theorem stageEvent_leaveWin_full {s : State} {e : Ev} {k : Fin 4} (i : Nat) (hd : e.dest = some k)
    (hf : 2048 ≤ (vget s.evt.bobs k).staging.length) :
    vget (stageEvent (leaveWin s i e) e).evt.bobs k = (vget s.evt.bobs k).lose e := by
  have hroute : routeOf (leaveWin s i e) e = some k := by rw [routeOf_leaveWin, routeOf_of_dest hd]
  rw [stageEvent_full hroute (by simpa using hf), modEvBob_evt_bobs, leaveWin_evt, vget_vmod_same]

/-- Settles O54: arrival is a case of held or first late; the window's first due event is found from its place in the order, and staging says what becomes of it.
That a stall is kept per event number is the model's choice (log entry 83). -/
theorem eventsOrdered : Obligations.EventsOrdered := by
  unfold Obligations.EventsOrdered
  refine ⟨fun s i e he ht => exec_eventArrival_holds he ht,
    fun s i e n he ht hd hn hen hr hs => exec_eventArrival_late he ht hd hn hen hr hs,
    fun s e a b hl hw ha hb => ?_, fun s hw => exec_eventDeliver_empty hw⟩
  have hfirst : firstDue s.evt.win = some (a.length, e) := by
    rw [hw]
    exact firstDue_append_cons (fun x hx => (evBefore_eq_false_iff x e).mpr (ha x hx)) fun x hx => (evBefore_eq_true_iff e x).mpr (hb x hx)
  have herase : s.evt.win.eraseIdx a.length = a ++ b := by simp [hw, List.eraseIdx_append_of_length_le]
  refine ⟨_, exec_eventDeliver_firstDue hl hfirst, ?_, ?_, ?_, fun n k => stageEvent_leaveWin_routed a.length,
    fun n => stageEvent_leaveWin_disabled a.length, fun k hd hf => ?_⟩
  · rw [stageEvent_ct, leaveWin_ct _ _ hl]
  · rw [stageEvent_evt_win, leaveWin_evt, herase]
  · rw [stageEvent_evt_net, leaveWin_evt]
  · rw [stageEvent_leaveWin_full a.length hd hf]
    exact ⟨rfl, by rw [EvBob.lose, sat32, satAdd], rfl, rfl⟩

end Sys2Proof.Machine
end

section
/-! SUPPORT. What the shared operations on a bobbin's ring do (R55, R63, R64, R66, R82): consecutive entries read, written and added, and signalled. -/

namespace Sys2Proof.Machine

open Sys2Proof

/-! ### A bobbin changed twice -/

theorem modRing_modRing (s : State) (n : Fin 32) (f g : Bobbin → Bobbin) : modRing (modRing s n f) n g = modRing s n fun r => g (f r) := by
  simp [modRing, vmod, vset, vget]

theorem modRing_congr {s : State} {n : Fin 32} {f g : Bobbin → Bobbin} (h : f (vget s.bob.rings n) = g (vget s.bob.rings n)) :
    modRing s n f = modRing s n g := by
  simp only [modRing, vmod, h]

/-- A bobbin changed into itself is no change. -/
theorem modRing_self {s : State} {n : Fin 32} {f : Bobbin → Bobbin} (h : f (vget s.bob.rings n) = vget s.bob.rings n) : modRing s n f = s := by
  have hset : vset s.bob.rings n (vget s.bob.rings n) = s.bob.rings := by simp [vset, vget]
  simp only [modRing, vmod, h, hset]

/-! ### Messages, halts and write-backs leave the indices -/

@[simp] theorem sendMsix_bob_rings (s : State) (v : Nat) : (sendMsix s v).bob.rings = s.bob.rings := by
  unfold sendMsix
  split
  · rfl
  · split <;> rfl

@[simp] theorem haltBob_bob_rings (s : State) (n : Fin 32) (kind : Nat) (isWrite : Bool) (space addr : Nat) (ring : Bool) :
    (haltBob s n kind isWrite space addr ring).bob.rings = vmod s.bob.rings n fun r => { r with halted := true, errKind := kind } := by
  simp only [haltBob]
  split <;> split <;> simp

@[simp] theorem flushWb_tail (s : State) (n : Fin 32) : (vget (flushWb s n).bob.rings n).tail = (vget s.bob.rings n).tail := by
  simp only [flushWb]
  split
  · rfl
  · split
    · simp
    · split
      · simp
      · split <;> simp

@[simp] theorem sendBobMsix_tail (s : State) (n : Fin 32) : (vget (sendBobMsix s n).bob.rings n).tail = (vget s.bob.rings n).tail := by
  simp only [sendBobMsix]
  split <;> simp

@[simp] theorem signalEntry_tail (s : State) (n : Fin 32) : (vget (signalEntry s n).bob.rings n).tail = (vget s.bob.rings n).tail := by
  simp only [signalEntry, signalDue]
  split <;> simp

/-! ### Entries signalled (R64) -/

/-- The state after `k` signalled entries of a bobbin. -/
def signalEntries (s : State) (n : Fin 32) (k : Nat) : State := (List.range k).foldl (fun s _ => signalEntry s n) s

theorem ringPush_eq (s : State) (n : Fin 32) (k : Nat) :
    ringPush s n k = signalEntries (modRing s n fun r => { r with tail := idxAdd r r.tail k, wbDue := true }) n k := rfl

theorem signalEntries_succ (s : State) (n : Fin 32) (k : Nat) : signalEntries s n (k + 1) = signalEntry (signalEntries s n k) n := by
  simp [signalEntries, List.range_succ]

/-- What one signalled entry keeps, any number of them keep. -/
theorem signalEntries_keeps {α : Type} (view : State → α) (n : Fin 32) (h : ∀ s, view (signalEntry s n) = view s) (s : State) (k : Nat) :
    view (signalEntries s n k) = view s := by
  induction k with
  | zero => rfl
  | succ k ih => rw [signalEntries_succ, h, ih]

/-- With interrupts off, an entry is counted and no message is sent. -/
theorem signalEntry_irqOff {s : State} {n : Fin 32} (h : (vget s.bob.rings n).irqEn = false) :
    signalEntry s n = modRing s n fun r => { r with pend := r.pend + 1, pendAt := if r.pend = 0 then s.ct else r.pendAt } := by
  simp [signalEntry, signalDue, h]

/-- With interrupts off, `k` entries are counted; the time kept is that of the oldest pending one. -/
theorem signalEntries_irqOff {s : State} {n : Fin 32} (h : (vget s.bob.rings n).irqEn = false) (k : Nat) :
    signalEntries s n k =
      modRing s n fun r => { r with pend := r.pend + k, pendAt := if r.pend = 0 ∧ 0 < k then s.ct else r.pendAt } := by
  induction k with
  | zero => exact (modRing_self (by simp)).symm
  | succ k ih =>
    rw [signalEntries_succ, ih, signalEntry_irqOff (by simpa using h), modRing_modRing]
    refine modRing_congr ?_
    by_cases hp : (vget s.bob.rings n).pend = 0 <;> by_cases hk : k = 0 <;> simp [hp, hk, Nat.add_assoc]

/-! ### Entries added (R55, R63) -/

@[simp] theorem ringPush_cmd (s : State) (n : Fin 32) (k : Nat) : (ringPush s n k).cmd = s.cmd := by
  rw [ringPush_eq, signalEntries_keeps (·.cmd) n (by simp)]
  rfl

/-- The tail moves past the entries added, whatever their messages do. -/
theorem ringPush_tail (s : State) (n : Fin 32) (k : Nat) :
    (vget (ringPush s n k).bob.rings n).tail = idxAdd (vget s.bob.rings n) (vget s.bob.rings n).tail k := by
  rw [ringPush_eq, signalEntries_keeps (fun s => (vget s.bob.rings n).tail) n (by simp)]
  simp

/-- With interrupts off, adding entries changes their bobbin and nothing else. -/
theorem ringPush_irqOff {s : State} {n : Fin 32} (h : (vget s.bob.rings n).irqEn = false) (k : Nat) :
    ringPush s n k = modRing s n fun r => { r with
      tail := idxAdd r r.tail k, wbDue := true, pend := r.pend + k, pendAt := if r.pend = 0 ∧ 0 < k then s.ct else r.pendAt } := by
  rw [ringPush_eq, signalEntries_irqOff (by simpa using h), modRing_modRing]
  rfl

/-! ### Entries written and checked (R66, R82) -/

theorem ringWrite_only (s : State) (r : Bobbin) (i k : Nat) (bs : List Byte) : ∃ out' dram' sram' hostMem' drc' drcx',
    ringWrite s r i k bs = { s with out := out', dram := dram', sram := sram', hostMem := hostMem', drc := drc', drcx := drcx' } := by
  induction k generalizing s i bs with
  | zero => exact ⟨_, _, _, _, _, _, rfl⟩
  | succ k ih =>
    obtain ⟨_, _, _, _, _, _, hw⟩ := spaceWrite_only s r.space (entryAddr r i) (bs.take 32) false
    obtain ⟨_, _, _, _, _, _, hr⟩ := ih (spaceWrite s r.space (entryAddr r i) (bs.take 32)) (i + 1) (bs.drop 32)
    rw [ringWrite, hr, hw]
    exact ⟨_, _, _, _, _, _, rfl⟩

@[simp] theorem ringWrite_bob (s : State) (r : Bobbin) (i k : Nat) (bs : List Byte) : (ringWrite s r i k bs).bob = s.bob :=
  match ringWrite_only s r i k bs with | ⟨_, _, _, _, _, _, h⟩ => (congrArg State.bob h :)

@[simp] theorem ringWrite_cmd (s : State) (r : Bobbin) (i k : Nat) (bs : List Byte) : (ringWrite s r i k bs).cmd = s.cmd :=
  match ringWrite_only s r i k bs with | ⟨_, _, _, _, _, _, h⟩ => (congrArg State.cmd h :)

@[simp] theorem ringWrite_evt (s : State) (r : Bobbin) (i k : Nat) (bs : List Byte) : (ringWrite s r i k bs).evt = s.evt :=
  match ringWrite_only s r i k bs with | ⟨_, _, _, _, _, _, h⟩ => (congrArg State.evt h :)

/-- A record of 32 bytes is one write at its entry. -/
theorem ringWrite_one (s : State) (r : Bobbin) (i : Nat) {bs : List Byte} (h : bs.length = 32) :
    ringWrite s r i 1 bs = spaceWrite s r.space (entryAddr r i) bs := by
  rw [ringWrite, ringWrite, List.take_of_length_le (Nat.le_of_eq h)]

/-- Entries that can all be accessed can be accessed up to any of them. -/
theorem ringErr_none_of_le {s : State} {r : Bobbin} {i j k : Nat} {isRead : Bool} (h : ringErr s r i k isRead = none) (hjk : j ≤ k) :
    ringErr s r i j isRead = none := by
  simp only [ringErr, List.findSome?_eq_none_iff, List.mem_range] at h ⊢
  exact fun m hm => h m (by omega)

/-- A ring in host memory that cannot be reached fails at the first entry (R87). -/
theorem ringErr_busMasterOff {s : State} {r : Bobbin} (i : Nat) (isRead : Bool) (hs : r.space = 0) (hb : busMaster s = false) :
    ringErr s r i 1 isRead = some (7, entryAddr r i) := by
  simp [ringErr, accessErr, hs, hb]

end Sys2Proof.Machine
end

section
/-! SUPPORT. The interpreter's fetch (R89 to R92, R100, R101, R612): what a packet of each kind at the head of a command bobbin comes to; with the statement about it. -/

namespace Sys2Proof.Machine

open Sys2Proof

/-! ### When the interpreter waits (R91, R101) -/

theorem mayFetch_eq_false {s : State} {p : Fin 4}
    (h : (vget s.cmd.pairs p).stopped = true ∨ 48 ≤ (vget s.cmd.pairs p).outs.length ∨ accepting s = false) : mayFetch s p = false := by
  obtain hstop | hfull | hacc := h
  · simp [mayFetch, hstop]
  · simp [mayFetch, Nat.not_lt.mpr hfull]
  · simp [mayFetch, hacc]

theorem commandFetch_mayNot {s : State} {p : Fin 4} (h : mayFetch s p = false) : commandFetch p s = s := by
  simp [commandFetch, h]

theorem commandFetch_empty {s : State} {p : Fin 4} (h : ringUsed (vget s.bob.rings (cmdBob p)) = 0) : commandFetch p s = s := by
  simp [commandFetch, h]

/-! ### Framing (R91) -/

/-- The mark of a full reply bobbin changes no list of outstanding commands. -/
@[simp] theorem markFull_outs (s : State) (p q : Fin 4) : (vget (markFull s p).cmd.pairs q).outs = (vget s.cmd.pairs q).outs := by
  by_cases h : p = q
  · subst h; simp [markFull]
  · simp [markFull, vget_vmod_other _ _ _ _ h]

/-- A staged reply changes no list of outstanding commands. -/
@[simp] theorem stageReply_outs (s : State) (p q : Fin 4) (tag op : BitVec 16) (st det : Nat) (res : List Word) (im : Bool) :
    (vget (stageReply s p tag op st det res im).cmd.pairs q).outs = (vget s.cmd.pairs q).outs := by
  unfold stageReply
  rw [markFull_outs]
  by_cases h : p = q
  · subst h; simp
  · simp [vget_vmod_other _ _ _ _ h]

/-- A framing error is answered and reported, and stops the pair; no bobbin changes, so the head stays on the packet. -/
theorem framingError_spec (s : State) (p : Fin 4) (tag op : BitVec 16) (head len : Nat) : ∃ e,
    (vget (framingError s p tag op head len).cmd.pairs p).stopped = true ∧ (framingError s p tag op head len).bob.rings = s.bob.rings ∧
      (framingError s p tag op head len).evt.net = s.evt.net ++ [e] ∧ e.num = 4 ∧ e.inst = p.val ∧
      (vget (framingError s p tag op head len).cmd.pairs p).outs = (vget s.cmd.pairs p).outs ∧
      (vget (framingError s p tag op head len).cmd.pairs p).staged =
        (vget s.cmd.pairs p).staged ++ [{ tag := tag, op := op, status := 0x11, detail := 2, ctDone := s.ct }] := by
  refine ⟨{ num := 4, inst := p.val, stamp := s.ct, d0 := w32 head, d1 := w32 len }, by simp [framingError], rfl, rfl, rfl, rfl,
    by simp [framingError], ?_⟩
  simp [framingError, stageReply_staged, stBadLength]

/-! ### The packet at the head (R89, R90, R92) -/

/-- The checks of a packet read no bobbin. -/
@[simp] theorem fetchCheck_modRing (s : State) (n : Fin 32) (f : Bobbin → Bobbin) (sp : Option CmdSpec) (op : Nat) (c : Cmd) :
    fetchCheck (modRing s n f) sp op c = fetchCheck s sp op c := rfl

section

variable {s : State} {p : Fin 4} {r : Bobbin} {op len k : Nat} {c c0 : Cmd}
  (hr : vget s.bob.rings (cmdBob p) = r) (hlive : ringLive r = true) (hheld : accessHeld s r.space = false)
  (hlen : leNat ((ringRead s r r.head 1).drop 4 |>.take 2) = len)

include hr hlive hheld in
theorem commandFetch_unreadable {e a : Nat} (hmay : mayFetch s p = true) (hused : 0 < ringUsed r) (herr : ringErr s r r.head 1 true = some (e, a)) :
    commandFetch p s = haltBob s (cmdBob p) e false r.space a true := by
  subst hr
  simp [commandFetch, hmay, hlive, hheld, herr, Nat.ne_of_gt hused]

include hr hlive hheld hlen

theorem commandFetch_badFrame (hmay : mayFetch s p = true) (hused : 0 < ringUsed r) (herr : ringErr s r r.head 1 true = none)
    (hhead : packetOf p (ringRead s r r.head 1) 8 = (op, c)) (hbad : len < 4 ∨ 2048 < len ∨ 2 ^ r.log2n < ceilDiv (4 * len) 32) :
    commandFetch p s = framingError s p c.tag (BitVec.ofNat 16 op) r.head len := by
  subst hr
  simp [commandFetch, hmay, hlive, hheld, herr, Nat.ne_of_gt hused, hhead, hlen, hbad, or_assoc]

/-- A packet whose entries have not all been produced waits, whether or not the interpreter may fetch. -/
theorem commandFetch_incomplete (herr : ringErr s r r.head 1 true = none) (hlo : 4 ≤ len) (hhi : len ≤ 2048)
    (hk : ceilDiv (4 * len) 32 ≤ 2 ^ r.log2n) (hused : ringUsed r < ceilDiv (4 * len) 32) : commandFetch p s = s := by
  subst hr
  cases hmay : mayFetch s p with
  | false => exact commandFetch_mayNot hmay
  | true =>
    by_cases h0 : ringUsed (vget s.bob.rings (cmdBob p)) = 0
    · exact commandFetch_empty h0
    · simp [commandFetch, hmay, hlive, hheld, herr, h0, hlen, Nat.not_lt.mpr, hlo, hhi, hk, hused]

/-- A complete packet with sound framing is consumed whole, then checked: the first check that fails answers it, otherwise it is outstanding. -/
theorem commandFetch_consumed (hmay : mayFetch s p = true) (hhead : packetOf p (ringRead s r r.head 1) 8 = (op, c0)) (hlo : 4 ≤ len) (hhi : len ≤ 2048)
    (hk : ceilDiv (4 * len) 32 = k) (hfit : k ≤ 2 ^ r.log2n) (hused : k ≤ ringUsed r) (herr : ringErr s r r.head k true = none)
    (hc : (packetOf p (ringRead s r r.head k) len).2 = c) :
    (fetchCheck s (specOf op) op c = none →
      commandFetch p s = addOut (modRing s (cmdBob p) fun r => { r with head := idxAdd r r.head k, wbDue := true }) op c) ∧
    (∀ st det, fetchCheck s (specOf op) op c = some (st, det) → commandFetch p s =
      stageReply (modRing s (cmdBob p) fun r => { r with head := idxAdd r r.head k, wbDue := true }) p c.tag (BitVec.ofNat 16 op) st det [] false) := by
  have hpos : 1 ≤ k := by simp only [← hk, ceilDiv]; omega
  have herr1 : ringErr s r r.head 1 true = none := ringErr_none_of_le herr hpos
  have h0 : ringUsed r ≠ 0 := by omega
  subst hr
  constructor
  · intro hok
    simp [commandFetch, hmay, hlive, hheld, herr1, h0, hhead, hlen, Nat.not_lt.mpr, hlo, hhi, hk, hfit, hused, herr, hc, hok]
  · intro st det hfail
    simp [commandFetch, hmay, hlive, hheld, herr1, h0, hhead, hlen, Nat.not_lt.mpr, hlo, hhi, hk, hfit, hused, herr, hc, hfail]

end

theorem exec_commandFetch (p : Fin 4) (s : State) : exec (.commandFetch p) s = .next (commandFetch p s) := rfl

/-- Settles O50: each clause is what the fetch of such a packet comes to, the entries of a packet being those of its LENGTH. -/
theorem commandsFetched : Obligations.CommandsFetched := by
  unfold Obligations.CommandsFetched
  simp only [exec_commandFetch, Host.Outcome.next.injEq]
  refine ⟨?_, ?_, ?_, fun s p h => commandFetch_mayNot (mayFetch_eq_false h), ?_⟩
  · intro s p r op len k c c0 hr hmay hlive hheld hhead hlen hlo hhi hk hfit hused herr hc
    exact commandFetch_consumed hr hlive hheld hlen hmay hhead hlo hhi hk.symm hfit hused herr hc
  · intro s p r op len c hr hmay hlive hused hheld herr hhead hlen hbad
    obtain ⟨e, he⟩ := framingError_spec s p c.tag (BitVec.ofNat 16 op) r.head len
    exact ⟨_, e, commandFetch_badFrame hr hlive hheld hlen hmay hused herr hhead hbad, he⟩
  · intro s p r len hr hlive hheld herr hlen hlo hhi hused hk
    exact commandFetch_incomplete hr hlive hheld hlen herr hlo hhi hk hused
  · intro s p r hr hmay hlive hused hspace hbus
    have hheld : accessHeld s r.space = false := by simp [accessHeld, hspace]
    rw [commandFetch_unreadable hr hlive hheld hmay hused (ringErr_busMasterOff r.head true hspace hbus), hspace]

end Sys2Proof.Machine
end

section
/-! SUPPORT. Replies and event records on their way to the host (R64, R66, R67, R97, R117, R118, R121, R122): their layouts, and what posting one does; with the statement
about them. -/

namespace Sys2Proof.Machine

open Sys2Proof

/-! ### Layouts (R97, R117) -/

theorem pack_toNat {fs : List (Nat × Nat)} (h : (fs.map fun f => f.1 * 2 ^ f.2).sum < 2 ^ 32) : (pack fs).toNat = (fs.map fun f => f.1 * 2 ^ f.2).sum :=
  Nat.mod_eq_of_lt h

theorem pack_low_at16 {a b : Nat} (ha : a < 65536) (hb : b < 65536) : (pack [(a, 0), (b, 16)]).toNat = a + b * 65536 := by
  have hsum : ([(a, 0), (b, 16)].map fun f => f.1 * 2 ^ f.2).sum = a + b * 65536 := by simp
  rw [pack_toNat (by omega), hsum]

theorem pack_low_at8_at16 {a b c : Nat} (ha : a < 256) (hb : b < 256) (hc : c < 65536) :
    (pack [(a, 0), (b, 8), (c, 16)]).toNat = a + b * 256 + c * 65536 := by
  have hsum : ([(a, 0), (b, 8), (c, 16)].map fun f => f.1 * 2 ^ f.2).sum = a + b * 256 + c * 65536 := by simp [Nat.add_assoc]
  rw [pack_toNat (by omega), hsum]

theorem b2n_lt_two (b : Bool) : b2n b < 2 := by cases b <;> decide

theorem b2n_beq_one (b : Bool) : (b2n b == 1) = b := by cases b <;> rfl

/-- The two halves of a word. -/
theorem halves_pack {a b : Nat} (ha : a < 65536) (hb : b < 65536) :
    bits (pack [(a, 0), (b, 16)]) 15 0 = a ∧ bits (pack [(a, 0), (b, 16)]) 31 16 = b := by
  simp only [bits, pack_low_at16 ha hb]
  omega

/-- The status word: STATUS in its low byte, DETAIL in its high half, nothing between. -/
theorem statusWord_fields {st det : Nat} (hst : st < 256) (hdet : det < 65536) :
    bits (pack [(st, 0), (det, 16)]) 7 0 = st ∧ bits (pack [(st, 0), (det, 16)]) 15 8 = 0 ∧ bits (pack [(st, 0), (det, 16)]) 31 16 = det := by
  simp only [bits, pack_low_at16 (show st < 65536 by omega) hdet]
  omega

/-- A count in the low half of a word and a flag above it, nothing higher. -/
theorem countWord_fields {n : Nat} (f : Bool) (hn : n < 65536) :
    bits (pack [(n, 0), (b2n f, 16)]) 15 0 = n ∧ bit (pack [(n, 0), (b2n f, 16)]) 16 = f ∧ bits (pack [(n, 0), (b2n f, 16)]) 31 17 = 0 := by
  have hf := b2n_lt_two f
  have hflag : (n + b2n f * 65536) / 2 ^ 16 % 2 = b2n f := by omega
  simp only [bits, bit, pack_low_at16 hn (show b2n f < 65536 by omega), hflag, b2n_beq_one, true_and]
  omega

/-- The first word of an event record: the number, the flag LATE above it, SEQ in the high half, nothing between. -/
theorem eventWord_fields {num seq : Nat} (late : Bool) (hn : num < 256) (hs : seq < 65536) :
    bits (pack [(num, 0), (b2n late, 8), (seq, 16)]) 7 0 = num ∧ bit (pack [(num, 0), (b2n late, 8), (seq, 16)]) 8 = late ∧
      bits (pack [(num, 0), (b2n late, 8), (seq, 16)]) 15 9 = 0 ∧ bits (pack [(num, 0), (b2n late, 8), (seq, 16)]) 31 16 = seq := by
  have hl := b2n_lt_two late
  have hflag : (num + b2n late * 256 + seq * 65536) / 2 ^ 8 % 2 = b2n late := by omega
  simp only [bits, bit, pack_low_at8_at16 hn (show b2n late < 256 by omega) hs, hflag, b2n_beq_one, true_and]
  omega

/-- A 64-bit time in two words. -/
theorem addr64_w32 (t : Nat) : addr64 (w32 t) (w32 (t / 2 ^ 32)) = t % 2 ^ 64 := by
  simp only [addr64, BitVec.toNat_ofNat]
  omega

theorem natLe_length (v k : Nat) : (natLe v k).length = k := by
  induction k generalizing v with
  | zero => rfl
  | succ k ih => simp [natLe, ih]

/-- An event record is 32 bytes (R117). -/
theorem eventBytes_length (e : Ev) (seq : BitVec 16) : (eventBytes e seq).length = 32 := by
  simp [eventBytes, wordBytes, natLe_length]

/-! ### Posting a reply (R67) -/

theorem replyHeld_cons {s : State} {p : Fin 4} {r : Reply} {rest : List Reply} (hs : (vget s.cmd.pairs p).staged = r :: rest) :
    replyHeld s p = true ↔
      ringLive (vget s.bob.rings (replyBob p)) = false ∨ ringFree (vget s.bob.rings (replyBob p)) < replyEntries r := by
  simp [replyHeld, hs]

@[simp] theorem markFull_bob (s : State) (p : Fin 4) : (markFull s p).bob = s.bob := rfl

/-- The pair's oldest staged reply has been written to its bobbin. -/
def replyWritten (s : State) (p : Fin 4) (r : Reply) (rest : List Reply) : State :=
  let b := vget s.bob.rings (replyBob p)
  modPair (ringWrite s b b.tail (replyEntries r) (replyBytes r)) p fun q => { q with staged := rest, counted := q.counted - 1 }

@[simp] theorem replyWritten_bob (s : State) (p : Fin 4) (r : Reply) (rest : List Reply) : (replyWritten s p r rest).bob = s.bob := by
  simp [replyWritten]

/-- The written reply has been added to its ring and signalled, and the mark of the pair is set anew. -/
def replyPosted (s : State) (p : Fin 4) (r : Reply) (rest : List Reply) : State :=
  markFull (ringPush (replyWritten s p r rest) (replyBob p) (replyEntries r)) p

section

variable {s : State} {p : Fin 4} {r : Reply} {rest : List Reply} {b : Bobbin}
  (hs : (vget s.cmd.pairs p).staged = r :: rest) (hb : vget s.bob.rings (replyBob p) = b)

include hs

theorem postReply_held (h : replyHeld s p = true) : postReply s p = s := by
  simp [postReply, hs, h]

include hb

theorem postReply_free (hlive : ringLive b = true) (hroom : replyEntries r ≤ ringFree b) (hheld : accessHeld s b.space = false)
    (herr : ringErr s b b.tail (replyEntries r) false = none) :
    postReply s p = replyPosted s p r rest := by
  subst hb
  have hfree : ¬ replyHeld s p = true := by simp [replyHeld_cons hs, hlive, hroom]
  simp only [postReply, hs, hfree, if_false, hheld, Bool.false_eq_true, herr]
  rfl

end

/-- A posted reply leaves the staged ones, no outstanding command is touched, and the tail passes its entries. -/
theorem replyPosted_spec {s : State} {p : Fin 4} {b : Bobbin} (r : Reply) (rest : List Reply) (hb : vget s.bob.rings (replyBob p) = b) :
    (vget (replyPosted s p r rest).cmd.pairs p).staged = rest ∧
      (vget (replyPosted s p r rest).cmd.pairs p).outs = (vget s.cmd.pairs p).outs ∧
      (vget (replyPosted s p r rest).bob.rings (replyBob p)).tail = idxAdd b b.tail (replyEntries r) := by
  refine ⟨by simp [replyPosted, replyWritten], by simp [replyPosted, replyWritten], ?_⟩
  have htail := ringPush_tail (replyWritten s p r rest) (replyBob p) (replyEntries r)
  rwa [replyWritten_bob, hb] at htail

/-- With interrupts off, posting a reply comes to its write and the count of its entries. -/
theorem replyPosted_irqOff {s : State} {p : Fin 4} (r : Reply) (rest : List Reply) (hi : (vget s.bob.rings (replyBob p)).irqEn = false) :
    replyPosted s p r rest = markFull (modRing (replyWritten s p r rest) (replyBob p) fun b => { b with
      tail := idxAdd b b.tail (replyEntries r), wbDue := true, pend := b.pend + replyEntries r
      pendAt := if b.pend = 0 ∧ 0 < replyEntries r then (replyWritten s p r rest).ct else b.pendAt }) p := by
  rw [replyPosted, ringPush_irqOff (by rwa [replyWritten_bob])]

/-- With interrupts off, the memories after a post are those of the write alone, the other bobbins and EVT stay, and its entries are counted. -/
theorem replyPosted_quiet {s : State} {p : Fin 4} {b : Bobbin} (r : Reply) (rest : List Reply) (hb : vget s.bob.rings (replyBob p) = b)
    (hi : b.irqEn = false) :
    (replyPosted s p r rest).dram = (ringWrite s b b.tail (replyEntries r) (replyBytes r)).dram ∧
      (replyPosted s p r rest).sram = (ringWrite s b b.tail (replyEntries r) (replyBytes r)).sram ∧
      (replyPosted s p r rest).hostMem = (ringWrite s b b.tail (replyEntries r) (replyBytes r)).hostMem ∧
      (∀ m, m ≠ replyBob p → vget (replyPosted s p r rest).bob.rings m = vget s.bob.rings m) ∧ (replyPosted s p r rest).evt = s.evt ∧
      (vget (replyPosted s p r rest).bob.rings (replyBob p)).pend = b.pend + replyEntries r := by
  subst hb
  have hrings := congrArg (·.bob.rings) (replyPosted_irqOff r rest hi)
  simp only [markFull_bob, modRing_bob_rings, replyWritten_bob] at hrings
  rw [hrings, replyPosted_irqOff r rest hi]
  refine ⟨rfl, rfl, rfl, fun m hm => vget_vmod_other _ _ _ _ (Ne.symm hm), ?_, by rw [vget_vmod_same]⟩
  exact ringWrite_evt _ _ _ _ _

theorem exec_replyPost (p : Fin 4) (s : State) : exec (.replyPost p) s = .next (if fwRuns s then postReply s p else s) := rfl

/-! ### Writing a staged event record (R118, R121, R122) -/

/-- The oldest staged event of a bobbin has been written with the bobbin's SEQ. -/
def eventWritten (s : State) (k : Fin 4) (e : Ev) (rest : List Ev) : State :=
  let r := vget s.bob.rings (evBob k)
  modEvBob (spaceWrite s r.space (entryAddr r r.tail) (eventBytes e (vget s.evt.bobs k).seq)) k fun b => { b with staging := rest, seq := b.seq + 1 }

@[simp] theorem eventWritten_bob (s : State) (k : Fin 4) (e : Ev) (rest : List Ev) : (eventWritten s k e rest).bob = s.bob := by
  simp [eventWritten]

@[simp] theorem eventWritten_ct (s : State) (k : Fin 4) (e : Ev) (rest : List Ev) : (eventWritten s k e rest).ct = s.ct := by
  simp [eventWritten]

/-- Writing an event takes it from staging and counts SEQ on. -/
@[simp] theorem eventWritten_evt_bobs (s : State) (k : Fin 4) (e : Ev) (rest : List Ev) :
    vget (eventWritten s k e rest).evt.bobs k = { vget s.evt.bobs k with staging := rest, seq := (vget s.evt.bobs k).seq + 1 } := by
  simp [eventWritten]

theorem eventStagingWrite_waits {s : State} {k : Fin 4} (h : (vget s.evt.bobs k).staging = [] ∨
    ringLive (vget s.bob.rings (evBob k)) = false ∨ ringFree (vget s.bob.rings (evBob k)) = 0) : eventStagingWrite k s = s := by
  cases hst : (vget s.evt.bobs k).staging with
  | nil => simp [eventStagingWrite, hst]
  | cons e rest =>
    obtain h | h | h := h
    · simp [hst] at h
    · simp [eventStagingWrite, hst, h]
    · simp [eventStagingWrite, hst, h]

theorem reportLost_none {s : State} {k : Fin 4} (h : (vget s.evt.bobs k).pendLost = 0) : reportLost s k = s := by
  simp [reportLost, h]

/-- The report of a bobbin's losses (R122). -/
def lossReport (k : Fin 4) (b : EvBob) : Ev :=
  { num := 3, inst := 24 + k.val, stamp := b.firstLost, d0 := w32 b.pendLost, d2 := w32 b.lastLost, d3 := w32 (b.lastLost / 2 ^ 32), dest := some k }

theorem reportLost_some {s : State} {k : Fin 4} (hl : 0 < (vget s.evt.bobs k).pendLost) (hr : (vget s.evt.bobs k).staging.length < 2048) :
    reportLost s k = modEvBob s k fun b => { b with staging := b.staging ++ [lossReport k (vget s.evt.bobs k)], pendLost := 0 } := by
  simp only [reportLost, hl, hr, decide_true, Bool.and_self, if_true]
  rfl

/-- With interrupts off, a record that can be written is written at the tail's entry, which is counted; losses are reported next. -/
theorem eventStagingWrite_written {s : State} {k : Fin 4} {e : Ev} {rest : List Ev} {r : Bobbin} (hst : (vget s.evt.bobs k).staging = e :: rest)
    (hr : vget s.bob.rings (evBob k) = r) (hlive : ringLive r = true) (hfree : 0 < ringFree r) (hheld : accessHeld s r.space = false)
    (herr : ringErr s r r.tail 1 false = none) (hi : r.irqEn = false) :
    eventStagingWrite k s = reportLost (modRing (eventWritten s k e rest) (evBob k) fun x =>
      { x with tail := idxAdd x x.tail 1, wbDue := true, pend := x.pend + 1, pendAt := if x.pend = 0 then s.ct else x.pendAt }) k := by
  subst hr
  have hpush := ringPush_irqOff (s := eventWritten s k e rest) (n := evBob k) (by rwa [eventWritten_bob]) 1
  simp only [eventWritten_ct, Nat.lt_one_iff, and_true] at hpush
  rw [← hpush]
  simp only [eventStagingWrite, hst, hlive, Nat.ne_of_gt hfree, hheld, herr, ringWrite_one _ _ _ (eventBytes_length _ _)]
  rfl

theorem exec_eventStagingWrite (k : Fin 4) (s : State) : exec (.eventStagingWrite k) s = .next (eventStagingWrite k s) := rfl

/-- Settles O53: the clauses on posting and on staged events are what one post or write comes to; those on layouts are the fields of each packed word. -/
theorem stagedRecordsWritten : Obligations.StagedRecordsWritten := by
  unfold Obligations.StagedRecordsWritten
  simp only [exec_replyPost, exec_eventStagingWrite, nextWith, Host.Outcome.next.injEq]
  refine ⟨?_, ?_, ?_, ?_, ?_, fun s k h => eventStagingWrite_waits h, ?_⟩
  · intro s p r rest b hs hb hfw hlive hroom hheld herr
    have hpost : (if fwRuns s = true then postReply s p else s) = replyPosted s p r rest := by
      rw [if_pos hfw, postReply_free hs hb hlive hroom hheld herr]
    exact ⟨fun hi => ⟨_, hpost, replyPosted_quiet r rest hb hi⟩, _, hpost, replyPosted_spec r rest hb⟩
  · intro s p r rest hs hno
    rw [postReply_held hs ((replyHeld_cons hs).mpr hno), ite_self]
  · intro r hst hdet hlen
    obtain ⟨htag, hop⟩ := halves_pack r.tag.isLt r.op.isLt
    obtain ⟨hstatus, hgap, hdetail⟩ := statusWord_fields hst hdet
    obtain ⟨hcount, hinterim, hhigh⟩ := countWord_fields r.interim (show r.results.length < 65536 by omega)
    exact ⟨_, _, _, _, rfl, htag, hop, hstatus, hgap, hdetail, hcount, hinterim, hhigh, BitVec.toNat_ofNat _ _⟩
  · intro s k e rest r hst hr hlive hfree hheld herr hi hlost
    rw [eventStagingWrite_written hst hr hlive hfree hheld herr hi, reportLost_none (by simpa using hlost), eventWritten, hr]
  · intro s k e rest r b hb hst hr hlive hfree hheld herr hi hlost hroom
    subst hb
    refine ⟨_, eventStagingWrite_written hst hr hlive hfree hheld herr hi, ?_⟩
    rw [reportLost_some (by simpa using hlost) (by simpa using hroom)]
    simp [lossReport]
  · intro e seq
    obtain ⟨hnum, hlate, hgap, hseq⟩ := eventWord_fields e.late (Nat.mod_lt e.num (by decide)) seq.isLt
    obtain ⟨hinst, hcode⟩ := halves_pack (Nat.mod_lt e.inst (by decide)) (Nat.mod_lt e.code (by decide))
    exact ⟨_, _, _, _, rfl, hnum, hlate, hgap, hseq, hinst, hcode, addr64_w32 e.stamp⟩

end Sys2Proof.Machine
end

section
/-! SUPPORT. The receipt of a training ordered set (R301, R302, R304, R307): which ones are taken and what taking one does; with the statement about it. -/

namespace Sys2Proof.Machine

open Sys2Proof

/-! ### A lane that has changed -/

@[simp] theorem laneOfPort_modLane_same (s : State) (p : Fin 16) (l : Fin 2) (f : Lane → Lane) :
    laneOfPort (modLane s p l f) p l = f (laneOfPort s p l) := by
  simp [laneOfPort, hport, modLane]

/-- Only a lane in READY can go on to GO (R307). -/
theorem tryGo_of_not_ready {s : State} {p : Fin 16} {l : Fin 2} (h : (laneOfPort s p l).state ≠ .ready) : tryGo s p l = s := by
  simp [tryGo, h]

/-! ### Training ordered sets (R301, R302) -/

theorem exec_tsReceive (p : Fin 16) (l : Fin 2) (w : BitVec 64) (s : State) : exec (.tsReceive p l w) s = .next (tsReceive p l w s) := rfl

theorem tsReceive_disabled {s : State} {p : Fin 16} {l : Fin 2} (h : (laneOfPort s p l).state = .disabled) (w : BitVec 64) :
    tsReceive p l w s = s := by
  simp [tsReceive, h]

/-- What a lane holds of the far end after the report of a training ordered set. -/
def Lane.withFarReport (w : BitVec 64) (x : Lane) : Lane :=
  { x with
    farRx := tsBits w 15 13, farRates := tsBits w 18 16, farPreset := tsBits w 24 21
    farReady := x.farReady || tsBits w 15 13 == 3 || tsBits w 15 13 == 4 }

section

variable {s : State} {p : Fin 16} {l : Fin 2} {w : BitVec 64}

theorem tsReceive_badCheck (hen : (laneOfPort s p l).state ≠ .disabled) (hcrc : crc8 56 (w.toNat % 2 ^ 56) 0 ≠ tsBits w 63 56) :
    tsReceive p l w s = modLane s p l fun x => { x with errTs := satAdd 0xFFFF x.errTs 1 } := by
  simp only [tsReceive, beq_iff_eq, hen, if_false, bne_iff_ne, ne_eq, hcrc, not_false_eq_true, if_true]

variable (hcrc : crc8 56 (w.toNat % 2 ^ 56) 0 = tsBits w 63 56)

include hcrc

theorem tsReceive_reserved (hres : tsBits w 55 48 ≠ 0 ∨ tsBits w 10 8 = 2 ∧ tsBits w 20 19 = 3) : tsReceive p l w s = s := by
  by_cases hdis : (laneOfPort s p l).state = .disabled
  · exact tsReceive_disabled hdis w
  · have hignored : (tsBits w 7 0 != 0xD2 || tsBits w 55 48 != 0 || (tsBits w 10 8 == 2 && tsBits w 20 19 == 3)) = true := by
      obtain hbit | ⟨hkind, hrate⟩ := hres
      · simp [hbit]
      · simp [hkind, hrate]
    simp only [tsReceive, beq_iff_eq, hdis, if_false, hcrc, bne_self_eq_false, Bool.false_eq_true, hignored, if_true]

/-- A sound set of a training lane that names the rate it trains at gives the far end's report, after which the lane may go on to GO. -/
theorem tsReceive_training (htrain : training (laneOfPort s p l) = true) (htype : tsBits w 7 0 = 0xD2) (hbits : tsBits w 55 48 = 0)
    (hrate : ¬ (tsBits w 10 8 = 2 ∧ tsBits w 20 19 = 3)) (hlane : tsBits w 12 12 = l.val)
    (hfits : tsBits w 18 16 / 2 ^ (laneOfPort s p l).rate % 2 = 1) :
    tsReceive p l w s = tryGo (modLane s p l (Lane.withFarReport w)) p l := by
  have hdis : (laneOfPort s p l).state ≠ .disabled := by
    intro h
    simp [training, h] at htrain
  have htaken : (tsBits w 7 0 != 0xD2 || tsBits w 55 48 != 0 || (tsBits w 10 8 == 2 && tsBits w 20 19 == 3)) = false := by
    simpa [htype, hbits] using hrate
  simp only [tsReceive, beq_iff_eq, hdis, if_false, hcrc, bne_self_eq_false, Bool.false_eq_true, htaken, hlane, htrain, if_true, hfits,
    Nat.one_ne_zero]
  rfl

end

/-- Settles O13: a set is ignored at its CHECK or at its reserved fields; a sound one is taken, and a lane in CHECK cannot go on to GO with it. -/
theorem trainingSetChecked : Obligations.TrainingSetChecked := by
  unfold Obligations.TrainingSetChecked
  simp only [exec_tsReceive, Host.Outcome.next.injEq]
  refine ⟨fun s p l w => tsReceive_badCheck, fun s p l w => tsReceive_reserved, ?_⟩
  intro s p l w hstate hcrc htype hbits hkind hlane hfits
  have htrain : training (laneOfPort s p l) = true := by simp [training, hstate]
  have hstay : (laneOfPort (modLane s p l (Lane.withFarReport w)) p l).state ≠ .ready := by simp [Lane.withFarReport, hstate]
  calc tsReceive p l w s
    _ = tryGo (modLane s p l (Lane.withFarReport w)) p l := tsReceive_training hcrc htrain htype hbits (by simp [hkind]) hlane hfits
    _ = modLane s p l (Lane.withFarReport w) := tryGo_of_not_ready hstay

end Sys2Proof.Machine
end
